-- ==== Sys2Proof/Word.lean ====
section
/-! DEFINITION. The plainest types of the model: bytes, segments of audio, timers. -/

namespace Sys2Proof

/-- One byte. -/
abbrev Byte := BitVec 8

/-- One segment of audio, 62.5 ms (00_scope, Units). `code` is its 250 bytes of store coding.
`magnitude` is the sum of the absolute values of its 500 decoded samples: the store coding is a
matter of the data sheet, and R17 takes the judgement silent or not as a property of the segment
appended, so the property travels with the segment (DESIGN CHOICE, log 6). -/
structure Segment where
  code : List Byte
  magnitude : Nat
  deriving DecidableEq, Repr

/-- The number of bytes of one segment (R2). -/
def segmentBytes : Nat := 250

/-- What a segment position that nothing has written reads as: 250 zero bytes that decode to
silence (DESIGN CHOICE, log 7). -/
def Segment.unwritten : Segment := ⟨List.replicate 250 0, 0⟩

/-- A timer: stopped, or running with the milliseconds it was started for. The model measures no
time: the expiry is a command (log 3). -/
abbrev Timer := Option Nat

end Sys2Proof
end

