-- ==== Sys2Proof/Config.lean ====
section
/-! DEFINITION. The figures the manual fixes for every node: capacities, counts and durations.
Durations are in milliseconds. Each cites the rule that states it. -/

namespace Sys2Proof.Config

/-- R4 -/
def maxObjects : Nat := 8192
/-- R20 -/
def maxRefs : Nat := 65535
/-- R18: a recording shorter than this is too short -/
def minSegments : Nat := 16
/-- R4 -/
def maxSegments : Nat := 9600
/-- R4 -/
def maxChain : Nat := 1200
/-- R11 -/
def maxGreetingBlocks : Nat := 240
/-- R17, R78: silent segments that end a recording -/
def silenceEnd : Nat := 112
/-- R17: samples of one segment -/
def samplesPerSegment : Nat := 500
/-- R66 -/
def channels : Nat := 16
/-- R67 -/
def typeAheadMax : Nat := 8
/-- R32 -/
def maxNumber : Nat := 9999
/-- R106 -/
def lampQueueMax : Nat := 32
/-- R107 -/
def lampOutstandingMax : Nat := 4
/-- R127 -/
def bufferMax : Nat := 8
/-- R142 -/
def answersMax : Nat := 8
/-- R140 -/
def routesMax : Nat := 256
/-- R137 -/
def queuePositions : Nat := 64
/-- R137 -/
def maxSequence : Nat := 4294967295
/-- R128 -/
def nodes : Nat := 30
/-- 00_scope, Units: the link address that means all nodes -/
def allNodes : Nat := 31
/-- R123 -/
def maxSilence : Nat := 3
/-- R123 -/
def maxBusy : Nat := 32
/-- R122 -/
def muteAt : Nat := 3
/-- R155 -/
def maxHold : Nat := 10
/-- R155 -/
def maxRetry : Nat := 3
/-- R141, R145, R148: sendings of a SEEK, an OFFER or a CLOSE -/
def maxSendings : Nat := 3
/-- R163 -/
def maxPostponements : Nat := 6
/-- R163 -/
def indexCausePages : Nat := 256
/-- R168 -/
def noticeLife : Nat := 7
/-- R185 -/
def maxDiscarded : Nat := 65535
/-- R160 -/
def lastDay : Nat := 65535
/-- 00_scope, Units -/
def minutesPerDay : Nat := 1440
/-- R178 -/
def objectPages : Nat := 512
/-- R21, R178: objects and queue positions on one page -/
def perPage : Nat := 16
/-- R178 -/
def queuePages : Nat := 4

/-- R69 -/
def digitTime : Nat := 6000
/-- R93 -/
def interDigitTime : Nat := 3000
/-- R71 -/
def clearingTime : Nat := 2000
/-- R70: 20 minutes -/
def sessionTime : Nat := 1200000
/-- R107 -/
def lampResultTime : Nat := 2000
/-- R112 -/
def scanStepTime : Nat := 200
/-- R133 -/
def joinTime : Nat := 10000
/-- R129: the first HAIL of a node that enters ACTIVE -/
def firstHailTime (node : Nat) : Nat := 10000 + node * 250
/-- R129 -/
def hailTime : Nat := 8000
/-- R132 -/
def aloneTime : Nat := 30000
/-- R131 -/
def absenceTime : Nat := 30000
/-- R123 -/
def busyWait : Nat := 5
/-- R141 -/
def claimTime : Nat := 400
/-- R145 -/
def answerTime : Nat := 1000
/-- R148 -/
def receiptTime : Nat := 1000
/-- R149, R154 -/
def idleTime : Nat := 3000
/-- R149, R153 -/
def lingerTime : Nat := 5000
/-- R155 -/
def holdDelay : Nat := 30000
/-- R155 -/
def retryDelay : Nat := 60000
/-- R160 -/
def minuteTime : Nat := 60000
/-- R163: 10 minutes -/
def postponeTime : Nat := 600000

end Sys2Proof.Config
end

