-- ==== Sys2Proof/Syntax.lean ====
section
/-! DEFINITION. The commands of the node: one constructor per row of spec/opcode_table.json, with
the frames, records and other operands they carry (12 Formats). -/

namespace Sys2Proof

/-- A digit of a DIGIT record: 0-9, * and # (R67). -/
inductive Key where
  | num (n : Nat)
  | star
  | hash
  deriving DecidableEq, Repr

/-- The reason of a CALL record (R73). -/
inductive CallReason where
  | noAnswer
  | busy
  | direct
  deriving DecidableEq, Repr

/-- The result of a LAMP_RESULT record (R108). -/
inductive LampResult where
  | ok
  | noLamp
  | lineDown
  deriving DecidableEq, Repr

/-- What a node reads in the response slot of a frame it sent (R123). -/
inductive SlotReading where
  | accept
  | busy
  | refuse
  | silence
  deriving DecidableEq, Repr

/-- The eight requesters of the Relay Link Controller (7.2). -/
inductive Requester where
  | outSlot (i : Nat)
  | inSlot (i : Nat)
  | answers
  | hail
  deriving DecidableEq, Repr

/-- The reasons of a BALK frame (12.1). -/
inductive BalkReason where
  | notHome
  | noBox
  | full
  | store
  | busy
  | noMembers
  deriving DecidableEq, Repr

/-- What an OFFER frame carries (R145, 12.1). -/
structure OfferBody where
  list : Bool
  urgent : Bool
  /-- the extension for DIRECT, the list number for LIST -/
  target : Nat
  segments : Nat
  origin : Option Nat
  identity : Option (List Nat)
  deriving DecidableEq, Repr

/-- The kind of a frame with its payload (R119, 12.1). -/
inductive Body where
  | hail (generation : Nat)
  | seek (number ext : Nat)
  | claim (number ext : Nat)
  | offer (o : OfferBody)
  | take
  | balk (r : BalkReason)
  | carry (index : Nat) (seg : Segment)
  | close (count : Nat)
  | receipt (ok : Bool)
  deriving DecidableEq, Repr

/-- A frame by its named fields (R119). -/
structure Frame where
  source : Nat
  dest : Nat
  tag : Nat
  body : Body
  deriving DecidableEq, Repr

/-- A frame as it stands on the medium, from its priority field to its CRC (12.1); the start bit before
them, and the response slot and the end after them, are those of `mediumBits`. The length
field is the length of `payload`. `magnitude` is the decoded magnitude of the segment in a CARRY
payload (log 6); it is no bit of the frame. -/
structure RawFrame where
  priority : BitVec 3
  source : BitVec 5
  dest : BitVec 5
  kind : BitVec 4
  tag : BitVec 8
  payload : List Byte
  crc : BitVec 16
  magnitude : Nat
  deriving DecidableEq, Repr

/-- A record on the signalling channel: type, channel and field bytes (12.2). The length byte is
`length`; a record whose length differs from the bytes it brings is one more bad layout. -/
structure RawRecord where
  type : Byte
  channel : Byte
  length : Byte
  fields : List Byte
  deriving DecidableEq, Repr

/-- The commands: one constructor per row of spec/opcode_table.json. -/
inductive Instr where
  /-- RESET_PIN (R172) -/
  | resetPin
  /-- CONFIG_READ_DONE (R176): the bytes the configuration memory gave, from address 0; none when
  it did not answer -/
  | configReadDone (stream : List Byte)
  /-- HEADER_READ_DONE (R179) -/
  | headerReadDone
  /-- WIPE_PAGE_WRITE_DONE (R179) -/
  | wipePageWriteDone
  /-- HEADER_WRITE_DONE (R179) -/
  | headerWriteDone
  /-- REBUILD_DONE (R180) -/
  | rebuildDone
  /-- PAGE_WRITE_DONE (R182) -/
  | pageWriteDone
  /-- CALL (R73) -/
  | call (ch ext : Nat) (reason : CallReason) (internal : Bool) (identity : List Nat)
  /-- RETRIEVE (R85) -/
  | retrieve (ch ext : Nat)
  /-- DIGIT (R67) -/
  | digit (ch : Nat) (key : Key)
  /-- RELEASE (R83): `gathered` is the partly captured segment, completed with silence code, that
  the highway holds for the channel at that moment (R82, log 5) -/
  | release (ch : Nat) (gathered : Option Segment)
  /-- TIME (R160) -/
  | time (day minute : Nat)
  /-- LAMP_RESULT (R108) -/
  | lampResult (ext : Nat) (result : LampResult)
  /-- LINE_RESET (R186): `gathered` lists the partly captured segments by channel (log 5) -/
  | lineReset (gathered : List (Nat × Segment))
  /-- STATUS_QUERY (R188) -/
  | statusQuery
  /-- SHUTDOWN (R174) -/
  | shutdown
  /-- RESUME (R175) -/
  | resume
  /-- RECORD_DISCARDED (R185): the record that arrived -/
  | recordDiscarded (r : RawRecord)
  /-- SESSION_TIMER_EXPIRY (R70): `gathered` as for RELEASE (log 5) -/
  | sessionTimerExpiry (ch : Nat) (gathered : Option Segment)
  /-- CLEARING_TIMER_EXPIRY (R71) -/
  | clearingTimerExpiry (ch : Nat)
  /-- DIGIT_TIMER_EXPIRY (R69) -/
  | digitTimerExpiry (ch : Nat)
  /-- INTER_DIGIT_TIMER_EXPIRY (R93) -/
  | interDigitTimerExpiry (ch : Nat)
  /-- SEGMENT_CAPTURED (R78) -/
  | segmentCaptured (ch : Nat) (seg : Segment)
  /-- GREETING_END (R74) -/
  | greetingEnd (ch : Nat)
  /-- TONE_END (R77) -/
  | toneEnd (ch : Nat)
  /-- MENU_PROMPT_END (R69) -/
  | menuPromptEnd (ch : Nat)
  /-- PROMPT_END (R68) -/
  | promptEnd (ch : Nat)
  /-- RECORD_PROMPT_END (R80) -/
  | recordPromptEnd (ch : Nat)
  /-- TIME_IS_UP_PROMPT_END (R79) -/
  | timeIsUpPromptEnd (ch : Nat)
  /-- FINAL_PROMPT_END (R71) -/
  | finalPromptEnd (ch : Nat)
  /-- SUMMARY_END (R86) -/
  | summaryEnd (ch : Nat)
  /-- PLAYBACK_END (R89) -/
  | playbackEnd (ch : Nat)
  /-- REVIEW_PLAYBACK_END (R58) -/
  | reviewPlaybackEnd (ch : Nat)
  /-- SLOT_PLAYBACK_END (R60) -/
  | slotPlaybackEnd (ch : Nat)
  /-- LAMP_RESULT_TIMEOUT (R109): of the outstanding command for `ext` -/
  | lampResultTimeout (ext : Nat)
  /-- SCAN_STEP_TIMER_EXPIRY (R112) -/
  | scanStepTimerExpiry
  /-- HAIL_TIMER_EXPIRY (R129) -/
  | hailTimerExpiry
  /-- ALONE_TIMER_EXPIRY (R132) -/
  | aloneTimerExpiry
  /-- JOIN_TIMER_EXPIRY (R133) -/
  | joinTimerExpiry
  /-- PRESENCE_TIMEOUT (R131) -/
  | presenceTimeout (node : Nat)
  /-- MEDIUM_IDLE (R120) -/
  | mediumIdle
  /-- ARBITRATION_LOST (R121) -/
  | arbitrationLost
  /-- BIT_ERROR (R122) -/
  | bitError
  /-- TRANSMISSION_END (R123): what the response slot read; not read for a frame to all nodes -/
  | transmissionEnd (reading : SlotReading)
  /-- BUSY_WAIT_EXPIRY (R123): of the frame of this requester -/
  | busyWaitExpiry (r : Requester)
  /-- FRAME_RECEIVED (R125) -/
  | frameReceived (f : RawFrame)
  /-- MEDIUM_DOMINANT_FAULT (R134) -/
  | mediumDominantFault
  /-- MEDIUM_RECESSIVE_RECOVERY (R134) -/
  | mediumRecessiveRecovery
  /-- HAIL_HANDED (R130) -/
  | hailHanded
  /-- SEEK_HANDED (R142) -/
  | seekHanded
  /-- CLAIM_HANDED (R143) -/
  | claimHanded
  /-- OFFER_HANDED (R149) -/
  | offerHanded
  /-- CARRY_HANDED (R152) -/
  | carryHanded
  /-- CLOSE_HANDED (R153) -/
  | closeHanded
  /-- TAKE_HANDED (R145) -/
  | takeHanded
  /-- BALK_HANDED (R155) -/
  | balkHanded
  /-- RECEIPT_HANDED (R148) -/
  | receiptHanded
  /-- CLAIM_TIMER_EXPIRY (R141) of an outbound slot -/
  | claimTimerExpiry (i : Nat)
  /-- ANSWER_TIMER_EXPIRY (R145) of an outbound slot -/
  | answerTimerExpiry (i : Nat)
  /-- RECEIPT_TIMER_EXPIRY (R148) of an outbound slot -/
  | receiptTimerExpiry (i : Nat)
  /-- IDLE_TIMER_EXPIRY (R154) of an inbound slot -/
  | idleTimerExpiry (i : Nat)
  /-- LINGER_TIMER_EXPIRY (R153) of an inbound slot -/
  | lingerTimerExpiry (i : Nat)
  /-- NOT_BEFORE_REACHED (R139) of a queue position -/
  | notBeforeReached (pos : Nat)
  /-- MINUTE_TIMER_EXPIRY (R161) -/
  | minuteTimerExpiry
  /-- POSTPONEMENT_TIMER_EXPIRY (R163) -/
  | postponementTimerExpiry
  /-- PASS_VISIT (R166) -/
  | passVisit
  deriving DecidableEq, Repr

end Sys2Proof
end

