-- ==== Sys2Proof/WellFormed.lean ====
section
/-! DEFINITION. Which commands are well formed: every operand lies in the range its rule or
layout gives it (R17, R119, R190, R191, 12 Formats). -/

namespace Sys2Proof

/-- A channel of the highway, 0-15 (R66, R185). -/
def wfChannel (ch : Nat) : Bool := ch < Config.channels

/-- An extension (00_scope, Units). -/
def wfExtension (ext : Nat) : Bool := 1000 ≤ ext && ext ≤ 99999

/-- A digit of a DIGIT record (12.2). -/
def wfKey : Key → Bool
  | .num n => n ≤ 9
  | .star => true
  | .hash => true

/-- A segment: 250 bytes, and a sum of 500 absolute samples of at most 2,047 (R17). -/
def wfSegment (seg : Segment) : Bool :=
  seg.code.length == segmentBytes && seg.magnitude ≤ Config.samplesPerSegment * 2047

/-- A partly captured segment, if there is one. -/
def wfGathered : Option Segment → Bool
  | none => true
  | some seg => wfSegment seg

/-- The identity digits a CALL may carry (12.2). -/
def wfIdentity (ds : List Nat) : Bool := ds.length ≤ 32 && ds.all (· ≤ 9)

/-- One of the eight requesters (7.2). -/
def wfRequester : Requester → Bool
  | .outSlot i => i < 2
  | .inSlot i => i < 4
  | .answers => true
  | .hail => true

/-- A raw frame whose source and destination are node numbers as R119 asks of an intact frame, and
whose payload its 8-bit length can count. -/
def wfRawFrame (f : RawFrame) : Bool :=
  1 ≤ f.source.toNat && f.source.toNat ≤ Config.nodes && 1 ≤ f.dest.toNat && f.payload.length ≤ 255
    && f.magnitude ≤ Config.samplesPerSegment * 2047

/-- The check of a command. -/
def wellFormed : Instr → Bool
  | .call ch ext _ _ ids => wfChannel ch && wfExtension ext && wfIdentity ids
  | .retrieve ch ext => wfChannel ch && wfExtension ext
  | .digit ch key => wfChannel ch && wfKey key
  | .release ch g => wfChannel ch && wfGathered g
  | .time day minute => day < 65536 && minute < 65536
  | .lampResult ext _ => wfExtension ext
  | .lineReset g => g.all fun p => wfChannel p.1 && wfSegment p.2
  | .recordDiscarded r => r.fields.length ≤ 255
  | .sessionTimerExpiry ch g => wfChannel ch && wfGathered g
  | .clearingTimerExpiry ch => wfChannel ch
  | .digitTimerExpiry ch => wfChannel ch
  | .interDigitTimerExpiry ch => wfChannel ch
  | .segmentCaptured ch seg => wfChannel ch && wfSegment seg
  | .greetingEnd ch => wfChannel ch
  | .toneEnd ch => wfChannel ch
  | .menuPromptEnd ch => wfChannel ch
  | .promptEnd ch => wfChannel ch
  | .recordPromptEnd ch => wfChannel ch
  | .timeIsUpPromptEnd ch => wfChannel ch
  | .finalPromptEnd ch => wfChannel ch
  | .summaryEnd ch => wfChannel ch
  | .playbackEnd ch => wfChannel ch
  | .reviewPlaybackEnd ch => wfChannel ch
  | .slotPlaybackEnd ch => wfChannel ch
  | .lampResultTimeout ext => wfExtension ext
  | .presenceTimeout node => 1 ≤ node && node ≤ Config.nodes
  | .busyWaitExpiry r => wfRequester r
  | .frameReceived f => wfRawFrame f
  | .claimTimerExpiry i => i < 2
  | .answerTimerExpiry i => i < 2
  | .receiptTimerExpiry i => i < 2
  | .idleTimerExpiry i => i < 4
  | .lingerTimerExpiry i => i < 4
  | .notBeforeReached pos => pos < Config.queuePositions
  | .resetPin => true
  | .configReadDone _ => true
  | .headerReadDone => true
  | .wipePageWriteDone => true
  | .headerWriteDone => true
  | .rebuildDone => true
  | .pageWriteDone => true
  | .statusQuery => true
  | .shutdown => true
  | .resume => true
  | .scanStepTimerExpiry => true
  | .hailTimerExpiry => true
  | .aloneTimerExpiry => true
  | .joinTimerExpiry => true
  | .mediumIdle => true
  | .arbitrationLost => true
  | .bitError => true
  | .transmissionEnd _ => true
  | .mediumDominantFault => true
  | .mediumRecessiveRecovery => true
  | .hailHanded => true
  | .seekHanded => true
  | .claimHanded => true
  | .offerHanded => true
  | .carryHanded => true
  | .closeHanded => true
  | .takeHanded => true
  | .balkHanded => true
  | .receiptHanded => true
  | .minuteTimerExpiry => true
  | .postponementTimerExpiry => true
  | .passVisit => true

end Sys2Proof
end

