-- ==== Sys2Proof/Decode.lean ====
section
/-! DEFINITION. Reading and writing the layouts of 12 Formats that reach the node as bytes: link
frames (12.1) and records from the switch (12.2), with the two CRCs; and the table's words (none:
no row of the opcode table has bits). -/

namespace Sys2Proof

/-- No row of spec/opcode_table.json gives bits, so no word spells a command. -/
def decodeTableWord (_nbits _w : Nat) : Option Instr := none

/-! ### Numbers, bytes and bits -/

/-- A multi-byte number, most significant byte first (12). -/
def beNat (bs : List Byte) : Nat := bs.foldl (fun n b => n * 256 + b.toNat) 0

/-- The `k` bytes of a number, most significant first (12). -/
def beBytes : Nat → Nat → List Byte
  | 0, _ => []
  | k + 1, n => BitVec.ofNat 8 (n / 256 ^ k) :: beBytes k n

/-- The `k` low bits of a number, most significant first (12). -/
def beBits : Nat → Nat → List Bool
  | 0, _ => []
  | k + 1, n => n.testBit k :: beBits k n

/-- The bits of bytes in the order they are sent (12). -/
def bytesBits (bs : List Byte) : List Bool := bs.flatMap fun b => beBits 8 b.toNat

/-- One bit into a CRC register of width `w` with generator `g` (less its top term), most
significant bit first (12). -/
def crcBit {w : Nat} (g reg : BitVec w) (bit : Bool) : BitVec w :=
  if (reg.msb != bit) then (reg <<< 1) ^^^ g else reg <<< 1

/-- The CRC-16 of link frames: x^16 + x^15 + x^2 + 1, register at all ones, sent as it stands
(12.1). -/
def crc16 (bits : List Bool) : BitVec 16 := bits.foldl (crcBit 0x8005#16) (BitVec.allOnes 16)

/-- The CRC-32 of the configuration image and the index pages: register at all ones, result
inverted (12.3). -/
def crc32 (bits : List Bool) : BitVec 32 :=
  ~~~ (bits.foldl (crcBit 0x04C11DB7#32) (BitVec.allOnes 32))

/-! ### Link frames -/

/-- The bits the CRC of a frame is computed over: from the first priority bit to the last payload
bit (12.1). -/
def RawFrame.crcBits (f : RawFrame) : List Bool :=
  beBits 3 f.priority.toNat ++ beBits 5 f.source.toNat ++ beBits 5 f.dest.toNat ++
    beBits 4 f.kind.toNat ++ beBits 8 f.tag.toNat ++ beBits 8 f.payload.length ++
    bytesBits f.payload

/-- R119: the CRC agrees, the source is 1-30 and the destination is 1-31. (That the frame was heard
complete is what FRAME_RECEIVED says.) -/
def RawFrame.intact (f : RawFrame) : Bool :=
  f.crc == crc16 f.crcBits && 1 ≤ f.source.toNat && f.source.toNat ≤ Config.nodes
    && 1 ≤ f.dest.toNat

/-- The two bits of the response slot: silence is 11, since every node that does not answer leaves the slot
recessive (12.1). -/
def SlotReading.code : SlotReading → BitVec 2
  | .accept => 0#2
  | .busy => 1#2
  | .refuse => 2#2
  | .silence => 3#2

/-- What the two bits of a response slot mean (12.1). -/
def slotReading (b : BitVec 2) : SlotReading :=
  if b = 0#2 then .accept else if b = 1#2 then .busy else if b = 2#2 then .refuse else .silence

/-- The start bit: dominant, which is 0 (R119, 12.1). -/
def startBit : Bool := false

/-- The end of a frame: recessive bits, which are 1, written as the 11 that make the medium idle (R118,
R119; log 51). -/
def endBits : List Bool := List.replicate 11 true

/-- A whole frame on the medium, bit by bit, with what its response slot reads: start, the fields from
priority to payload, CRC, response slot and end (R119, 12.1). -/
def mediumBits (f : RawFrame) (slot : SlotReading) : List Bool :=
  startBit :: f.crcBits ++ beBits 16 f.crc.toNat ++ beBits 2 slot.code.toNat ++ endBits

/-- The number in some bits, most significant first (12). -/
def bitsNat (bs : List Bool) : Nat := bs.foldl (fun n b => 2 * n + b.toNat) 0

/-- The bytes in some bits, most significant bit first (12): `n` of them. -/
def bitsBytes : Nat → List Bool → List Byte
  | 0, _ => []
  | n + 1, bs => BitVec.ofNat 8 (bitsNat (bs.take 8)) :: bitsBytes n (bs.drop 8)

/-- A whole frame read from the medium, with its response slot; none when it does not begin with a dominant
bit, is broken off before the end of its slot, or goes on dominant after it (R119, R122). `magnitude` is
that of a CARRY's segment (log 6). -/
def readMedium (magnitude : Nat) (bs : List Bool) : Option (RawFrame × SlotReading) :=
  let field (off n : Nat) : Nat := bitsNat ((bs.drop off).take n)
  let len := field 26 8
  if bs.head? == some startBit && decide (34 + 8 * len + 18 ≤ bs.length)
      && (bs.drop (34 + 8 * len + 18)).all (· == true) then
    some (⟨BitVec.ofNat 3 (field 1 3), BitVec.ofNat 5 (field 4 5), BitVec.ofNat 5 (field 9 5),
        BitVec.ofNat 4 (field 14 4), BitVec.ofNat 8 (field 18 8), bitsBytes len (bs.drop 34),
        BitVec.ofNat 16 (field (34 + 8 * len) 16), magnitude⟩,
      slotReading (BitVec.ofNat 2 (field (50 + 8 * len) 2)))
  else none

/-- The code of a BALK reason (12.1). -/
def BalkReason.code : BalkReason → Nat
  | .notHome => 1
  | .noBox => 2
  | .full => 3
  | .store => 4
  | .busy => 5
  | .noMembers => 6

/-- The BALK reason of a code (12.1). -/
def balkReason? : Nat → Option BalkReason
  | 1 => some .notHome
  | 2 => some .noBox
  | 3 => some .full
  | 4 => some .store
  | 5 => some .busy
  | 6 => some .noMembers
  | _ => none

/-- The code of a kind (12.1). -/
def Body.code : Body → Nat
  | .hail _ => 1
  | .seek _ _ => 2
  | .claim _ _ => 3
  | .offer _ => 4
  | .take => 5
  | .balk _ => 6
  | .carry _ _ => 7
  | .close _ => 8
  | .receipt _ => 9

/-- An optional extension: absent when its 3 bytes are 0 (12). -/
def optExt (n : Nat) : Option Nat := if n = 0 then none else some n

/-- Caller identity digits: absent when there are none (12.1, 12.2). -/
def optDigits (ds : List Nat) : Option (List Nat) := if ds.isEmpty then none else some ds

/-- The OFFER payload (12.1), or none when a field lies outside its encoding (R190, R149). Bit 0 of the flags
byte is the least significant (log 37). -/
def decodeOffer (p : List Byte) : Option OfferBody :=
  let flags := beNat (p.take 1)
  let target := beNat ((p.drop 1).take 3)
  let segments := beNat ((p.drop 4).take 2)
  let origin := beNat ((p.drop 6).take 3)
  let d := beNat ((p.drop 9).take 1)
  let digits := (p.drop 10).map BitVec.toNat
  let list := flags % 2 == 1
  if 10 ≤ p.length && d ≤ 16 && p.length == 10 + d && flags < 4
      && (if list then target < 32 else wfExtension target)
      && 16 ≤ segments && segments ≤ 9600
      && (origin == 0 || wfExtension origin) && digits.all (· ≤ 9) then
    some ⟨list, flags / 2 == 1, target, segments, optExt origin, optDigits digits⟩
  else none

/-- The bytes of an OFFER payload (12.1). -/
def encodeOffer (o : OfferBody) : List Byte :=
  let digits := o.identity.getD []
  beBytes 1 ((if o.list then 1 else 0) + (if o.urgent then 2 else 0)) ++ beBytes 3 o.target ++
    beBytes 2 o.segments ++ beBytes 3 (o.origin.getD 0) ++ beBytes 1 digits.length ++
    digits.map (BitVec.ofNat 8)

/-- The body of a frame by its kind code and payload; none when it is malformed in its kind, length
or fields (R190). -/
def decodeBody (kind magnitude : Nat) (p : List Byte) : Option Body :=
  match kind with
  | 1 => if p.length = 2 then some (.hail (beNat p)) else none
  | 2 =>
    if p.length = 5 && beNat (p.take 2) ≠ 0 && wfExtension (beNat (p.drop 2)) then
      some (.seek (beNat (p.take 2)) (beNat (p.drop 2))) else none
  | 3 =>
    if p.length = 5 && beNat (p.take 2) ≠ 0 && wfExtension (beNat (p.drop 2)) then
      some (.claim (beNat (p.take 2)) (beNat (p.drop 2))) else none
  | 4 => (decodeOffer p).map .offer
  | 5 => if p.length = 0 then some .take else none
  | 6 => if p.length = 1 then (balkReason? (beNat p)).map .balk else none
  | 7 =>
    if p.length = 252 && beNat (p.take 2) ≤ 9599 then
      some (.carry (beNat (p.take 2)) ⟨p.drop 2, magnitude⟩) else none
  | 8 => if p.length = 2 then some (.close (beNat p)) else none
  | 9 =>
    if p.length = 1 then
      (if beNat p = 1 then some (.receipt true)
       else if beNat p = 2 then some (.receipt false) else none)
    else none
  | _ => none

/-- The payload of a body (12.1). -/
def encodeBody : Body → List Byte
  | .hail g => beBytes 2 g
  | .seek n e => beBytes 2 n ++ beBytes 3 e
  | .claim n e => beBytes 2 n ++ beBytes 3 e
  | .offer o => encodeOffer o
  | .take => []
  | .balk r => beBytes 1 r.code
  | .carry i seg => beBytes 2 i ++ seg.code
  | .close n => beBytes 2 n
  | .receipt ok => beBytes 1 (if ok then 1 else 2)

/-- The column "Addressed to" of 12.1: HAIL and SEEK to all nodes, every other kind to one node. -/
def Body.toAll : Body → Bool
  | .hail _ => true
  | .seek _ _ => true
  | .claim _ _ => false
  | .offer _ => false
  | .take => false
  | .balk _ => false
  | .carry _ _ => false
  | .close _ => false
  | .receipt _ => false

/-- An intact frame read against the layouts; none when it is malformed (R190). -/
def decodeFrame (f : RawFrame) : Option Frame :=
  match decodeBody f.kind.toNat f.magnitude f.payload with
  | none => none
  | some b =>
    if b.toAll == (f.dest.toNat == Config.allNodes) then
      some ⟨f.source.toNat, f.dest.toNat, f.tag.toNat, b⟩
    else none

/-- The decoded magnitude a body brings with it (log 6). -/
def Body.magnitude : Body → Nat
  | .carry _ seg => seg.magnitude
  | .hail _ => 0
  | .seek _ _ => 0
  | .claim _ _ => 0
  | .offer _ => 0
  | .take => 0
  | .balk _ => 0
  | .close _ => 0
  | .receipt _ => 0

/-- The frame as it is sent, at a priority (12.1, R121). -/
def encodeFrame (priority : Nat) (f : Frame) : RawFrame :=
  let raw : RawFrame :=
    ⟨BitVec.ofNat 3 priority, BitVec.ofNat 5 f.source, BitVec.ofNat 5 f.dest,
      BitVec.ofNat 4 f.body.code, BitVec.ofNat 8 f.tag, encodeBody f.body, 0, f.body.magnitude⟩
  { raw with crc := crc16 raw.crcBits }

/-- Every field of a frame lies within its encoding (12.1). -/
def Frame.wf (f : Frame) : Bool :=
  1 ≤ f.source && f.source ≤ Config.nodes && 1 ≤ f.dest && f.dest ≤ Config.allNodes && f.tag < 256
    && f.body.toAll == (f.dest == Config.allNodes)
    && match f.body with
      | .hail g => g < 65536
      | .seek n e => 1 ≤ n && n < 65536 && wfExtension e
      | .claim n e => 1 ≤ n && n < 65536 && wfExtension e
      | .offer o =>
        (if o.list then o.target < 32 else wfExtension o.target)
          && 16 ≤ o.segments && o.segments ≤ 9600
          && (match o.origin with | none => true | some e => wfExtension e)
          && (match o.identity with
              | none => true
              | some ds => 1 ≤ ds.length && ds.length ≤ 16 && ds.all (· ≤ 9))
      | .take => true
      | .balk _ => true
      | .carry i seg => i ≤ 9599 && seg.code.length == segmentBytes
      | .close n => n < 65536
      | .receipt _ => true

/-! ### Records from the switch -/

/-- The reason code of a CALL (12.2). -/
def CallReason.code : CallReason → Nat
  | .noAnswer => 1
  | .busy => 2
  | .direct => 3

/-- The reason of a code (12.2). -/
def callReason? : Nat → Option CallReason
  | 1 => some .noAnswer
  | 2 => some .busy
  | 3 => some .direct
  | _ => none

/-- The code of a LAMP_RESULT's result (12.2). -/
def LampResult.code : LampResult → Nat
  | .ok => 1
  | .noLamp => 2
  | .lineDown => 3

/-- The result of a code (12.2). -/
def lampResult? : Nat → Option LampResult
  | 1 => some .ok
  | 2 => some .noLamp
  | 3 => some .lineDown
  | _ => none

/-- The code of a digit: 10 for *, 11 for # (12.2). -/
def Key.code : Key → Nat
  | .num n => n
  | .star => 10
  | .hash => 11

/-- The digit of a code (12.2). -/
def key? (n : Nat) : Option Key :=
  if n ≤ 9 then some (.num n) else if n = 10 then some .star else if n = 11 then some .hash
  else none

/-- The CALL record (12.2). Bit 0 of the flags byte is the least significant (log 37). -/
def decodeCall (ch : Nat) (p : List Byte) : Option Instr :=
  let ext := beNat (p.take 3)
  let flags := beNat ((p.drop 4).take 1)
  let d := beNat ((p.drop 5).take 1)
  let digits := (p.drop 6).map BitVec.toNat
  if 6 ≤ p.length && p.length == 6 + d && d ≤ 32 && wfExtension ext && flags < 2
      && digits.all (· ≤ 9) then
    (callReason? (beNat ((p.drop 3).take 1))).map fun r =>
      .call ch ext r (flags == 1) digits
  else none

/-- A record that passes the port's check (R185, R191), as the command it stands for; none when the
port discards it. A RELEASE or LINE_RESET read from bytes brings no partly captured segment. -/
def decodeRecord (r : RawRecord) : Option Instr :=
  let ch := r.channel.toNat
  let p := r.fields
  if r.length.toNat ≠ p.length then none
  else match r.type.toNat with
    | 1 => if wfChannel ch then decodeCall ch p else none
    | 2 =>
      if wfChannel ch && p.length = 3 && wfExtension (beNat p) then some (.retrieve ch (beNat p))
      else none
    | 3 => if wfChannel ch && p.length = 1 then (key? (beNat p)).map (.digit ch) else none
    | 4 => if wfChannel ch && p.length = 0 then some (.release ch none) else none
    | 5 => if p.length = 4 then some (.time (beNat (p.take 2)) (beNat (p.drop 2))) else none
    | 6 =>
      if p.length = 4 && wfExtension (beNat (p.take 3)) then
        (lampResult? (beNat (p.drop 3))).map (.lampResult (beNat (p.take 3)))
      else none
    | 7 => if p.length = 0 then some (.lineReset []) else none
    | 8 => if p.length = 0 then some .statusQuery else none
    | 9 => if p.length = 0 then some .shutdown else none
    | 10 => if p.length = 0 then some .resume else none
    | _ => none

/-- A record's bytes by type, channel and fields. -/
def rawRecord (type ch : Nat) (fields : List Byte) : RawRecord :=
  ⟨BitVec.ofNat 8 type, BitVec.ofNat 8 ch, BitVec.ofNat 8 fields.length, fields⟩

/-- The record the switch sends for a command that is one of its ten records (12.2); none for every
other command. -/
def encodeRecord : Instr → Option RawRecord
  | .call ch ext reason internal ids =>
    some (rawRecord 1 ch (beBytes 3 ext ++ beBytes 1 reason.code ++
      beBytes 1 (if internal then 1 else 0) ++ beBytes 1 ids.length ++ ids.map (BitVec.ofNat 8)))
  | .retrieve ch ext => some (rawRecord 2 ch (beBytes 3 ext))
  | .digit ch key => some (rawRecord 3 ch (beBytes 1 key.code))
  | .release ch none => some (rawRecord 4 ch [])
  | .time day minute => some (rawRecord 5 0 (beBytes 2 day ++ beBytes 2 minute))
  | .lampResult ext result => some (rawRecord 6 0 (beBytes 3 ext ++ beBytes 1 result.code))
  | .lineReset [] => some (rawRecord 7 0 [])
  | .statusQuery => some (rawRecord 8 0 [])
  | .shutdown => some (rawRecord 9 0 [])
  | .resume => some (rawRecord 10 0 [])
  | _ => none

end Sys2Proof
end

