-- ==== Sys2Proof/Machine/State.lean ====
section
/-! DEFINITION. The state of the node as plain data: every register, table, queue, counter, timer
and pin the manual gives it, the state right after the reset pin, and the two ways a step could
stop. -/

namespace Sys2Proof.Machine

/-! ### Configuration -/

/-- One class of the class table (R28). -/
structure ClassRec where
  quota : Nat
  maxEntries : Nat
  maxSeconds : Nat
  minRoom : Nat
  heardDays : Nat
  savedDays : Nat
  allowance : Nat
  broadcastLife : Nat
  mayBroadcast : Bool
  lampEnabled : Bool
  absenceBlocks : Bool
  operator : Option Nat
  deriving DecidableEq, Repr

/-- One record of the mailbox table (R26): `lists` has bit L set for membership of list L, and
`usable` is the outcome of R26's test. -/
structure MailboxCfg where
  extension : Nat
  cls : Nat
  lists : BitVec 32
  enabled : Bool
  usable : Bool
  deriving DecidableEq, Repr

/-- The source of a status line (R189). -/
inductive LineSource where
  | none
  | anyAlarm
  | storeLow
  | linkAlone
  | channelsFull
  | housekeeping
  | indexBusy
  | draining
  deriving DecidableEq, Repr

/-- The held configuration image, as clamped (R176, R177). -/
structure Settings where
  node : Nat
  classes : List ClassRec
  ranges : List (Nat × Nat)
  mailboxes : List MailboxCfg
  scanStart : Nat
  scanEnd : Nat
  scanContinuous : Bool
  refreshAll : Bool
  lineSources : List LineSource
  passHour : Nat
  chanThreshold : Nat
  /-- G (R7) -/
  guard : Nat
  /-- B_b (R7) -/
  budget : Nat
  /-- P (R2) -/
  pool : Nat
  lowPercent : Nat
  silence : Nat
  digest : BitVec 32
  clampedMark : Bool
  deriving DecidableEq, Repr

/-- What stands in the place of the settings until an image has been handed out (log 9). -/
def Settings.unread : Settings :=
  { node := 0, classes := [], ranges := [], mailboxes := [], scanStart := 0, scanEnd := 0,
    scanContinuous := false, refreshAll := false, lineSources := [], passHour := 0,
    chanThreshold := 0, guard := 0, budget := 0, pool := 0, lowPercent := 0, silence := 0,
    digest := 0, clampedMark := false }

/-! ### The Audio Store -/

/-- What an object is for (R4). -/
inductive Use where
  | message
  | shared
  | greeting
  | name
  deriving DecidableEq, Repr

/-- One object (R4): `complete` is clear in OPEN and set in COMPLETE. -/
structure Obj where
  complete : Bool
  use : Use
  chain : List Nat
  segments : Nat
  refs : Nat
  owner : Option Nat
  earmark : Nat
  silentTail : Nat
  deriving DecidableEq, Repr

/-- The Audio Store (R2-R24). `objects` lists the occupied entries of the object table by ascending
number; `earmark` is E and `sharedUse` is U_b; F is the length of `free`. -/
structure Store where
  free : List Nat
  objects : List (Nat × Obj)
  earmark : Nat
  sharedUse : Nat
  ready : Bool
  deriving DecidableEq, Repr

/-- A store with nothing in it and not set up (log 10). -/
def Store.blank : Store := ⟨[], [], 0, 0, false⟩

/-! ### The Mailbox Directory -/

/-- The kind of a message entry (R30). -/
inductive EntryKind where
  | voice
  | shared
  | notice
  deriving DecidableEq, Repr

/-- The state of a message entry (R30). -/
inductive EntryState where
  | new
  | heard
  | saved
  deriving DecidableEq, Repr

/-- The reason of a NOTICE (R30). -/
inductive Reason where
  | unknown
  | full
  | unreachable
  | listPartial
  deriving DecidableEq, Repr

/-- One message entry (R30). -/
structure Entry where
  number : Nat
  kind : EntryKind
  state : EntryState
  urgent : Bool
  origin : Option Nat
  identity : Option (List Nat)
  arrival : Option Nat
  changeDay : Option Nat
  object : Option Nat
  expiry : Option Nat
  originNode : Nat
  reason : Option Reason
  target : Option Nat
  subject : Option Nat
  unreached : Option Nat
  deriving DecidableEq, Repr

/-- One of the four greeting slots (R52). -/
inductive GreetSlot where
  | standard
  | busy
  | absence
  | name
  deriving DecidableEq, Repr

/-- The runtime state of one mailbox (R29). -/
structure Mailbox where
  entries : List Entry
  charged : Nat
  pending : Nat
  reserved : Nat
  nextNumber : Nat
  standard : Option Nat
  busy : Option Nat
  absence : Option Nat
  name : Option Nat
  endDay : Option Nat
  lock : Option Nat
  erasePending : List Nat
  deriving DecidableEq, Repr

/-- A mailbox after a cold start (R50). -/
def Mailbox.blank : Mailbox :=
  { entries := [], charged := 0, pending := 0, reserved := 0, nextNumber := 1, standard := none,
    busy := none, absence := none, name := none, endDay := none, lock := none, erasePending := [] }

/-! ### The Channel Engine -/

/-- The prompts the manual names. -/
inductive Prompt where
  | youHaveReached
  | recordAfterTone
  | notInService
  | mailboxInUse
  | mailboxFull
  | notAccepting
  | tooShort
  | timeIsUp
  | options
  | messageSent
  | farewell
  | noMessagesAtAll
  | youHave
  /-- a count of 0 as R86 has it spoken -/
  | no
  | newMessages
  | ofThemUrgent
  | oldMessages
  | mainMenu
  | listNotPermitted
  | noMore
  | noMessages
  | unavailable
  | messageWord
  | urgentWord
  | received
  | fromExtension
  | fromWord
  | fromAnotherBuilding
  | yourMessageToExtension
  | noSuchMailboxDelivery
  | fullDelivery
  | unreachedDelivery
  | yourMessageToList
  | didNotReach
  | buildings
  | yourMessageNumber
  | messageMenu
  | messageSaved
  | messageErased
  | cannotForward
  | enterExtension
  | extensionNotValid
  | enterList
  | listNotValid
  | messageForwarded
  | cannotAccept
  | noSuchMailbox
  | willBeDelivered
  | cannotBeSentNow
  | cannotReply
  | cannotRecordNow
  | messageCancelled
  | sendMenu
  | broadcastCannotBeSent
  | sentTo
  | mailboxesHere
  | andTo
  | otherBuildings
  | listHasNoMembers
  | greetingsMenu
  | enterEndDay
  | dateNotValid
  | dateCannotBeSet
  | slotName (g : GreetSlot)
  | recorded
  | notRecorded
  | noEndDate
  | slotMenu
  | greetingCannotBeRecorded
  | reviewMenu
  | greetingSaved
  | noGreeting
  | greetingDeleted
  deriving DecidableEq, Repr

/-- One part of what a channel plays on its highway slot (R68, R183). -/
inductive Sound where
  | prompt (p : Prompt)
  | tone
  | object (n : Nat)
  | number (n : Nat)
  | digits (ds : List Nat)
  | stamp (m : Nat)
  | date (d : Nat)
  deriving DecidableEq, Repr

/-- One part of what a highway slot carries towards the switch (R183): silence, a part that is no object, or
a segment of an object, decoded from store coding. -/
inductive SlotAudio where
  | silence
  | part (x : Sound)
  | segment (seg : Segment)
  deriving DecidableEq, Repr

/-- Where a channel goes when a non-final prompt ends (PROMPT_END; log 11). -/
inductive After where
  | main
  | message
  | presentNext
  | addressing
  | listNumber
  | returnState
  | endDay
  | slot
  deriving DecidableEq, Repr

/-- The states of a channel (R66, 4.2, R84). The states R83 and R102 name by their prompt have
constructors of their own; `prompting` is a non-final prompt of a retrieval dialogue (log 11). -/
inductive ChanState where
  | idle
  | greeting
  | transferring
  | recordPrompt
  | tone
  | recording
  | timeUp
  | options
  | ending
  | clearing
  | summary
  | main
  | playing
  | message
  | addressing
  | listNumber
  | sendPrompt
  | sendTone
  | sendCapture
  | sendTimeUp
  | sendOptions
  | greetings
  | endDay
  | slot
  | greetPrompt
  | greetTone
  | greetCapture
  | greetTimeUp
  | review
  | prompting (next : After)
  deriving DecidableEq, Repr

/-- The return state of an addressing step or a recording for sending (R84). -/
inductive ReturnState where
  | main
  | message
  deriving DecidableEq, Repr

/-- The send target (R84): an extension of this node with its mailbox, an extension homed
elsewhere, or a list. -/
inductive SendTarget where
  | homed (ext k : Nat)
  | foreign (ext : Nat)
  | list (l : Nat)
  deriving DecidableEq, Repr

/-- One channel record (R66, R84; `endDigits` and `endInvalid` serve R61). -/
structure Channel where
  state : ChanState
  mailbox : Option Nat
  reason : Option CallReason
  identity : Option (List Nat)
  internal : Bool
  typeAhead : List Key
  playing : Option Nat
  recording : Option Nat
  grant : Nat
  reservation : Bool
  absenceChosen : Bool
  urgent : Bool
  silentRepeats : Nat
  digitTimer : Timer
  interDigitTimer : Timer
  clearingTimer : Timer
  sessionTimer : Timer
  sound : List Sound
  presented : List Nat
  current : Option Nat
  currentGone : Bool
  returnState : Option ReturnState
  address : List Nat
  invalid : Nat
  target : Option SendTarget
  slot : Option GreetSlot
  pendingEnd : Option Nat
  endDigits : List Nat
  endInvalid : Nat
  deriving DecidableEq, Repr

/-- A channel in IDLE: every field cleared (R66, R84). -/
def Channel.idle : Channel :=
  { state := .idle, mailbox := none, reason := none, identity := none, internal := false,
    typeAhead := [], playing := none, recording := none, grant := 0, reservation := false,
    absenceChosen := false, urgent := false, silentRepeats := 0, digitTimer := none,
    interDigitTimer := none, clearingTimer := none, sessionTimer := none, sound := [],
    presented := [], current := none, currentGone := false, returnState := none, address := [],
    invalid := 0, target := none, slot := none, pendingEnd := none, endDigits := [],
    endInvalid := 0 }

/-! ### The Lamp Unit -/

/-- The reported state of a lamp (R105). -/
inductive Reported where
  | on
  | off
  | unknown
  | fault
  deriving DecidableEq, Repr

/-- The Lamp Unit's record of one mailbox (R103, R105, R106). -/
structure LampRec where
  desired : Bool
  reported : Reported
  flag : Bool
  deriving DecidableEq, Repr

/-- A lamp command (6.3). -/
structure LampCmd where
  ext : Nat
  mailbox : Nat
  on : Bool
  attempt : Nat
  deriving DecidableEq, Repr

/-- The Lamp Unit (R103-R117); each outstanding command stands with its result timer (R107). -/
structure LampUnit where
  recs : List LampRec
  queue : List LampCmd
  outstanding : List (LampCmd × Timer)
  scanPos : Nat
  scanRunning : Bool
  scanTimer : Timer
  deriving DecidableEq, Repr

/-- The Lamp Unit with no mailbox, as R117 sets it up. -/
def LampUnit.blank : LampUnit := ⟨[], [], [], 0, false, none⟩

/-! ### The Relay Link Controller -/

/-- The link states (7.5). -/
inductive LinkState where
  | joining
  | active
  | muted
  | faulted
  deriving DecidableEq, Repr

/-- A frame in the send list (R120): `wait` is none when it is eligible, and `handed` is the moment
of handing (log 3). -/
structure SendItem where
  req : Requester
  frame : Frame
  priority : Nat
  handed : Nat
  silence : Nat
  busy : Nat
  wait : Timer
  deriving DecidableEq, Repr

/-- One entry of the presence table (R128): the absence timer runs while the entry is present and
stands for the last-heard time (log 3). -/
structure Presence where
  present : Bool
  generation : Option Nat
  absence : Timer
  deriving DecidableEq, Repr

/-- An absent entry (R128). -/
def Presence.blank : Presence := ⟨false, none, none⟩

/-- The Relay Link Controller (R118-R136). Entry n - 1 of `presence` is node n's. -/
structure LinkCtl where
  state : LinkState
  joinTimer : Timer
  hailTimer : Timer
  aloneTimer : Timer
  alone : Bool
  muteCount : Nat
  sendList : List SendItem
  transmitting : Option Requester
  buffer : List Frame
  presence : List Presence
  moment : Nat
  deriving DecidableEq, Repr

/-- The Controller as every start sets it up (R136). -/
def LinkCtl.fresh : LinkCtl :=
  { state := .joining, joinTimer := some Config.joinTime, hailTimer := none, aloneTimer := none,
    alone := false, muteCount := 0, sendList := [], transmitting := none, buffer := [],
    presence := List.replicate 30 Presence.blank, moment := 0 }

/-! ### The Delivery Engine -/

/-- A queue entry (R137). `list` distinguishes LIST from DIRECT. `carried` is set while an outbound
slot holds it; `notBefore` is none once the not-before time has been reached (log 3). -/
structure QEntry where
  list : Bool
  target : Nat
  node : Option Nat
  object : Nat
  mailbox : Option Nat
  number : Option Nat
  urgent : Bool
  location : Option Nat
  relocated : Bool
  hold : Nat
  retry : Nat
  notBefore : Timer
  seq : Nat
  group : Option Nat
  carried : Bool
  deriving DecidableEq, Repr

/-- The states of an outbound slot (R144). `finishing` is a slot whose entry has reached its
outcome while a frame of the slot remains in the send list. -/
inductive OutState where
  | free
  | locating
  | offering
  | carrying
  | closing
  | finishing
  deriving DecidableEq, Repr

/-- A seek record (R141). -/
structure SeekRec where
  number : Nat
  ext : Nat
  claimant : Option Nat
  deriving DecidableEq, Repr

/-- An outbound slot (R144): `pos` is the queue position it carries, and `wants` is the frame its
state has called for while its previous frame is still in the send list. -/
structure OutSlot where
  state : OutState
  pos : Nat
  dest : Option Nat
  tag : Nat
  seek : Option SeekRec
  seekCount : Nat
  offerCount : Nat
  nextIndex : Nat
  closeCount : Nat
  timer : Timer
  wants : Option Frame
  deriving DecidableEq, Repr

/-- A free outbound slot. -/
def OutSlot.blank : OutSlot :=
  { state := .free, pos := 0, dest := none, tag := 0, seek := none, seekCount := 0,
    offerCount := 0, nextIndex := 0, closeCount := 0, timer := none, wants := none }

/-- The states of an inbound slot (R149). -/
inductive InState where
  | free
  | filling
  | committed
  deriving DecidableEq, Repr

/-- An inbound slot (R149): `target` is a mailbox index for DIRECT and a list number for LIST. -/
structure InSlot where
  state : InState
  source : Nat
  tag : Nat
  list : Bool
  target : Nat
  offered : Nat
  received : Nat
  accept : Nat
  grant : Nat
  object : Nat
  urgent : Bool
  origin : Option Nat
  identity : Option (List Nat)
  reservation : Bool
  idleTimer : Timer
  lingerTimer : Timer
  deriving DecidableEq, Repr

/-- A free inbound slot. -/
def InSlot.blank : InSlot :=
  { state := .free, source := 0, tag := 0, list := false, target := 0, offered := 0, received := 0,
    accept := 0, grant := 0, object := 0, urgent := false, origin := none, identity := none,
    reservation := false, idleTimer := none, lingerTimer := none }

/-- A fan-out group (R157). -/
structure Group where
  mailbox : Option Nat
  list : Nat
  remaining : Nat
  unreached : Nat
  deriving DecidableEq, Repr

/-- The Delivery Engine (R137-R159). `routes` holds (extension, node), most recently used first. -/
structure Delivery where
  queue : List (Option QEntry)
  outSlots : List OutSlot
  inSlots : List InSlot
  routes : List (Nat × Nat)
  answers : List Frame
  groups : List (Option Group)
  tagCounter : Nat
  seekCounter : Nat
  enqCounter : Nat
  deriving DecidableEq, Repr

/-- The Delivery Engine as a cold start sets it up (R159). -/
def Delivery.fresh : Delivery :=
  { queue := List.replicate 64 none, outSlots := List.replicate 2 OutSlot.blank,
    inSlots := List.replicate 4 InSlot.blank, routes := [], answers := [],
    groups := List.replicate 8 none, tagCounter := 0, seekCounter := 0, enqCounter := 0 }

/-! ### The Housekeeping Unit -/

/-- The schedule state (9.2). -/
inductive Sched where
  | idle
  | waiting
  | running
  deriving DecidableEq, Repr

/-- The causes of a postponement (R163). -/
structure Causes where
  channels : Bool
  inbound : Bool
  index : Bool
  deriving DecidableEq, Repr

/-- The Housekeeping Unit (R160-R171): the clock is (day, minute) once set. -/
structure Housekeeping where
  clock : Option (Nat × Nat)
  minuteTimer : Timer
  lastPassDay : Option Nat
  sched : Sched
  postponements : Nat
  lastCauses : Causes
  postponeTimer : Timer
  passDay : Nat
  passTime : Nat
  passPos : Nat
  deriving DecidableEq, Repr

/-- The unit as every start sets it up (R171). -/
def Housekeeping.fresh : Housekeeping :=
  { clock := none, minuteTimer := none, lastPassDay := none, sched := .idle, postponements := 0,
    lastCauses := ⟨false, false, false⟩, postponeTimer := none, passDay := 0, passTime := 0,
    passPos := 0 }

/-! ### The index area and the Index Writer -/

/-- The header page (R178). -/
structure Header where
  generation : Nat
  digest : BitVec 32
  deriving DecidableEq, Repr

/-- A page of the index area other than the header (R178). -/
inductive PageId where
  | mailbox (k : Nat)
  | object (j : Nat)
  | queue (q : Nat)
  deriving DecidableEq, Repr

/-- What an object page holds of an object (R178). -/
structure ObjImage where
  complete : Bool
  use : Use
  chain : List Nat
  segments : Nat
  refs : Nat
  owner : Option Nat
  deriving DecidableEq, Repr

/-- What a mailbox page holds (R49, R178). -/
structure MailboxImage where
  entries : List Entry
  nextNumber : Nat
  standard : Option Nat
  busy : Option Nat
  absence : Option Nat
  name : Option Nat
  endDay : Option Nat
  deriving DecidableEq, Repr

/-- What a queue page holds of an entry (R178). -/
structure QImage where
  list : Bool
  target : Nat
  node : Option Nat
  object : Nat
  mailbox : Option Nat
  number : Option Nat
  urgent : Bool
  seq : Nat
  group : Option Nat
  deriving DecidableEq, Repr

/-- The content of a page: the occupied objects or positions by number, or a mailbox (R178). -/
inductive PageImage where
  | objects (os : List (Nat × ObjImage))
  | mailbox (m : MailboxImage)
  | queue (qs : List (Nat × QImage))
  deriving DecidableEq, Repr

/-- The index area (R178). A header or page that is not there fails its check (log 26). -/
structure IndexArea where
  header : Option Header
  pages : List (PageId × PageImage)
  deriving DecidableEq, Repr

/-- The Index Writer (R181, R182): the object page set in its order, the mailbox and queue page sets
in their shared order, and the write under way. -/
structure IndexWriter where
  dirtyObjects : List Nat
  dirtyOthers : List PageId
  writing : Option (PageId × PageImage)
  deriving DecidableEq, Repr

/-- The writer at every start (R181). -/
def IndexWriter.blank : IndexWriter := ⟨[], [], none⟩

/-! ### The line port and the Status Unit -/

/-- The node modes (00_scope; R172-R176). -/
inductive Mode where
  | starting
  | serving
  | draining
  | stopped
  | halted
  deriving DecidableEq, Repr

/-- The step of a start that is under way (R172, R179). -/
inductive StartStep where
  | none
  | configRead
  | headerRead
  | wipe (page : Nat)
  | headerWrite (warm : Bool) (generation : Nat)
  | rebuild
  deriving DecidableEq, Repr

/-- The twelve latched alarm kinds (R187). -/
inductive Alarm where
  | storeLow
  | linkAlone
  | linkFault
  | duplicateNode
  | duplicateHome
  | lampFaults
  | coldStart
  | indexDamaged
  | configClamped
  | objectsFull
  | queueFull
  | housekeepingForced
  deriving DecidableEq, Repr

/-- The reason of a REFUSE record (12.2). -/
inductive RefuseReason where
  | channelBusy
  | noMailbox
  | unavailable
  deriving DecidableEq, Repr

/-- The fields of a STATUS_REPLY (R188). -/
structure StatusReply where
  mode : Mode
  link : LinkState
  freeRoom : Nat
  active : Nat
  present : Nat
  discarded : Nat
  causes : Causes
  alarm : Option Alarm
  deriving DecidableEq, Repr

/-- The records the node sends (11.2, 12.2). -/
inductive OutRecord where
  | answer (ch : Nat)
  | refuse (ch : Nat) (r : RefuseReason)
  | clear (ch : Nat)
  | transfer (ch ext : Nat)
  | lamp (ext : Nat) (on : Bool)
  | statusReply (r : StatusReply)
  | alarm (a : Alarm)
  /-- ALARM with kind CONFIG_BAD (R176), which is not one of the twelve latched kinds -/
  | alarmConfigBad
  | ready
  deriving DecidableEq, Repr

/-- The answers a node drives in a response slot (R126). -/
inductive SlotAnswer where
  | accept
  | busy
  | refuse
  deriving DecidableEq, Repr

/-- What the node does on the medium: begins a frame, or drives the response slot of a frame heard
from a node. -/
inductive LinkOut where
  | frame (f : Frame) (priority : Nat)
  | answer (node : Nat) (a : SlotAnswer)
  deriving DecidableEq, Repr

/-! ### The whole node -/

/-- The state of the node. `audio` lists the written segment positions of the pool by ascending
position 8b + p; `lineOut` and `linkOut` are everything the node has sent, oldest first (log 4);
`pending` is the queue of commands that wait. -/
structure State where
  mode : Mode
  startStep : StartStep
  cfg : Settings
  configured : Bool
  generation : Option Nat
  store : Store
  mailboxes : List Mailbox
  chans : List Channel
  lamp : LampUnit
  link : LinkCtl
  deliv : Delivery
  house : Housekeeping
  writer : IndexWriter
  index : IndexArea
  audio : List (Nat × Segment)
  alarms : List Alarm
  discarded : Nat
  lines : List Bool
  lineOut : List OutRecord
  linkOut : List LinkOut
  pending : List Instr
  deriving DecidableEq, Repr

/-- The node right after the reset pin at power-on (R172): STARTING, the configuration read under
way, every block set up for a start, and message memory as log 7 and log 8 say. -/
def State.reset : State :=
  { mode := .starting
    startStep := .configRead
    cfg := Settings.unread
    configured := false
    generation := none
    store := Store.blank
    mailboxes := []
    chans := List.replicate 16 Channel.idle
    lamp := LampUnit.blank
    link := LinkCtl.fresh
    deliv := Delivery.fresh
    house := Housekeeping.fresh
    writer := IndexWriter.blank
    index := ⟨none, []⟩
    audio := []
    alarms := []
    discarded := 0
    lines := [false, false, false, false]
    lineOut := []
    linkOut := []
    pending := [] }

/-- The reasons the machine stops with a fault: none. The manual gives every event an effect; what
it calls a fault is a mode, a link state or an alarm. -/
inductive Fault where
  deriving DecidableEq, Repr

/-- The reasons a command has no meaning. -/
inductive Refusal where
  /-- raised by exec alone, for a row that has no meaning yet; safe. No arm raises it now. -/
  | notModelled (mnemonic : String)
  deriving DecidableEq, Repr

end Sys2Proof.Machine
end

