-- ==== Sys2Proof/Machine/Ops.lean ====
section
/-! DEFINITION. The named operations over the parts of the state: sorted tables, the audio pool's
memory, updates of one block at a time, and the reads every chapter uses. -/

namespace Sys2Proof.Machine

/-! ### Tables by ascending number -/

/-- The value at a number, if the table holds one. -/
def tblGet {α : Type} (k : Nat) : List (Nat × α) → Option α
  | [] => none
  | (j, v) :: rest => if j = k then some v else tblGet k rest

/-- The table with `v` at number `k`, numbers rising. -/
def tblSet {α : Type} (k : Nat) (v : α) : List (Nat × α) → List (Nat × α)
  | [] => [(k, v)]
  | (j, w) :: rest =>
    if k < j then (k, v) :: (j, w) :: rest
    else if k = j then (k, v) :: rest
    else (j, w) :: tblSet k v rest

/-- The table without number `k`. -/
def tblDel {α : Type} (k : Nat) : List (Nat × α) → List (Nat × α)
  | [] => []
  | (j, w) :: rest => if j = k then rest else (j, w) :: tblDel k rest

/-- The numbers of a table rise strictly. -/
def rising {α : Type} : List (Nat × α) → Bool
  | [] => true
  | [_] => true
  | (i, _) :: (j, w) :: rest => i < j && rising ((j, w) :: rest)

/-- The lowest number from `n` on that a rising table does not hold. -/
def lowestFree {α : Type} (n : Nat) : List (Nat × α) → Nat
  | [] => n
  | (j, _) :: rest => if j = n then lowestFree (n + 1) rest else lowestFree n rest

/-- n ÷ 8, rounded up (00_scope, Units). -/
def blocksOf (n : Nat) : Nat := (n + 7) / 8

/-! ### The audio pool as memory (R2) -/

/-- The number of segment position `p` of block `b`. -/
def audioAddr (b p : Nat) : Nat := 8 * b + p

/-- What a segment position holds. -/
def audioRead (m : List (Nat × Segment)) (a : Nat) : Segment := (tblGet a m).getD Segment.unwritten

/-- Storing a segment in a position; the canonical form lists no position that reads as
unwritten. -/
def audioWrite (m : List (Nat × Segment)) (a : Nat) (seg : Segment) : List (Nat × Segment) :=
  if seg = Segment.unwritten then tblDel a m else tblSet a seg m

/-- The canonical form of the pool's memory. -/
def audioWf (m : List (Nat × Segment)) : Bool :=
  rising m && m.all fun p => p.2 != Segment.unwritten

/-! ### Updating one part of the node -/

/-- The node with its store changed. -/
def State.onStore (s : State) (f : Store → Store) : State := { s with store := f s.store }
/-- The node with its mailboxes changed. -/
def State.onMailboxes (s : State) (f : List Mailbox → List Mailbox) : State :=
  { s with mailboxes := f s.mailboxes }
/-- The node with its channels changed. -/
def State.onChans (s : State) (f : List Channel → List Channel) : State :=
  { s with chans := f s.chans }
/-- The node with its Lamp Unit changed. -/
def State.onLamp (s : State) (f : LampUnit → LampUnit) : State := { s with lamp := f s.lamp }
/-- The node with its Relay Link Controller changed. -/
def State.onLink (s : State) (f : LinkCtl → LinkCtl) : State := { s with link := f s.link }
/-- The node with its Delivery Engine changed. -/
def State.onDeliv (s : State) (f : Delivery → Delivery) : State := { s with deliv := f s.deliv }
/-- The node with its Housekeeping Unit changed. -/
def State.onHouse (s : State) (f : Housekeeping → Housekeeping) : State :=
  { s with house := f s.house }
/-- The node with its Index Writer changed. -/
def State.onWriter (s : State) (f : IndexWriter → IndexWriter) : State :=
  { s with writer := f s.writer }
/-- The node with its index area changed. -/
def State.onIndex (s : State) (f : IndexArea → IndexArea) : State := { s with index := f s.index }
/-- The node with the pool's memory changed. -/
def State.onAudio (s : State) (f : List (Nat × Segment) → List (Nat × Segment)) : State :=
  { s with audio := f s.audio }
/-- The node in a mode. -/
def State.setMode (s : State) (m : Mode) : State := { s with mode := m }
/-- The node at a step of a start. -/
def State.setStart (s : State) (t : StartStep) : State := { s with startStep := t }
/-- The node with settings handed out. -/
def State.setCfg (s : State) (c : Settings) (handedOut : Bool) : State :=
  { s with cfg := c, configured := handedOut }
/-- The node with its generation settled or not. -/
def State.setGeneration (s : State) (g : Option Nat) : State := { s with generation := g }
/-- The node with its latched alarm set. -/
def State.setAlarms (s : State) (a : List Alarm) : State := { s with alarms := a }
/-- The node with its discarded-record count. -/
def State.setDiscarded (s : State) (n : Nat) : State := { s with discarded := n }
/-- The node with its status lines. -/
def State.setLines (s : State) (l : List Bool) : State := { s with lines := l }

/-- A record leaves on the signalling channel (R184). -/
def State.send (s : State) (r : OutRecord) : State := { s with lineOut := s.lineOut ++ [r] }
/-- The node drives the medium. -/
def State.drive (s : State) (o : LinkOut) : State := { s with linkOut := s.linkOut ++ [o] }

/-! ### Reading one part of the node -/

/-- Object `n` of the object table. -/
def State.obj? (s : State) (n : Nat) : Option Obj := tblGet n s.store.objects
/-- Changing object `n`, if it is there. -/
def State.onObj (s : State) (n : Nat) (f : Obj → Obj) : State :=
  match s.obj? n with
  | none => s
  | some o => s.onStore fun st => { st with objects := tblSet n (f o) st.objects }

/-- Mailbox `k`. -/
def State.mb (s : State) (k : Nat) : Mailbox := (s.mailboxes[k]?).getD Mailbox.blank
/-- Changing mailbox `k`. -/
def State.onMb (s : State) (k : Nat) (f : Mailbox → Mailbox) : State :=
  s.onMailboxes fun l => l.modify k f

/-- Channel `i`. -/
def State.ch (s : State) (i : Nat) : Channel := (s.chans[i]?).getD Channel.idle
/-- Changing channel `i`. -/
def State.onCh (s : State) (i : Nat) (f : Channel → Channel) : State :=
  s.onChans fun l => l.modify i f

/-- Outbound slot `i`. -/
def State.outSlot (s : State) (i : Nat) : OutSlot := (s.deliv.outSlots[i]?).getD OutSlot.blank
/-- Changing outbound slot `i`. -/
def State.onOut (s : State) (i : Nat) (f : OutSlot → OutSlot) : State :=
  s.onDeliv fun d => { d with outSlots := d.outSlots.modify i f }

/-- Inbound slot `j`. -/
def State.inSlot (s : State) (j : Nat) : InSlot := (s.deliv.inSlots[j]?).getD InSlot.blank
/-- Changing inbound slot `j`. -/
def State.onIn (s : State) (j : Nat) (f : InSlot → InSlot) : State :=
  s.onDeliv fun d => { d with inSlots := d.inSlots.modify j f }

/-- The queue entry at a position (R137). -/
def State.qEntry? (s : State) (pos : Nat) : Option QEntry := (s.deliv.queue[pos]?).join
/-- Changing the queue entry at a position. -/
def State.onQ (s : State) (pos : Nat) (f : QEntry → QEntry) : State :=
  s.onDeliv fun d => { d with queue := d.queue.modify pos (Option.map f) }

/-- The presence entry of a node 1-30 (R128). -/
def State.presence (s : State) (n : Nat) : Presence :=
  if n = 0 then Presence.blank else (s.link.presence[n - 1]?).getD Presence.blank
/-- Changing the presence entry of a node 1-30. -/
def State.onPresence (s : State) (n : Nat) (f : Presence → Presence) : State :=
  if n = 0 then s else s.onLink fun l => { l with presence := l.presence.modify (n - 1) f }

/-- The class that stands in for one the class table does not have: it permits nothing. -/
def ClassRec.blank : ClassRec :=
  { quota := 0, maxEntries := 0, maxSeconds := 0, minRoom := 0, heardDays := 0, savedDays := 0,
    allowance := 0, broadcastLife := 0, mayBroadcast := false, lampEnabled := false,
    absenceBlocks := false, operator := none }

/-- The record that stands in for one the mailbox table does not have: unusable. -/
def MailboxCfg.blank : MailboxCfg := ⟨0, 0, 0, false, false⟩

/-- The configured record of mailbox `k` (R26). -/
def State.mbCfg (s : State) (k : Nat) : MailboxCfg := (s.cfg.mailboxes[k]?).getD MailboxCfg.blank
/-- The class of mailbox `k` (R28). -/
def State.cls (s : State) (k : Nat) : ClassRec :=
  (s.cfg.classes[(s.mbCfg k).cls]?).getD ClassRec.blank
/-- The record of mailbox `k` is usable and enabled (R26, R48). -/
def State.inService (s : State) (k : Nat) : Bool := (s.mbCfg k).usable && (s.mbCfg k).enabled

/-- Today's day number, absent while the clock is unset (R160). -/
def State.today (s : State) : Option Nat := s.house.clock.map (·.1)
/-- The current minute stamp, absent while the clock is unset (R160). -/
def State.now (s : State) : Option Nat :=
  s.house.clock.map fun c => c.1 * Config.minutesPerDay + c.2

/-- A mailbox's NEW count (R40). -/
def Mailbox.newCount (m : Mailbox) : Nat := (m.entries.filter fun e => e.state == .new).length

/-- The object in a greeting slot (R52). -/
def Mailbox.slotObj (m : Mailbox) : GreetSlot → Option Nat
  | .standard => m.standard
  | .busy => m.busy
  | .absence => m.absence
  | .name => m.name

/-- The mailbox with a greeting slot filled or emptied (R52). -/
def Mailbox.withSlot (m : Mailbox) (g : GreetSlot) (o : Option Nat) : Mailbox :=
  match g with
  | .standard => { m with standard := o }
  | .busy => { m with busy := o }
  | .absence => { m with absence := o }
  | .name => { m with name := o }

/-! ### Index marks (R181) -/

/-- Joining an ordered set at the tail; a member stays where it is. -/
def joinSet {α : Type} [DecidableEq α] (l : List α) (x : α) : List α :=
  if x ∈ l then l else l ++ [x]

/-- The object page of object `n` (R21). -/
def objectPage (n : Nat) : Nat := (n - 1) / Config.perPage

/-- The store marks the page of object `n` (R21). -/
def State.markObject (s : State) (n : Nat) : State :=
  s.onWriter fun w => { w with dirtyObjects := joinSet w.dirtyObjects (objectPage n) }
/-- The Directory marks the page of mailbox `k` (R49). -/
def State.markMailbox (s : State) (k : Nat) : State :=
  s.onWriter fun w => { w with dirtyOthers := joinSet w.dirtyOthers (.mailbox k) }
/-- The Delivery Engine marks the page of a queue position (R138). -/
def State.markQueue (s : State) (pos : Nat) : State :=
  s.onWriter fun w => { w with dirtyOthers := joinSet w.dirtyOthers (.queue (pos / Config.perPage)) }

end Sys2Proof.Machine
end

