-- ==== Sys2Proof/Machine/Flags.lean ====
section
/-! DEFINITION. What the Status Unit shows: the counts, the latched alarm set, the store-low
condition and the four status lines (R22, R187-R189). -/

namespace Sys2Proof.Machine

/-! ### Counts -/

/-- A channel is busy in every state other than IDLE (R66). -/
def Channel.busy (c : Channel) : Bool := c.state != .idle
/-- The active-channel count (R66). -/
def State.busyCount (s : State) : Nat := (s.chans.filter Channel.busy).length
/-- The present-node count (R128). -/
def State.presentCount (s : State) : Nat := (s.link.presence.filter fun p => p.present).length
/-- The dirty page count (R181). -/
def State.dirtyCount (s : State) : Nat :=
  s.writer.dirtyObjects.length + s.writer.dirtyOthers.length
/-- The fault count (R110). -/
def LampUnit.faultCount (l : LampUnit) : Nat :=
  (l.recs.filter fun r => r.reported == .fault).length
/-- F - E, taken as 0 if negative (R9, R188). -/
def State.freeRoom (s : State) : Nat := s.store.free.length - s.store.earmark

/-! ### Alarms -/

/-- The number of an alarm kind (R187). -/
def Alarm.number : Alarm → Nat
  | .storeLow => 1
  | .linkAlone => 2
  | .linkFault => 3
  | .duplicateNode => 4
  | .duplicateHome => 5
  | .lampFaults => 6
  | .coldStart => 7
  | .indexDamaged => 8
  | .configClamped => 9
  | .objectsFull => 10
  | .queueFull => 11
  | .housekeepingForced => 12

/-- The twelve kinds by ascending number (R187). -/
def Alarm.all : List Alarm :=
  [.storeLow, .linkAlone, .linkFault, .duplicateNode, .duplicateHome, .lampFaults, .coldStart,
    .indexDamaged, .configClamped, .objectsFull, .queueFull, .housekeepingForced]

/-- A kind joins the set, which is kept by ascending number. -/
def joinAlarm (a : Alarm) : List Alarm → List Alarm
  | [] => [a]
  | b :: rest => if a.number < b.number then a :: b :: rest else b :: joinAlarm a rest

/-- Latching a kind: if it is not in the set it joins, and an ALARM record leaves (R187). -/
def State.latch (s : State) (a : Alarm) : State :=
  if a ∈ s.alarms then s else (s.setAlarms (joinAlarm a s.alarms)).send (.alarm a)

/-- The lowest-numbered kind in the set (R188). -/
def lowestAlarm (l : List Alarm) : Option Alarm := Alarm.all.find? fun a => decide (a ∈ l)

/-! ### The store-low condition (R22) -/

/-- The configured percentage of P, rounded down. -/
def State.lowThreshold (s : State) : Nat := s.cfg.pool * s.cfg.lowPercent / 100

/-- F - E is below the threshold, once the store has been set up (log 10). -/
def State.storeLow (s : State) : Bool :=
  s.store.ready && decide (s.store.free.length < s.lowThreshold + s.store.earmark)

/-- One evaluation of the condition (R22). -/
def State.evalLow (s : State) : State := if s.storeLow then s.latch .storeLow else s

/-! ### Status lines (R189) -/

/-- A line with this source is active. -/
def State.sourceActive (s : State) : LineSource → Bool
  | .none => false
  | .anyAlarm => !s.alarms.isEmpty
  | .storeLow => s.storeLow
  | .linkAlone => s.link.alone
  | .channelsFull => s.busyCount == Config.channels
  | .housekeeping => s.house.sched == .running
  | .indexBusy => decide (0 < s.dirtyCount)
  | .draining => s.mode == .draining

/-- The levels of the four lines: inactive until the configuration has been handed out, and then
each as its source says. -/
def State.lineLevels (s : State) : List Bool :=
  (List.range 4).map fun i =>
    s.configured && s.sourceActive ((s.cfg.lineSources[i]?).getD .none)

/-- The lines change in the same act as the states they follow. -/
def State.updateLines (s : State) : State := s.setLines s.lineLevels

/-! ### STATUS_REPLY (R188) -/

/-- The reply as the state stands: free room 0 until the store has been set up. -/
def State.statusReply (s : State) : StatusReply :=
  { mode := s.mode
    link := s.link.state
    freeRoom := if s.store.ready then s.freeRoom else 0
    active := s.busyCount
    present := s.presentCount
    discarded := s.discarded
    causes := s.house.lastCauses
    alarm := lowestAlarm s.alarms }

end Sys2Proof.Machine
end

