-- ==== Sys2Proof/Machine/Store.lean ====
section
/-! DEFINITION. The Audio Store: admission, earmarks, appending, closing, discarding, references and
freeing (01 The Audio Store). -/

namespace Sys2Proof.Machine

/-! ### Admission (1.4) -/

/-- What an admission answers. -/
inductive Admission where
  /-- object number and granted blocks -/
  | granted (obj blocks : Nat)
  /-- the quota, the allowance or the minimum room refuses it -/
  | full
  /-- the pool, the guard or the broadcast budget refuses it -/
  | noRoom
  /-- no object entry is free; OBJECTS_FULL has been latched (R5) -/
  | noEntry
  deriving DecidableEq, Repr

/-- The quota room Q(M), taken as 0 if negative (R8). -/
def State.quotaRoom (s : State) (k : Nat) : Nat :=
  (s.cls k).quota - (s.mb k).charged - (s.mb k).pending

/-- F - E - G, taken as 0 if negative (R8, R14, R15). -/
def State.guardedRoom (s : State) : Nat := s.freeRoom - s.cfg.guard

/-- A new OPEN object with its earmark (R4). -/
def Obj.opened (use : Use) (owner : Option Nat) (n : Nat) : Obj :=
  { complete := false, use := use, chain := [], segments := 0, refs := 0, owner := owner,
    earmark := n, silentTail := 0 }

/-- The last act of an admission: the object-entry check of R5, then the creation of the object in
the lowest-numbered free entry (R4) with its earmark of `n` blocks (R6, R7), and the evaluation of
R22. -/
def State.openObj (s : State) (use : Use) (owner : Option Nat) (n : Nat) : Admission × State :=
  let num := lowestFree 1 s.store.objects
  if num > Config.maxObjects then (.noEntry, s.latch .objectsFull)
  else
    (.granted num n,
      (s.onStore fun st => { st with
        objects := tblSet num (Obj.opened use owner n) st.objects
        earmark := st.earmark + n
        sharedUse := if use = .shared then st.sharedUse + n else st.sharedUse }).evalLow)

/-- Raising pending(M) by a grant (R9, R14). -/
def State.addPending (s : State) (k n : Nat) : State :=
  s.onMb k fun m => { m with pending := m.pending + n }

/-- Raising pending(M) after an admission that granted blocks. -/
def raisePending (k : Nat) : Admission × State → Admission × State
  | (.granted o n, s) => (.granted o n, s.addPending k n)
  | r => r

/-- The permitted blocks of a local deposit for mailbox `k` (R9, steps 1-4). -/
def State.depositBlocks (s : State) (k : Nat) : Nat :=
  min (blocksOf ((s.cls k).maxSeconds * 16)) (min (s.quotaRoom k) s.freeRoom)

/-- A local deposit for mailbox `k` (R9). -/
def State.admitDeposit (s : State) (k : Nat) : Admission × State :=
  let b := s.depositBlocks k
  if min ((s.cls k).maxSeconds * 16) (8 * b) < (s.cls k).minRoom * 16 then (.full, s)
  else raisePending k (s.openObj .message (some k) b)

/-- A recording for sending, in a session serving mailbox `k` (R10). -/
def State.admitSend (s : State) (k : Nat) : Admission × State :=
  let b := min (blocksOf ((s.cls k).maxSeconds * 16)) s.freeRoom
  if 8 * b < (s.cls k).minRoom * 16 then (.noRoom, s)
  else s.openObj .message (some k) b

/-- The chain length of an object, 0 when there is none. -/
def State.chainLen (s : State) (o : Option Nat) : Nat :=
  match o.bind s.obj? with
  | none => 0
  | some x => x.chain.length

/-- The blocks in the greeting slots of mailbox `k` other than `g` (R11). -/
def State.otherSlots (s : State) (k : Nat) (g : GreetSlot) : Nat :=
  (([GreetSlot.standard, .busy, .absence, .name].filter (· != g)).map
    fun h => s.chainLen ((s.mb k).slotObj h)).sum

/-- A recording for greeting slot `g` of mailbox `k` (R11). -/
def State.admitGreeting (s : State) (k : Nat) (g : GreetSlot) : Admission × State :=
  let b := min Config.maxGreetingBlocks
    (min ((s.cls k).allowance - s.otherSlots k g) s.freeRoom)
  if b < 4 then (.full, s)
  else s.openObj (if g = .name then .name else .greeting) (some k) b

/-- An inbound DIRECT transfer of `segs` segments for mailbox `k` (R14). -/
def State.admitDirect (s : State) (k segs : Nat) : Admission × State :=
  let n := blocksOf segs
  if n > s.quotaRoom k then (.full, s)
  else if n > s.guardedRoom then (.noRoom, s)
  else raisePending k (s.openObj .message (some k) n)

/-- An inbound LIST transfer of `segs` segments (R15). -/
def State.admitList (s : State) (segs : Nat) : Admission × State :=
  let n := blocksOf segs
  if n > s.guardedRoom || s.store.sharedUse + n > s.cfg.budget then (.noRoom, s)
  else s.openObj .shared none n

/-! ### References and freeing (1.6) -/

/-- Freeing object `n`: its chain joins the free-list tail, U_b falls for a SHARED object, the entry
is cleared and its page marked (R20, R21); F changes, so R22 is evaluated. -/
def State.freeObj (s : State) (n : Nat) : State :=
  match s.obj? n with
  | none => s
  | some o =>
    ((s.onStore fun st => { st with
      free := st.free ++ o.chain
      objects := tblDel n st.objects
      sharedUse := if o.use = .shared then st.sharedUse - o.chain.length else st.sharedUse }).markObject
        n).evalLow

/-- An add of a reference to object `n`: refused at 65,535, and for an object that is not a COMPLETE
one (R20). -/
def State.addRef (s : State) (n : Nat) : Option State :=
  match s.obj? n with
  | none => none
  | some o =>
    if o.complete && decide (o.refs < Config.maxRefs) then
      some ((s.onObj n fun o => { o with refs := o.refs + 1 }).markObject n)
    else none

/-- A drop of a reference to object `n`; at 0 a COMPLETE object is freed in the same act (R20). -/
def State.dropRef (s : State) (n : Nat) : State :=
  match s.obj? n with
  | none => s
  | some o =>
    let s' := (s.onObj n fun o => { o with refs := o.refs - 1 }).markObject n
    if o.complete && decide (o.refs ≤ 1) then s'.freeObj n else s'

/-- A drop of the reference to an object that may be absent. -/
def State.dropRefOpt (s : State) : Option Nat → State
  | none => s
  | some n => s.dropRef n

/-! ### Writing (1.5) -/

/-- A segment is silent when the average absolute value of its 500 samples is below the threshold
(R17). -/
def State.silent (s : State) (seg : Segment) : Bool :=
  decide (seg.magnitude < Config.samplesPerSegment * s.cfg.silence)

/-- The object with one more segment judged silent or not (R16, R17). -/
def Obj.counted (o : Obj) (silent : Bool) : Obj :=
  { o with segments := o.segments + 1, silentTail := if silent then o.silentTail + 1 else 0 }

/-- The writer appends a segment to OPEN object `n`: none when the append is refused, which is when
a new block is needed and the earmark is spent (R16). -/
def State.append (s : State) (n : Nat) (seg : Segment) : Option State :=
  match s.obj? n with
  | none => none
  | some o =>
    if o.segments % 8 = 0 then
      match s.store.free with
      | [] => none
      | b :: rest =>
        if o.earmark = 0 then none
        else
          let s1 := s.onStore fun st => { st with
            free := rest
            earmark := st.earmark - 1
            objects := tblSet n
              (({ o with chain := o.chain ++ [b], earmark := o.earmark - 1 } : Obj).counted
                (s.silent seg)) st.objects }
          some ((s1.onAudio fun m => audioWrite m (audioAddr b 0) seg).evalLow)
    else
      match o.chain.getLast? with
      | none => none
      | some b =>
        some ((s.onObj n fun o => o.counted (s.silent seg)).onAudio fun m =>
          audioWrite m (audioAddr b (o.segments % 8)) seg)

/-- The silent tail of object `n` (R17). -/
def State.silentTail (s : State) (n : Nat) : Nat :=
  match s.obj? n with
  | none => 0
  | some o => o.silentTail

/-- The writer discards OPEN object `n` (R19): the chain joins the free-list tail, the remaining
earmark leaves E, and the entry is freed (its page is marked as for any freeing, log 13). -/
def State.discardObj (s : State) (n : Nat) : State :=
  match s.obj? n with
  | none => s
  | some o =>
    ((s.onStore fun st => { st with
      free := st.free ++ o.chain
      objects := tblDel n st.objects
      earmark := st.earmark - o.earmark
      sharedUse :=
        if o.use = .shared then st.sharedUse - (o.chain.length + o.earmark)
        else st.sharedUse }).markObject n).evalLow

/-- OPEN object `o` after steps 1 and 3-5 of a close (R18). -/
def Obj.closed (o : Obj) (trim holders : Nat) : Obj :=
  { o with
    complete := true
    segments := o.segments - trim
    chain := o.chain.take (blocksOf (o.segments - trim))
    refs := holders
    earmark := 0
    silentTail := 0 }

/-- The writer closes OPEN object `n` with a trim and a number of first holders (R18): false when it
was too short and has been discarded. -/
def State.closeObj (s : State) (n trim holders : Nat) : Bool × State :=
  match s.obj? n with
  | none => (false, s)
  | some o =>
    if o.segments - trim < Config.minSegments then (false, s.discardObj n)
    else
      let removed := o.chain.drop (blocksOf (o.segments - trim))
      let s1 := ((s.onStore fun st => { st with
        free := st.free ++ removed
        objects := tblSet n (o.closed trim holders) st.objects
        earmark := st.earmark - o.earmark
        sharedUse :=
          if o.use = .shared then st.sharedUse - (removed.length + o.earmark)
          else st.sharedUse }).markObject n).evalLow
      (true, if holders = 0 then s1.freeObj n else s1)

/-- The conversion of object `n` to a broadcast copy (R13): none when it is refused. -/
def State.convert (s : State) (n : Nat) : Option State :=
  match s.obj? n with
  | none => none
  | some o =>
    if o.complete && o.use == .message && o.refs == 1
        && decide (s.store.sharedUse + o.chain.length ≤ s.cfg.budget) then
      some ((s.onStore fun st => { st with
        objects := tblSet n { o with use := .shared, owner := none } st.objects
        sharedUse := st.sharedUse + o.chain.length }).markObject n)
    else none

/-- Segment `i` of an object, read from its chain (R147, R183). -/
def State.segmentOf (s : State) (o : Obj) (i : Nat) : Segment :=
  audioRead s.audio (audioAddr ((o.chain[i / 8]?).getD 0) (i % 8))

/-- The segments of an object in chain order, as many as it counts (R183). -/
def State.objectAudio (s : State) (n : Nat) : List Segment :=
  match s.obj? n with
  | none => []
  | some o => (List.range o.segments).map (s.segmentOf o)

end Sys2Proof.Machine
end

