-- ==== Sys2Proof/Machine/Lamps.lean ====
section
/-! DEFINITION. The Lamp Unit: desired and reported states, the lamp queue, dispatch, results and
the refresh scan (06 Message Lamps). -/

namespace Sys2Proof.Machine

/-- The Lamp Unit's record of mailbox `k`. -/
def State.lampRec (s : State) (k : Nat) : LampRec :=
  (s.lamp.recs[k]?).getD ⟨false, .unknown, false⟩
/-- Changing the Lamp Unit's record of mailbox `k`. -/
def State.onLampRec (s : State) (k : Nat) (f : LampRec → LampRec) : State :=
  s.onLamp fun l => { l with recs := l.recs.modify k f }

/-- The desired state the contents of mailbox `k` call for (R103); an unusable record has OFF. -/
def State.desiredOf (s : State) (k : Nat) : Bool :=
  (s.mbCfg k).usable && (s.cls k).lampEnabled && decide (1 ≤ (s.mb k).newCount)

/-- The node's mode allows the Lamp Unit to send and the scan to run (R116). -/
def State.lampsRun (s : State) : Bool := s.mode == .serving || s.mode == .draining

/-! ### Dispatch (R107) -/

/-- The extension has an outstanding command. -/
def LampUnit.isOut (l : LampUnit) (ext : Nat) : Bool := l.outstanding.any fun p => p.1.ext == ext

/-- One command of a dispatch: the first in queue order whose extension has no outstanding command
leaves the queue, its LAMP record is sent and its result timer runs. -/
def State.lampDispatch1 (s : State) : State :=
  if s.lampsRun && decide (s.lamp.outstanding.length < Config.lampOutstandingMax) then
    match s.lamp.queue.find? fun c => !s.lamp.isOut c.ext with
    | none => s
    | some c =>
      (s.onLamp fun l => { l with
        queue := l.queue.erase c
        outstanding := l.outstanding ++ [(c, some Config.lampResultTime)] }).send (.lamp c.ext c.on)
  else s

/-- A dispatch: repeated until 4 commands are outstanding or none is eligible. -/
def State.lampDispatch (s : State) : State :=
  s.lampDispatch1.lampDispatch1.lampDispatch1.lampDispatch1

/-! ### The refresh scan (6.6) -/

/-- Mailbox `k` lies in the scan range (R111). -/
def State.inScanRange (s : State) (k : Nat) : Bool :=
  decide (s.cfg.scanStart ≤ k) && decide (k ≤ s.cfg.scanEnd)

/-- A pass begins at the scan start with the step timer started (R113, R114). -/
def State.beginScan (s : State) : State :=
  s.onLamp fun l => { l with
    scanPos := s.cfg.scanStart, scanRunning := true, scanTimer := some Config.scanStepTime }

/-- The scan flag of mailbox `k` is set; in NORMAL mode this begins a pass when the mailbox lies in
the range and no pass is running (R106, R113). -/
def State.setScanFlag (s : State) (k : Nat) : State :=
  let s1 := s.onLampRec k fun r => { r with flag := true }
  if s.lampsRun && !s.cfg.scanContinuous && s.inScanRange k && !s.lamp.scanRunning then s1.beginScan
  else s1

/-! ### The lamp queue (R106) -/

/-- A command for the extension is queued. -/
def LampUnit.isQueued (l : LampUnit) (ext : Nat) : Bool := l.queue.any fun c => c.ext == ext

/-- Cases 1 and 2 of R106: the command takes the place of the queued one for its extension, or joins
the tail; the mailbox's flag is cleared and a dispatch follows. None is case 3. -/
def State.queueLamp (s : State) (c : LampCmd) : Option State :=
  if s.lamp.isQueued c.ext then
    some ((s.onLamp fun l => { l with
      queue := l.queue.map fun q => if q.ext = c.ext then { q with on := c.on, attempt := 1 } else q
      }).onLampRec c.mailbox fun r => { r with flag := false }).lampDispatch
  else if s.lamp.queue.length < Config.lampQueueMax then
    some ((s.onLamp fun l => { l with queue := l.queue ++ [c] }).onLampRec c.mailbox
      fun r => { r with flag := false }).lampDispatch
  else none

/-- A change-driven command or a re-queue is offered; in case 3 the mailbox's scan flag is set. -/
def State.offerLamp (s : State) (c : LampCmd) : State :=
  match s.queueLamp c with
  | some s' => s'
  | none => s.setScanFlag c.mailbox

/-! ### Tellings (R104) -/

/-- The Directory tells the Lamp Unit the NEW count of mailbox `k`. -/
def State.tellLamp (s : State) (k : Nat) : State :=
  if (s.mb k).lock.isSome then s
  else if s.desiredOf k = (s.lampRec k).desired then s
  else
    (s.onLampRec k fun r => { r with desired := s.desiredOf k }).offerLamp
      ⟨(s.mbCfg k).extension, k, s.desiredOf k, 1⟩

/-! ### Results, faults and timeouts (6.4, 6.5) -/

/-- A reported state: LAMP_FAULTS is latched when the fault count passes from 0 to 1 (R110). -/
def State.setReported (s : State) (k : Nat) (r : Reported) : State :=
  let s1 := s.onLampRec k fun x => { x with reported := r }
  if s.lamp.faultCount = 0 && s1.lamp.faultCount = 1 then s1.latch .lampFaults else s1

/-- The outstanding command for an extension. -/
def LampUnit.outFor (l : LampUnit) (ext : Nat) : Option LampCmd :=
  (l.outstanding.find? fun p => p.1.ext == ext).map (·.1)

/-- The outstanding command for an extension finishes. -/
def State.finishLamp (s : State) (ext : Nat) : State :=
  s.onLamp fun l => { l with outstanding := l.outstanding.filter fun p => p.1.ext != ext }

/-- The state an OK confirms. -/
def LampCmd.reported (c : LampCmd) : Reported := if c.on then .on else .off

/-- A LAMP_RESULT for an outstanding command (R108). -/
def State.lampResult (s : State) (ext : Nat) (r : LampResult) : State :=
  match s.lamp.outFor ext with
  | none => s
  | some c =>
    ((s.finishLamp ext).setReported c.mailbox
      (match r with
        | .ok => c.reported
        | .noLamp => .fault
        | .lineDown => .fault)).lampDispatch

/-- The result timer of an outstanding command expires (R109). -/
def State.lampTimeout (s : State) (ext : Nat) : State :=
  match s.lamp.outFor ext with
  | none => s
  | some c =>
    let s1 := s.finishLamp ext
    (if c.attempt = 1 then
      (if s1.lamp.isQueued ext then s1 else s1.offerLamp { c with attempt := 2 })
    else s1.setReported c.mailbox .unknown).lampDispatch

/-! ### A scan step (R112) -/

/-- The scan advances from its position (R112-R114). -/
def State.scanAdvance (s : State) : State :=
  if s.lamp.scanPos < s.cfg.scanEnd then
    s.onLamp fun l => { l with scanPos := l.scanPos + 1, scanTimer := some Config.scanStepTime }
  else if s.cfg.scanContinuous
      || (List.range s.lamp.recs.length).any fun k => s.inScanRange k && (s.lampRec k).flag then
    s.beginScan
  else s.onLamp fun l => { l with scanRunning := false, scanTimer := none }

/-- Mailbox `k` wants a command (R112, step 3). -/
def State.wantsLamp (s : State) (k : Nat) : Bool :=
  (s.lampRec k).reported != (if (s.lampRec k).desired then Reported.on else .off)
    || (s.lampRec k).flag || s.cfg.refreshAll

/-- The scan examines the mailbox at its position (R112). -/
def State.scanStep (s : State) : State :=
  let k := s.lamp.scanPos
  if !(s.mbCfg k).usable then s.scanAdvance
  else if !s.wantsLamp k then s.scanAdvance
  else match s.queueLamp ⟨(s.mbCfg k).extension, k, (s.lampRec k).desired, 1⟩ with
    | some s' => s'.scanAdvance
    | none => s.onLamp fun l => { l with scanTimer := some Config.scanStepTime }

/-! ### LINE_RESET and starts (R115-R117) -/

/-- The Lamp Unit's act at a LINE_RESET (R115). -/
def State.lampLineReset (s : State) : State :=
  let s1 := s.onLamp fun l => { l with
    recs := l.recs.map fun r => { r with reported := .unknown }, outstanding := [] }
  if s.lampsRun then s1.beginScan.lampDispatch else s1

/-- The Lamp Unit set up from the NEW counts (R117, R103). -/
def State.lampSetup (s : State) : State :=
  s.onLamp fun _ =>
    { recs := (List.range s.mailboxes.length).map fun k => ⟨s.desiredOf k, .unknown, false⟩
      queue := [], outstanding := [], scanPos := s.cfg.scanStart, scanRunning := false
      scanTimer := none }

end Sys2Proof.Machine
end

