-- ==== Sys2Proof/Machine/Directory.lean ====
section
/-! DEFINITION. The Mailbox Directory: lookup, reservations, commits, forwards, broadcasts, entry
states, erasure, removal and notices (02 Mailboxes and Message Lists; greeting choice of 03). -/

namespace Sys2Proof.Machine

/-! ### Lookup (R27) -/

/-- The result of a lookup. -/
inductive Lookup where
  | homed (k : Nat)
  | disabled (k : Nat)
  | inRange
  | foreign
  deriving DecidableEq, Repr

/-- The index of the usable record that carries an extension. -/
def State.recordOf (s : State) (ext : Nat) : Option Nat :=
  s.cfg.mailboxes.findIdx? fun m => m.usable && m.extension == ext

/-- The extension lies in a configured range. -/
def State.inRanges (s : State) (ext : Nat) : Bool :=
  s.cfg.ranges.any fun r => decide (r.1 ≤ ext) && decide (ext ≤ r.2)

/-- The lookup of an extension (R27). An unusable record carries no extension, so an offer, a forward, a send
and a reply for its extension meet IN_RANGE or FOREIGN, as R27, R94 and R150 decide by the lookup; R48 has an
unusable record act as a disabled one in those rows, and the manual does not settle which of the two holds. The
model follows the lookup (log 55). -/
def State.find (s : State) (ext : Nat) : Lookup :=
  match s.recordOf ext with
  | some k => if (s.mbCfg k).enabled then .homed k else .disabled k
  | none => if s.inRanges ext then .inRange else .foreign

/-! ### Room and reservations (2.5, 2.6) -/

/-- The mailbox has room (R31). -/
def State.hasRoom (s : State) (k : Nat) : Bool :=
  decide ((s.mb k).entries.length + (s.mb k).reserved < (s.cls k).maxEntries)

/-- What a request to reserve a slot answers (R33). -/
inductive Reserve where
  | disabled
  | full
  | granted
  deriving DecidableEq, Repr

/-- A request to reserve a slot (R33). -/
def State.reserve (s : State) (k : Nat) : Reserve × State :=
  if !s.inService k then (.disabled, s)
  else if !s.hasRoom k then (.full, s)
  else (.granted, s.onMb k fun m => { m with reserved := m.reserved + 1 })

/-- A return of a reservation with a grant (R34). -/
def State.returnRes (s : State) (k grant : Nat) : State :=
  s.onMb k fun m => { m with reserved := m.reserved - 1, pending := m.pending - grant }

/-- Giving a grant back while keeping the reservation (R34). -/
def State.returnGrant (s : State) (k grant : Nat) : State :=
  s.onMb k fun m => { m with pending := m.pending - grant }

/-! ### Commit (2.7) -/

/-- The number after a message number (R32). -/
def nextNum (n : Nat) : Nat := if n ≥ Config.maxNumber then 1 else n + 1

/-- The first number from `n` on that no entry holds, searching `fuel` numbers (R32). -/
def freeNumber (used : List Nat) : Nat → Nat → Nat
  | 0, n => n
  | fuel + 1, n => if n ∈ used then freeNumber used fuel (nextNum n) else n

/-- The number a commit to mailbox `m` gives: a list of n entries needs at most n + 1 numbers
(R32). -/
def Mailbox.commitNumber (m : Mailbox) : Nat :=
  freeNumber (m.entries.map (·.number)) m.entries.length m.nextNumber

/-- The broadcast expiry day of a SHARED entry that arrives at a stamp (R30). -/
def State.expiryOf (s : State) (k : Nat) (arrival : Option Nat) : Option Nat :=
  arrival.map fun m => m / Config.minutesPerDay + (s.cls k).broadcastLife

/-- The entry a commit appends: NEW, numbered, stamped by the clock (R35, R36). -/
def State.stampedEntry (s : State) (k : Nat) (e : Entry) : Entry :=
  { e with
    number := (s.mb k).commitNumber
    state := .new
    arrival := s.now
    changeDay := s.today
    expiry := if e.kind = .shared then s.expiryOf k s.now else none }

/-- A commit of an entry to mailbox `k` (R35): `reserved` says whether it consumes a reservation, and
`grant` is the grant its source holds. The references are the requester's part. A disabled mailbox
refuses it. -/
def State.commit (s : State) (k : Nat) (e : Entry) (reserved : Bool) (grant : Nat) : State :=
  if !s.inService k then s
  else
    let blocks := if e.kind = .voice then s.chainLen e.object else 0
    ((s.onMb k fun m => { m with
      entries := m.entries ++ [s.stampedEntry k e]
      nextNumber := nextNum m.commitNumber
      reserved := if reserved then m.reserved - 1 else m.reserved
      pending := m.pending - grant
      charged := m.charged + blocks }).markMailbox k).tellLamp k

/-- An entry of this node or another with an object (R36); the commit numbers and stamps it. -/
def Entry.ofObject (kind : EntryKind) (urgent : Bool) (origin : Option Nat)
    (identity : Option (List Nat)) (obj node : Nat) : Entry :=
  { number := 0, kind := kind, state := .new, urgent := urgent, origin := origin,
    identity := identity, arrival := none, changeDay := none, object := some obj, expiry := none,
    originNode := node, reason := none, target := none, subject := none, unreached := none }

/-- A NOTICE (R36, R47). -/
def Entry.ofNotice (node : Nat) (r : Reason) (target : Nat) (subject unreached : Option Nat) :
    Entry :=
  { number := 0, kind := .notice, state := .new, urgent := false, origin := none, identity := none,
    arrival := none, changeDay := none, object := none, expiry := none, originNode := node,
    reason := some r, target := some target, subject := subject, unreached := unreached }

/-- The extension of mailbox `k` as the origin of what its owner sends (R36). -/
def State.originOf (s : State) (k : Nat) : Option Nat := some (s.mbCfg k).extension

/-! ### Local forward (R12, R37) -/

/-- What a local forward answers. -/
inductive Forward where
  | done
  | disabled
  | full
  deriving DecidableEq, Repr

/-- A local forward of COMPLETE object `o` to mailbox `t` from mailbox `k` (R37); an add that the
store refuses is a refusal as FULL (R20, R94). -/
def State.forward (s : State) (o t k : Nat) (urgent : Bool) : Forward × State :=
  if !s.inService t then (.disabled, s)
  else if !s.hasRoom t then (.full, s)
  else if s.chainLen (some o) > s.quotaRoom t then (.full, s)
  else match s.addRef o with
    | none => (.full, s)
    | some s1 =>
      (.done,
        s1.commit t (Entry.ofObject .voice urgent (s.originOf k) none o s.cfg.node) false 0)

/-! ### Broadcast (R38) -/

/-- Mailbox `k` is a member of list `l`, usable and enabled (R38, R151). -/
def State.member (s : State) (l k : Nat) : Bool :=
  s.inService k && (s.mbCfg k).lists.getLsbD l

/-- The members of list `l` that have room, in index order (R38). -/
def State.membersWithRoom (s : State) (l : Nat) : List Nat :=
  (List.range s.cfg.mailboxes.length).filter fun k => s.member l k && s.hasRoom k

/-- Serving one member of a local broadcast: a reference and a SHARED entry, or nothing when the add
is refused (R38). -/
def State.serveMember (e : Entry) (o : Nat) (acc : Nat × State) (k : Nat) : Nat × State :=
  match acc.2.addRef o with
  | none => acc
  | some s1 => (acc.1 + 1, s1.commit k e false 0)

/-- A local broadcast of object `o` to list `l` by mailbox `k` (R38): the number served. -/
def State.broadcast (s : State) (o l k : Nat) (urgent : Bool) : Nat × State :=
  (s.membersWithRoom l).foldl
    (State.serveMember (Entry.ofObject .shared urgent (s.originOf k) none o s.cfg.node) o) (0, s)

/-! ### Removal (R45) -/

/-- The entry of a list with a number. -/
def Mailbox.entry? (m : Mailbox) (num : Nat) : Option Entry := m.entries.find? (·.number == num)

/-- A removal but for its telling: charged, the list, the reference and the page mark (R45, steps
1-3 and 5). -/
def State.removeQuiet (s : State) (k num : Nat) : State :=
  match (s.mb k).entry? num with
  | none => s
  | some e =>
    let blocks := if e.kind = .voice then s.chainLen e.object else 0
    (((s.onMb k fun m => { m with
      charged := m.charged - blocks
      entries := m.entries.erase e }).dropRefOpt e.object).markMailbox k)

/-- The Lamp Unit is told when the NEW count differs from the count before the act (R40). -/
def State.tellIfChanged (s : State) (k before : Nat) : State :=
  if (s.mb k).newCount = before then s else s.tellLamp k

/-- A removal of entry `num` of mailbox `k` (R45). -/
def State.removeEntry (s : State) (k num : Nat) : State :=
  (s.removeQuiet k num).tellIfChanged k (s.mb k).newCount

/-! ### States and erasure (2.9, 2.10) -/

/-- Changing entry `num` of mailbox `k`. -/
def State.onEntry (s : State) (k num : Nat) (f : Entry → Entry) : State :=
  s.onMb k fun m => { m with entries := m.entries.map fun e => if e.number = num then f e else e }

/-- An entry takes a state, dated today; its page is marked and a changed NEW count told (R42,
R43). -/
def State.setEntryState (s : State) (k num : Nat) (st : EntryState) : State :=
  (((s.onEntry k num fun e => { e with state := st, changeDay := s.today }).markMailbox
    k)).tellIfChanged k (s.mb k).newCount

/-- The end of an entry's playback by its end or a key (R42), once the request is taken (`askHeard`). -/
def State.reportHeard (s : State) (k num : Nat) : State :=
  match (s.mb k).entry? num with
  | none => s
  | some e => if e.state = .new then s.setEntryState k num .heard else s

/-- A save request (R43), once it is taken (`askSave`). -/
def State.saveEntry (s : State) (k num : Nat) : State :=
  match (s.mb k).entry? num with
  | none => s
  | some e => if e.state = .saved then s else s.setEntryState k num .saved

/-- An erase request (R44), once it is taken (`askErase`). -/
def State.eraseMark (s : State) (k num : Nat) : State :=
  match (s.mb k).entry? num with
  | none => s
  | some _ => s.onMb k fun m => { m with erasePending := joinSet m.erasePending num }

/-! ### The retrieval lock (R41, R46) -/

/-- What a request for a retrieval lock answers (R41). -/
inductive LockAnswer where
  | disabled
  | inUse
  | granted
  deriving DecidableEq, Repr

/-- Channel `i` asks for the lock of mailbox `k` (R41): a disabled mailbox refuses it as DISABLED, a lock
that is held and a channel that holds a lock already refuse it as IN_USE, and a grant empties the
erase-pending set. -/
def State.askLock (s : State) (k i : Nat) : LockAnswer × State :=
  if !s.inService k then (.disabled, s)
  else if (s.mb k).lock.isSome then (.inUse, s)
  else if s.mailboxes.any fun m => m.lock == some i then (.inUse, s)
  else (.granted, s.onMb k fun m => { m with lock := some i, erasePending := [] })

/-- What a request concerning an entry answers (R41). -/
inductive EntryAnswer where
  /-- the channel does not hold the lock of the mailbox named -/
  | refused
  | noSuchEntry
  | taken
  deriving DecidableEq, Repr

/-- Channel `i` makes a request `f` concerning entry `num` of mailbox `k` (R41): taken only from the channel
that holds the mailbox's lock, and for a number in the list; otherwise nothing changes. -/
def State.entryRequest (s : State) (k i num : Nat) (f : State → State) : EntryAnswer × State :=
  if (s.mb k).lock = some i then
    match (s.mb k).entry? num with
    | none => (.noSuchEntry, s)
    | some _ => (.taken, f s)
  else (.refused, s)

/-- Channel `i` reports the end of an entry's playback by its end or a key (R41, R42). -/
def State.askHeard (s : State) (k i num : Nat) : EntryAnswer × State :=
  s.entryRequest k i num fun t => t.reportHeard k num

/-- Channel `i` asks for an entry to be saved (R41, R43). -/
def State.askSave (s : State) (k i num : Nat) : EntryAnswer × State :=
  s.entryRequest k i num fun t => t.saveEntry k num

/-- Channel `i` asks for an entry to be marked for erasure (R41, R44). -/
def State.askErase (s : State) (k i num : Nat) : EntryAnswer × State :=
  s.entryRequest k i num fun t => t.eraseMark k num

/-- Session end asked for by channel `i` for mailbox `k` (R46); refused to a channel that does not hold the
lock (R41). -/
def State.sessionEnd (s : State) (k i : Nat) : State :=
  if (s.mb k).lock = some i then
    let marked := ((s.mb k).entries.map (·.number)).filter fun n => n ∈ (s.mb k).erasePending
    let s1 := marked.foldl (fun t n => t.removeEntry k n) s
    (s1.onMb k fun m => { m with erasePending := [], lock := none }).tellLamp k
  else s

/-! ### Notices (R47) -/

/-- The locking channel is told that a notice has gone (R47, R88). -/
def State.tellGone (s : State) (i num : Nat) : State :=
  s.onCh i fun c => { c with
    presented := c.presented.erase num
    currentGone := c.currentGone || c.current == some num }

/-- The oldest NOTICE of a list. -/
def Mailbox.oldestNotice (m : Mailbox) : Option Nat :=
  (m.entries.find? fun e => e.kind == .notice).map (·.number)

/-- Replacing the oldest notice `num` of mailbox `k`, less the commit (R47). -/
def State.dropNotice (s : State) (k num : Nat) : State :=
  let s1 := (s.removeQuiet k num).onMb k fun m => { m with erasePending := m.erasePending.erase num }
  match (s.mb k).lock with
  | none => s1
  | some i => s1.tellGone i num

/-- The commit of a notice that takes the place of another: as a commit, but the NEW count is
compared across the whole act, so it is told only if it differs from the count before (R40,
R47). -/
def State.commitQuiet (s : State) (k : Nat) (e : Entry) : State :=
  (s.onMb k fun m => { m with
    entries := m.entries ++ [s.stampedEntry k e]
    nextNumber := nextNum m.commitNumber }).markMailbox k

/-- A NOTICE for mailbox `k` (R47). -/
def State.addNotice (s : State) (k : Nat) (r : Reason) (target : Nat)
    (subject unreached : Option Nat) : State :=
  let e := Entry.ofNotice s.cfg.node r target subject unreached
  if !s.inService k then s
  else if s.hasRoom k then s.commit k e false 0
  else match (s.mb k).oldestNotice with
    | none => s
    | some num => ((s.dropNotice k num).commitQuiet k e).tellIfChanged k (s.mb k).newCount

/-! ### Greeting slots (R53, R59, R60, R64) -/

/-- What R53 chooses: the object to play, if any, and whether it is the ABSENCE object. -/
inductive Greeting where
  | recorded (obj : Nat) (absence : Bool)
  /-- the system greeting with the NAME object, if there is one (R54) -/
  | system (name : Option Nat)
  deriving DecidableEq, Repr

/-- The ABSENCE greeting is to be chosen (R53, case 1). R53's prose has a greeting whose end day is today still
chosen until the first daily pass of the following day has emptied the slot; its table and R63 stop it once
today is past the end day. The model follows the table and R63, so that between midnight and that pass the
greeting is no longer chosen (log 57). -/
def State.absenceHolds (s : State) (m : Mailbox) : Bool :=
  match m.endDay, s.today with
  | none, _ => true
  | some _, none => true
  | some d, some t => decide (t ≤ d)

/-- The greeting for a call (R53). -/
def State.chooseGreeting (s : State) (k : Nat) (r : CallReason) : Greeting :=
  let m := s.mb k
  match m.absence, s.absenceHolds m with
  | some o, true => .recorded o true
  | _, _ =>
    match (if r = .busy then m.busy else none) with
    | some o => .recorded o false
    | none =>
      match m.standard with
      | some o => .recorded o false
      | none => .system m.name

/-- Emptying slot `g` of mailbox `k` (R60): the reference is dropped, the ABSENCE end day becomes
absent and the page is marked. -/
def State.emptySlot (s : State) (k : Nat) (g : GreetSlot) : State :=
  let o := (s.mb k).slotObj g
  ((s.onMb k fun m =>
    let m1 := m.withSlot g none
    if g = .absence then { m1 with endDay := none } else m1).dropRefOpt o).markMailbox k

/-- An accept of object `n` into slot `g` of mailbox `k` (R59); `endDay` is the pending end day. -/
def State.acceptSlot (s : State) (k : Nat) (g : GreetSlot) (n : Nat) (endDay : Option Nat) :
    State :=
  let old := (s.mb k).slotObj g
  (((s.onMb k fun m =>
    let m1 := m.withSlot g (some n)
    if g = .absence then { m1 with endDay := endDay.or m1.endDay } else m1).markObject n).dropRefOpt
      old).markMailbox k

/-- Writing the ABSENCE end day of mailbox `k`; the page is marked if it changed (R62). -/
def State.setEndDay (s : State) (k : Nat) (d : Option Nat) : State :=
  if (s.mb k).endDay = d then s
  else (s.onMb k fun m => { m with endDay := d }).markMailbox k

/-- Channel `i` makes a request `f` that changes a greeting slot or the end day of mailbox `k` (R52): taken,
with true, from the channel that holds the mailbox's lock; refused to any other, and nothing changes. -/
def State.slotRequest (s : State) (k i : Nat) (f : State → State) : Bool × State :=
  if (s.mb k).lock = some i then (true, f s) else (false, s)

/-- Channel `i` asks for object `n` to be accepted into slot `g` (R52, R59). -/
def State.askAccept (s : State) (k i : Nat) (g : GreetSlot) (n : Nat) (endDay : Option Nat) :
    Bool × State :=
  s.slotRequest k i fun t => t.acceptSlot k g n endDay

/-- Channel `i` asks for slot `g` to be emptied (R52, R60). -/
def State.askEmpty (s : State) (k i : Nat) (g : GreetSlot) : Bool × State :=
  s.slotRequest k i fun t => t.emptySlot k g

/-- Channel `i` asks for the ABSENCE end day to be written (R52, R62). -/
def State.askEndDay (s : State) (k i : Nat) (d : Option Nat) : Bool × State :=
  s.slotRequest k i fun t => t.setEndDay k d

end Sys2Proof.Machine
end

