-- ==== Sys2Proof/Machine/Link.lean ====
section
/-! DEFINITION. The Relay Link Controller's tables: priorities, the send list, presence with the
route and location changes it tells the Delivery Engine to make (07 The Campus Relay Link; R140). -/

namespace Sys2Proof.Machine

/-! ### The send list (R120, R121) -/

/-- An outcome handed to a requester (R120). -/
inductive Tx where
  | sent
  | refused
  | lost
  | congested
  deriving DecidableEq, Repr

/-- The priority of a frame by its kind; `urgent` is its transfer's (R121). -/
def bodyPriority (urgent : Bool) : Body → Nat
  | .take => 1
  | .balk _ => 1
  | .receipt _ => 1
  | .claim _ _ => 2
  | .seek _ _ => 3
  | .close _ => 3
  | .offer _ => 4
  | .carry _ _ => if urgent then 4 else 5
  | .hail _ => 6

/-- The order of requesters among frames handed at the same moment (R120). -/
def requesterRank : Requester → Nat
  | .outSlot i => i
  | .inSlot j => 2 + j
  | .answers => 6
  | .hail => 7

/-- A frame of the requester is in the send list. -/
def State.hasFrame (s : State) (r : Requester) : Bool := s.link.sendList.any fun x => x.req == r

/-- The Controller takes no frame: the link is MUTED or FAULTED, or the node STOPPED or HALTED
(R120). -/
def State.sendingStopped (s : State) : Bool :=
  s.link.state == .muted || s.link.state == .faulted || s.mode == .stopped || s.mode == .halted

/-- The node may transmit: the link is ACTIVE and the node neither STOPPED nor HALTED (R120). -/
def State.maySend (s : State) : Bool :=
  s.link.state == .active && s.mode != .stopped && s.mode != .halted

/-- A requester hands a frame (R120): an outcome at once, or the frame joins the list, eligible, with
both counts 0. -/
def State.hand (s : State) (r : Requester) (f : Frame) (urgent : Bool) : Option Tx × State :=
  if s.hasFrame r then (some .congested, s)
  else if s.sendingStopped then (some .lost, s)
  else
    (none, s.onLink fun l => { l with sendList := l.sendList ++
      [{ req := r, frame := f, priority := bodyPriority urgent f.body, handed := l.moment,
         silence := 0, busy := 0, wait := none }] })

/-- Handing a frame whose outcome is not acted on (R153). -/
def State.handIgnoring (s : State) (r : Requester) (f : Frame) : State := (s.hand r f false).2

/-- Frame `a` is begun before frame `b`: lower priority, then older handing, then requester
(R120). -/
def SendItem.before (a b : SendItem) : Bool :=
  decide (a.priority < b.priority) || (a.priority == b.priority &&
    (decide (a.handed < b.handed) || (a.handed == b.handed && decide (requesterRank a.req < requesterRank b.req))))

/-- The frame the Controller begins: the first of the eligible frames in that order (R120). -/
def nextFrame : List SendItem → Option SendItem
  | [] => none
  | x :: rest =>
    match nextFrame rest with
    | none => if x.wait.isNone then some x else none
    | some y => if x.wait.isNone && !y.before x then some x else some y

/-- The frame of a requester in the list. -/
def LinkCtl.itemOf (l : LinkCtl) (r : Requester) : Option SendItem :=
  l.sendList.find? fun x => x.req == r

/-- Changing the frame of a requester in the list. -/
def State.onItem (s : State) (r : Requester) (f : SendItem → SendItem) : State :=
  s.onLink fun l => { l with sendList := l.sendList.map fun x => if x.req = r then f x else x }

/-- The frame of a requester leaves the list (R120). -/
def State.dropItem (s : State) (r : Requester) : State :=
  s.onLink fun l => { l with sendList := l.sendList.filter fun x => x.req != r }

/-- Nothing is being sent any more. -/
def State.stopDriving (s : State) : State := s.onLink fun l => { l with transmitting := none }

/-! ### Presence and routes (R128-R132, R140) -/

/-- Every route naming a node is purged (R140). -/
def State.purgeRoutes (s : State) (n : Nat) : State :=
  s.onDeliv fun d => { d with routes := d.routes.filter fun r => r.2 != n }

/-- Every waiting DIRECT entry located at a node becomes unlocated (R131, R140). -/
def State.unlocate (s : State) (n : Nat) : State :=
  s.onDeliv fun d => { d with queue := d.queue.map (Option.map fun e =>
    if !e.carried && e.location == some n then { e with location := none } else e) }

/-- A node is shown present (R128). -/
def State.isPresent (s : State) (n : Nat) : Bool := (s.presence n).present

/-- The alone timer stops and its condition ends (R132). -/
def State.stopAlone (s : State) : State :=
  s.onLink fun l => { l with aloneTimer := none, alone := false }

/-- A presence entry is refreshed (R128): its absence falls due 30 s from now; an absent node becomes
present, its routes are purged, and the alone timer stops. -/
def State.refresh (s : State) (n : Nat) : State :=
  let s1 := s.onPresence n fun p => { p with present := true, absence := some Config.absenceTime }
  if s.isPresent n then s1 else (s1.purgeRoutes n).stopAlone

/-- A present entry becomes absent (R131): the generation is kept, routes are purged, located entries
become unlocated, and the alone timer starts when the count falls to 0 in ACTIVE (R132). -/
def State.markAbsent (s : State) (n : Nat) : State :=
  if s.isPresent n then
    let s1 := ((s.onPresence n fun p => { p with present := false, absence := none }).purgeRoutes
      n).unlocate n
    if s1.presentCount = 0 && s1.link.state == .active then
      s1.onLink fun l => { l with aloneTimer := some Config.aloneTime }
    else s1
  else s

/-- A HAIL handed to the Controller (R130). -/
def State.takeHail (s : State) (n g : Nat) : State :=
  if (s.presence n).generation = some g then s
  else (s.onPresence n fun p => { p with generation := some g }).purgeRoutes n

/-- The node the route cache names for an extension. -/
def State.routeOf (s : State) (ext : Nat) : Option Nat :=
  (s.deliv.routes.find? fun r => r.1 == ext).map (·.2)

/-- A route becomes the most recently used: a hit, or a fill that replaces an older entry for the
extension or takes the place of the least recently used one of 256 (R140). -/
def State.useRoute (s : State) (ext n : Nat) : State :=
  s.onDeliv fun d => { d with
    routes := ((ext, n) :: d.routes.filter fun r => r.1 != ext).take Config.routesMax }

/-- The entry for an extension is purged if it names a node (R140, BALK NOT_HOME). -/
def State.purgeRoute (s : State) (ext n : Nat) : State :=
  s.onDeliv fun d => { d with routes := d.routes.filter fun r => !(r.1 == ext && r.2 == n) }

end Sys2Proof.Machine
end

