-- ==== Sys2Proof/Machine/Delivery.lean ====
section
/-! DEFINITION. The Delivery Engine: the outbound queue, dispatch, the outbound and inbound slots,
the answer queue, outcomes and fan-out groups (08 Campus Delivery). -/

namespace Sys2Proof.Machine

/-! ### Frames of this node -/

/-- A frame of this node to a node under a tag. -/
def State.frameTo (s : State) (dest tag : Nat) (b : Body) : Frame := ⟨s.cfg.node, dest, tag, b⟩

/-! ### The answer queue (R142) -/

/-- The head of the answer queue is handed while no earlier answer is in the send list; an outcome
given at once takes it out of the queue. -/
def State.pumpAnswers : Nat → State → State
  | 0, s => s
  | fuel + 1, s =>
    match s.deliv.answers with
    | [] => s
    | f :: rest =>
      if s.hasFrame .answers then s
      else match s.hand .answers f false with
        | (none, s1) => s1
        | (some _, s1) => State.pumpAnswers fuel (s1.onDeliv fun d => { d with answers := rest })

/-- An answer joins the answer queue; when it holds 8 the newest is dropped (R142). -/
def State.answer (s : State) (f : Frame) : State :=
  if s.deliv.answers.length < Config.answersMax then
    State.pumpAnswers (Config.answersMax + 1)
      (s.onDeliv fun d => { d with answers := d.answers ++ [f] })
  else s

/-- The outcome of an answer is handed back: it leaves the answer queue (R142). -/
def State.answerDone (s : State) : State :=
  State.pumpAnswers (Config.answersMax + 1)
    (s.onDeliv fun d => { d with answers := d.answers.tail })

/-! ### Fan-out groups (R157) -/

/-- A LIST entry of group `g` finishes. -/
def State.groupFinish (s : State) (g : Nat) (failed : Bool) : State :=
  match (s.deliv.groups[g]?).join with
  | none => s
  | some x =>
    let y : Group := { x with
      remaining := x.remaining - 1, unreached := x.unreached + (if failed then 1 else 0) }
    if y.remaining = 0 then
      let s1 := s.onDeliv fun d => { d with groups := d.groups.set g none }
      match y.mailbox with
      | none => s1
      | some k =>
        if 0 < y.unreached then s1.addNotice k .listPartial y.list none (some y.unreached) else s1
    else s.onDeliv fun d => { d with groups := d.groups.set g (some y) }

/-- The group of an entry, told that the entry finishes. -/
def State.groupTold (s : State) (e : QEntry) (failed : Bool) : State :=
  match e.group with
  | none => s
  | some g => s.groupFinish g failed

/-! ### Ends of a queue entry (R155-R157) -/

/-- An entry leaves its position, which marks its queue page. -/
def State.leaveQueue (s : State) (pos : Nat) : State :=
  (s.onDeliv fun d => { d with queue := d.queue.set pos none }).markQueue pos

/-- A final failure of an entry (R155): the reference is dropped, the entry leaves its position, and
R156 or R157 follows. -/
def State.failEntry (s : State) (pos : Nat) (e : QEntry) (r : Reason) : State :=
  let s1 := (s.dropRef e.object).leaveQueue pos
  if e.list then s1.groupTold e true
  else match e.mailbox with
    | none => s1
    | some k => s1.addNotice k r e.target e.number none

/-- Success of an entry (R155). -/
def State.succeedEntry (s : State) (pos : Nat) (e : QEntry) : State :=
  let s1 := (s.dropRef e.object).leaveQueue pos
  if e.list then s1.groupTold e false else s1

/-! ### Outbound slots (8.3, 8.5) -/

/-- How a transfer ends, but for the relocate (R155). -/
inductive End where
  | success
  | unknown
  | full
  /-- BALK STORE or BUSY -/
  | hold
  /-- LOST, CONGESTED, REFUSE or RECEIPT FAILED -/
  | retry
  deriving DecidableEq, Repr

/-- The slot's entry has reached its outcome: the slot becomes free once no frame of it remains in
the send list (R144). -/
def State.finishSlot (s : State) (i : Nat) : State :=
  s.onOut i fun o =>
    if s.hasFrame (.outSlot i) then { o with state := .finishing, timer := none, wants := none }
    else OutSlot.blank

/-- The entry waits again in its position (R155). -/
def State.requeue (s : State) (i pos : Nat) (delay : Nat) (f : QEntry → QEntry) : State :=
  let dest := (s.outSlot i).dest
  let loc := dest.bind fun n => if s.isPresent n then some n else none
  s.onQ pos fun e => f { e with
    carried := false, notBefore := some delay, location := if e.list then none else loc }

/-- A transfer ends (R155, every row but the relocate). -/
def State.endTransfer (s : State) (i : Nat) (x : End) : State :=
  let pos := (s.outSlot i).pos
  match s.qEntry? pos with
  | none => s.finishSlot i
  | some e =>
    (match x with
      | .success => s.succeedEntry pos e
      | .unknown => s.failEntry pos e .unknown
      | .full => s.failEntry pos e .full
      | .hold =>
        if e.hold < Config.maxHold then
          s.requeue i pos Config.holdDelay fun q => { q with hold := q.hold + 1 }
        else s.failEntry pos e .unreachable
      | .retry =>
        if e.retry < Config.maxRetry then
          s.requeue i pos Config.retryDelay fun q => { q with retry := q.retry + 1 }
        else s.failEntry pos e .unreachable).finishSlot i

/-- The entry a slot carries is urgent (R121). -/
def State.slotUrgent (s : State) (i : Nat) : Bool :=
  match s.qEntry? (s.outSlot i).pos with
  | none => false
  | some e => e.urgent

/-- The slot's state calls for a frame (R144): handed at once, or as soon as the outcome of its
previous frame comes back; an outcome given at once ends the transfer. -/
def State.callFrame (s : State) (i : Nat) (f : Frame) : State :=
  if s.hasFrame (.outSlot i) then s.onOut i fun o => { o with wants := some f }
  else match s.hand (.outSlot i) f (s.slotUrgent i) with
    | (none, s1) => s1
    | (some _, s1) => s1.endTransfer i .retry

/-- The OFFER of a slot (R145). -/
def State.offerFrame (s : State) (i : Nat) (e : QEntry) : Frame :=
  let o := s.outSlot i
  s.frameTo (o.dest.getD 0) o.tag (.offer
    { list := e.list, urgent := e.urgent, target := e.target
      segments := match s.obj? e.object with | none => 0 | some x => x.segments
      origin := e.mailbox.bind s.originOf, identity := none })

/-- The slot enters OFFERING (R145). -/
def State.beginOffer (s : State) (i : Nat) (dest : Nat) : State :=
  let s1 := s.onOut i fun o => { o with
    state := .offering, dest := some dest, offerCount := 1, timer := none, wants := none }
  match s1.qEntry? (s1.outSlot i).pos with
  | none => s1
  | some e => s1.callFrame i (s1.offerFrame i e)

/-- The SEEK of a slot (R141). -/
def State.seekFrame (s : State) (i : Nat) (r : SeekRec) : Frame :=
  s.frameTo Config.allNodes (s.outSlot i).tag (.seek r.number r.ext)

/-- The next value of the seek counter (R141). -/
def nextSeek (n : Nat) : Nat := if n ≥ 65535 then 1 else n + 1

/-- The DIRECT entry in a slot is located at a node (R140). -/
def State.locateAt (s : State) (i n : Nat) : State :=
  s.onQ (s.outSlot i).pos fun e => { e with location := some n }

/-- The slot begins a locate for an extension (R141): on a hit the entry in the slot is located at the node
of the cache (R140). In a relocate (R155) the slot has no destination until
it is located again, which the manual leaves open (log 46). -/
def State.beginLocate (s : State) (i : Nat) (ext : Nat) : State :=
  let s0 := s.onOut i fun o => { o with
    state := .locating, dest := none, seek := none, timer := none, wants := none }
  match s0.routeOf ext with
  | some n => ((s0.useRoute ext n).locateAt i n).beginOffer i n
  | none =>
    let r : SeekRec := ⟨nextSeek s0.deliv.seekCounter, ext, none⟩
    let s1 := (s0.onDeliv fun d => { d with seekCounter := r.number }).onOut i fun o => { o with
      seek := some r, seekCount := 1 }
    s1.callFrame i (s1.seekFrame i r)

/-- The next value of the tag counter (R144). -/
def nextTag (n : Nat) : Nat := if n ≥ 255 then 1 else n + 1

/-- The tag a slot takes: a value equal to the tag of the other slot in use is passed over (R144). -/
def State.newTag (s : State) (i : Nat) : Nat :=
  let t := nextTag s.deliv.tagCounter
  let other := s.outSlot (1 - i)
  if other.state != .free && other.tag == t then nextTag t else t

/-- Entry `e` at a position is taken into free slot `i` (R139, R144). -/
def State.takeEntry (s : State) (i pos : Nat) (e : QEntry) : State :=
  let t := s.newTag i
  let s1 := ((s.onQ pos fun q => { q with carried := true }).onDeliv fun d => { d with
    tagCounter := t }).onOut i fun _ => { OutSlot.blank with state := .locating, pos := pos, tag := t }
  if e.list then s1.beginOffer i (e.node.getD 0)
  else match e.location with
    | some n => if s.isPresent n then s1.beginOffer i n else s1.beginLocate i e.target
    | none => s1.beginLocate i e.target

/-! ### Dispatch (R139) -/

/-- Entry `a` comes before entry `b` in the queue order (R137). -/
def QEntry.before (a b : QEntry) : Bool :=
  if a.urgent = b.urgent then decide (a.seq < b.seq) else a.urgent

/-- The entry waits and its not-before time has been reached. -/
def QEntry.eligible (e : QEntry) : Bool := !e.carried && e.notBefore.isNone

/-- The first eligible entry in queue order, with its position; `n` is the position of the list's head. Of two
entries of one class that a restored page has left with the same sequence, the one in the lower position comes
first, which R137 leaves open (log 53). -/
def firstEligible (n : Nat) : List (Option QEntry) → Option (Nat × QEntry)
  | [] => none
  | none :: rest => firstEligible (n + 1) rest
  | some e :: rest =>
    match firstEligible (n + 1) rest with
    | none => if e.eligible then some (n, e) else none
    | some (p, q) => if e.eligible && !q.before e then some (n, e) else some (p, q)

/-- The free outbound slot a dispatch takes: R139 asks for a free one, and where both are free the model takes
slot 0 (log 45). -/
def State.freeOut (s : State) : Option Nat :=
  s.deliv.outSlots.findIdx? fun o => o.state == .free

/-- A LIST entry whose target node is absent (R139). -/
def State.listUnreached (s : State) (e : QEntry) : Bool :=
  e.list && !s.isPresent (e.node.getD 0)

/-- A dispatch, repeated until no slot is free or no waiting entry is eligible; only in SERVING
(R139). Each turn takes one of at most 64 eligible entries out of the wait. -/
def State.dispatchLoop : Nat → State → State
  | 0, s => s
  | fuel + 1, s =>
    match s.freeOut, firstEligible 0 s.deliv.queue with
    | some i, some (pos, e) =>
      State.dispatchLoop fuel
        (if s.listUnreached e then s.failEntry pos e .unreachable else s.takeEntry i pos e)
    | _, _ => s

/-- A dispatch (R139). -/
def State.dispatch (s : State) : State :=
  if s.mode = .serving then State.dispatchLoop Config.queuePositions s else s

/-! ### Offers to the queue (R137, R138) -/

/-- The free positions of the queue, lowest first. -/
def State.freePositions (s : State) : List Nat :=
  (List.range s.deliv.queue.length).filter fun p => (s.qEntry? p).isNone

/-- The new sequence of an entry: its place, from 1 upward, among the entries that hold a position in ascending
order of the old one (R137); two entries of the same old sequence take the same new one (log 53). -/
def State.renumbered (s : State) (e : QEntry) : Nat :=
  (s.deliv.queue.filter fun q => match q with
    | none => false
    | some x => decide (x.seq ≤ e.seq)).length

/-- When the counter stands at its end, every entry that holds a position takes a new sequence in its
old order, the counter becomes their number, and their pages are marked (R137). The marking goes by ascending
position, an order that R137 leaves open (log 48). -/
def State.renumber (s : State) : State :=
  if s.deliv.enqCounter < Config.maxSequence then s
  else
    let held := (List.range s.deliv.queue.length).filter fun p => (s.qEntry? p).isSome
    held.foldl State.markQueue (s.onDeliv fun d => { d with
      queue := d.queue.map (Option.map fun e => { e with seq := s.renumbered e })
      enqCounter := held.length })

/-- A new queue entry (R138). -/
def QEntry.made (list : Bool) (target : Nat) (node : Option Nat) (obj : Nat) (k : Nat)
    (number : Option Nat) (urgent : Bool) (group : Option Nat) : QEntry :=
  { list := list, target := target, node := node, object := obj, mailbox := some k,
    number := number, urgent := urgent, location := none, relocated := false, hold := 0, retry := 0,
    notBefore := none, seq := 0, group := group, carried := false }

/-- An entry joins the queue in the lowest free position with the next sequence (R138). -/
def State.enqueue (s : State) (e : QEntry) : State :=
  let s1 := s.renumber
  match s1.freePositions with
  | [] => s1
  | p :: _ =>
    (s1.onDeliv fun d => { d with
      queue := d.queue.set p (some { e with seq := d.enqCounter + 1 })
      enqCounter := d.enqCounter + 1 }).markQueue p

/-- A single DIRECT entry is offered (R95, R138): none when the queue refuses it, with the alarm if
no position was free. -/
def State.offerDirect (s : State) (target obj k : Nat) (number : Option Nat) (urgent : Bool) :
    Bool × State :=
  if s.freePositions.isEmpty then (false, s.latch .queueFull)
  else match s.addRef obj with
    | none => (false, s)
    | some s1 =>
      (true, (s1.enqueue (QEntry.made false target none obj k number urgent none)).dispatch)

/-- The lowest free fan-out group. -/
def State.freeGroup (s : State) : Option Nat := s.deliv.groups.findIdx? Option.isNone

/-- `n` references added to an object, or none when one is refused (R138). -/
def State.addRefs (s : State) (obj : Nat) : Nat → Option State
  | 0 => some s
  | n + 1 => match s.addRef obj with
    | none => none
    | some s1 => s1.addRefs obj n

/-- A broadcast of LIST entries for `nodes` is offered (R99, R138): taken whole or refused whole. -/
def State.offerLists (s : State) (l obj k : Nat) (urgent : Bool) (nodes : List Nat) : Bool × State :=
  match decide (nodes.length ≤ s.freePositions.length), s.freeGroup with
  | true, some g =>
    match s.addRefs obj nodes.length with
    | none => (false, s)
    | some s1 =>
      let s2 := s1.onDeliv fun d => { d with
        groups := d.groups.set g (some ⟨some k, l, nodes.length, 0⟩) }
      (true, (nodes.foldl (fun t n =>
        t.enqueue (QEntry.made true l (some n) obj k none urgent (some g))) s2).dispatch)
  | _, _ => (false, s.latch .queueFull)

/-! ### Outcomes of frames (R144-R148) -/

/-- The slot hands its next CARRY, or enters CLOSING after the last (R147, R148). -/
def State.carryOn (s : State) (i : Nat) : State :=
  match s.qEntry? (s.outSlot i).pos with
  | none => s
  | some e =>
    match s.obj? e.object with
    | none => s
    | some x =>
      let o := s.outSlot i
      let dest := o.dest.getD 0
      if o.nextIndex < x.segments then
        s.callFrame i (s.frameTo dest o.tag (.carry o.nextIndex (s.segmentOf x o.nextIndex)))
      else
        let s1 := s.onOut i fun o => { o with state := .closing, closeCount := 1, timer := none }
        s1.callFrame i (s1.frameTo dest o.tag (.close x.segments))

/-- The outcome of the frame a slot's state waits on (R141, R145, R147, R148), and the freeing of a
slot that has finished (R144). -/
def State.slotOutcome (s : State) (i : Nat) (x : Tx) : State :=
  match (s.outSlot i).state with
  | .free => s
  | .finishing => s.onOut i fun _ => OutSlot.blank
  | .locating =>
    if x = .sent then s.onOut i fun o => { o with timer := some Config.claimTime }
    else s.endTransfer i .retry
  | .offering =>
    if x = .sent then s.onOut i fun o => { o with timer := some Config.answerTime }
    else s.endTransfer i .retry
  | .carrying =>
    if x = .sent then (s.onOut i fun o => { o with nextIndex := o.nextIndex + 1 }).carryOn i
    else s.endTransfer i .retry
  | .closing =>
    if x = .sent then s.onOut i fun o => { o with timer := some Config.receiptTime }
    else s.endTransfer i .retry

/-- An outcome is handed to an outbound slot: a frame called for meanwhile is handed now, and the
outcome is not otherwise acted on (R144). -/
def State.outBack (s : State) (i : Nat) (x : Tx) : State :=
  (match (s.outSlot i).wants with
    | some f => (s.onOut i fun o => { o with wants := none }).callFrame i f
    | none => s.slotOutcome i x).dispatch

/-- An outcome is handed to the requester of a frame that has left the send list. -/
def State.txBack (s : State) (r : Requester) (x : Tx) : State :=
  match r with
  | .outSlot i => s.outBack i x
  | .inSlot _ => s
  | .answers => s.answerDone
  | .hail => s

/-- The send list is emptied, every frame with outcome LOST handed to its requester (R124), in the order in
which the frames joined the list, which R124 leaves open (log 43). -/
def State.emptySendList (s : State) : State :=
  let l := s.link.sendList
  l.foldl (fun t x => t.txBack x.req .lost)
    (s.onLink fun l => { l with sendList := [], transmitting := none })

/-! ### Inbound slots (8.4) -/

/-- The slot in use that holds a key (R149). -/
def State.inByKey (s : State) (src tag : Nat) : Option Nat :=
  s.deliv.inSlots.findIdx? fun x => x.state != .free && x.source == src && x.tag == tag

/-- The free inbound slot an offer takes: R150 asks for a free one, and the model takes the lowest-numbered
(log 45). -/
def State.freeIn (s : State) : Option Nat := s.deliv.inSlots.findIdx? fun x => x.state == .free

/-- A BALK leaves through the answer queue under the tag of the OFFER (R150). -/
def State.balk (s : State) (src tag : Nat) (r : BalkReason) : State :=
  s.answer (s.frameTo src tag (.balk r))

/-- A slot hands its TAKE (R149, R150). -/
def State.handTake (s : State) (j : Nat) : State :=
  s.handIgnoring (.inSlot j) (s.frameTo (s.inSlot j).source (s.inSlot j).tag .take)

/-- A slot hands RECEIPT OK (R153). -/
def State.handReceipt (s : State) (j : Nat) : State :=
  s.handIgnoring (.inSlot j) (s.frameTo (s.inSlot j).source (s.inSlot j).tag (.receipt true))

/-- A free slot is taken in FILLING with the OFFER's key and fields, and hands its TAKE (R150,
R151). -/
def State.fillSlot (s : State) (j src tag : Nat) (o : OfferBody) (target obj grant : Nat) : State :=
  (s.onIn j fun _ =>
    { state := .filling, source := src, tag := tag, list := o.list, target := target,
      offered := o.segments, received := 0, accept := 0, grant := grant, object := obj,
      urgent := o.urgent, origin := o.origin, identity := o.identity, reservation := !o.list,
      idleTimer := some Config.idleTime, lingerTimer := none }).handTake j

/-- A new DIRECT offer (R150). -/
def State.takeDirect (s : State) (src tag : Nat) (o : OfferBody) : State :=
  if s.mode ≠ .serving then s.balk src tag .busy
  else match s.find o.target with
    | .inRange => s.balk src tag .notHome
    | .foreign => s.balk src tag .notHome
    | .disabled _ => s.balk src tag .noBox
    | .homed k =>
      match s.freeIn with
      | none => s.balk src tag .busy
      | some j =>
        match s.reserve k with
        | (.granted, s1) =>
          match s1.admitDirect k o.segments with
          | (.granted obj n, s2) => s2.fillSlot j src tag o k obj n
          | (.full, s2) => (s2.returnRes k 0).balk src tag .full
          | (.noRoom, s2) => (s2.returnRes k 0).balk src tag .store
          | (.noEntry, s2) => (s2.returnRes k 0).balk src tag .store
        | (.full, s1) => s1.balk src tag .full
        | (.disabled, s1) => s1.balk src tag .noBox

/-- A mailbox of this node is a member of list `l` (R151). -/
def State.hasMember (s : State) (l : Nat) : Bool :=
  (List.range s.cfg.mailboxes.length).any fun k => s.member l k

/-- A new LIST offer (R151). -/
def State.takeList (s : State) (src tag : Nat) (o : OfferBody) : State :=
  if s.mode ≠ .serving then s.balk src tag .busy
  else if !s.hasMember o.target then s.balk src tag .noMembers
  else match s.freeIn with
    | none => s.balk src tag .busy
    | some j =>
      match s.admitList o.segments with
      | (.granted obj n, s1) => s1.fillSlot j src tag o o.target obj n
      | (.full, s1) => s1.balk src tag .store
      | (.noRoom, s1) => s1.balk src tag .store
      | (.noEntry, s1) => s1.balk src tag .store

/-- A new offer of either kind. -/
def State.takeOffer (s : State) (src tag : Nat) (o : OfferBody) : State :=
  if o.list then s.takeList src tag o else s.takeDirect src tag o

/-- An OFFER handed from the buffer (R149). -/
def State.offerIn (s : State) (src tag : Nat) (o : OfferBody) : State :=
  match s.inByKey src tag with
  | none => s.takeOffer src tag o
  | some j =>
    if (s.inSlot j).state = .filling then
      let s1 := s.onIn j fun x => { x with idleTimer := some Config.idleTime }
      if s1.hasFrame (.inSlot j) then s1 else s1.handTake j
    else (s.onIn j fun _ => InSlot.blank).takeOffer src tag o

/-- A CARRY handed from the buffer (R152). -/
def State.carryIn (s : State) (src tag idx : Nat) (seg : Segment) : State :=
  match s.inByKey src tag with
  | none => s
  | some j =>
    let x := s.inSlot j
    if x.state = .filling && idx = x.received then
      match s.append x.object seg with
      | none => s
      | some s1 => s1.onIn j fun y => { y with received := y.received + 1 }
    else s

/-- The object of a FILLING slot is discarded and its reservation returned (R153, R154). -/
def State.giveUpIn (s : State) (j : Nat) : State :=
  let x := s.inSlot j
  let s1 := s.discardObj x.object
  let s2 := if x.reservation then s1.returnRes x.target x.grant else s1
  s2.onIn j fun _ => InSlot.blank

/-- The transfer of a slot commits (R153): the store closes the object and the Directory commits it to
the mailbox, or to the members of the list with room; none when the close found the object too
short. -/
def State.commitIn (s : State) (x : InSlot) : Option State :=
  if x.list then
    let ks := s.membersWithRoom x.target
    if ks.isEmpty then some (s.discardObj x.object)
    else match s.closeObj x.object 0 ks.length with
      | (false, _) => none
      | (true, s1) =>
        some (ks.foldl (fun t k =>
          t.commit k (Entry.ofObject .shared x.urgent x.origin x.identity x.object x.source) false 0)
          s1)
  else match s.closeObj x.object 0 1 with
    | (false, _) => none
    | (true, s1) =>
      some (s1.commit x.target
        (Entry.ofObject .voice x.urgent x.origin x.identity x.object x.source) true x.grant)

/-- A RECEIPT FAILED through the answer queue (R153). -/
def State.receiptFailed (s : State) (src tag : Nat) : State :=
  s.answer (s.frameTo src tag (.receipt false))

/-- A CLOSE handed from the buffer (R153). -/
def State.closeIn (s : State) (src tag count : Nat) : State :=
  match s.inByKey src tag with
  | none => s
  | some j =>
    let x := s.inSlot j
    if x.state = .filling then
      match (if count = x.offered && count = x.received then s.commitIn x else none) with
      | some s1 =>
        ((s1.onIn j fun y => { y with
          state := .committed, reservation := false, idleTimer := none,
          lingerTimer := some Config.lingerTime })).handReceipt j
      | none => (s.giveUpIn j).receiptFailed src tag
    else if s.hasFrame (.inSlot j) then s else s.handReceipt j

/-! ### Frames for outbound slots (R143, R146, R155) -/

/-- The outbound slot in use with a tag and a destination (R146). -/
def State.outByTag (s : State) (src tag : Nat) : Option Nat :=
  s.deliv.outSlots.findIdx? fun o => o.state != .free && o.tag == tag && o.dest == some src

/-- The outbound slot whose seek record matches (R143). -/
def State.outBySeek (s : State) (num ext : Nat) : Option Nat :=
  s.deliv.outSlots.findIdx? fun o => match o.seek with
    | none => false
    | some r => r.number == num && r.ext == ext

/-- A CLAIM handed from the buffer (R143). -/
def State.claimIn (s : State) (src num ext : Nat) : State :=
  match s.outBySeek num ext with
  | none => s
  | some i =>
    match (s.outSlot i).seek with
    | none => s
    | some r =>
      match r.claimant with
      | some n => if n = src then s else s.latch .duplicateHome
      | none =>
        let s1 := s.onOut i fun o => { o with seek := some { r with claimant := some src } }
        if (s1.outSlot i).state = .locating then
          ((if s1.isPresent src then s1.useRoute ext src else s1).beginOffer i src).dispatch
        else s1

/-- A TAKE handed from the buffer (R145, R146). -/
def State.takeIn (s : State) (src tag : Nat) : State :=
  match s.outByTag src tag with
  | none => s
  | some i =>
    if (s.outSlot i).state = .offering then
      ((s.onOut i fun o => { o with state := .carrying, nextIndex := 0, timer := none }).carryOn
        i).dispatch
    else s

/-- How a BALK ends the transfer of an entry, but for the relocate; a reason that does not belong to
the entry's kind is taken as REFUSE (R155). -/
def balkEnd (list : Bool) : BalkReason → End
  | .notHome => if list then .retry else .unknown
  | .noBox => if list then .retry else .unknown
  | .full => if list then .retry else .full
  | .store => .hold
  | .busy => .hold
  | .noMembers => if list then .success else .retry

/-- A BALK handed from the buffer (R146, R155): the relocate of a first NOT_HOME, or the end of the
transfer. -/
def State.balkIn (s : State) (src tag : Nat) (b : BalkReason) : State :=
  match s.outByTag src tag with
  | none => s
  | some i =>
    if (s.outSlot i).state = .offering then
      match s.qEntry? (s.outSlot i).pos with
      | none => s
      | some e =>
        (if b = .notHome && !e.list then
          let s1 := s.purgeRoute e.target src
          if e.relocated then s1.endTransfer i .unknown
          else (s1.onQ (s1.outSlot i).pos fun q => { q with relocated := true }).beginLocate i e.target
        else s.endTransfer i (balkEnd e.list b)).dispatch
    else s

/-- A RECEIPT handed from the buffer (R146, R148). -/
def State.receiptIn (s : State) (src tag : Nat) (ok : Bool) : State :=
  match s.outByTag src tag with
  | none => s
  | some i =>
    if (s.outSlot i).state = .closing then
      (s.endTransfer i (if ok then .success else .retry)).dispatch
    else s

/-- A SEEK handed from the buffer (R142). The CLAIM carries the SEEK's tag: 12.1 says that a frame's tag is
that of the seek it belongs to, and R190 that a received SEEK's tag is not read (log 50). -/
def State.seekIn (s : State) (src tag num ext : Nat) : State :=
  match s.find ext with
  | .homed _ => s.answer (s.frameTo src tag (.claim num ext))
  | .disabled _ => s.answer (s.frameTo src tag (.claim num ext))
  | .inRange => s
  | .foreign => s

/-! ### Timers of the slots -/

/-- The claim timer of a slot expires (R141). -/
def State.claimTimeout (s : State) (i : Nat) : State :=
  let o := s.outSlot i
  match o.seek with
  | none => s
  | some r =>
    (if o.seekCount < Config.maxSendings then
      let s1 := s.onOut i fun o => { o with seekCount := o.seekCount + 1, timer := none }
      s1.callFrame i (s1.seekFrame i r)
    else s.endTransfer i .unknown).dispatch

/-- The answer timer of a slot expires (R145). -/
def State.answerTimeout (s : State) (i : Nat) : State :=
  let o := s.outSlot i
  match s.qEntry? o.pos with
  | none => s
  | some e =>
    (if o.offerCount < Config.maxSendings then
      let s1 := s.onOut i fun o => { o with offerCount := o.offerCount + 1, timer := none }
      s1.callFrame i (s1.offerFrame i e)
    else s.endTransfer i .retry).dispatch

/-- The receipt timer of a slot expires (R148). -/
def State.receiptTimeout (s : State) (i : Nat) : State :=
  let o := s.outSlot i
  match (s.qEntry? o.pos).bind fun e => s.obj? e.object with
  | none => s
  | some x =>
    (if o.closeCount < Config.maxSendings then
      let s1 := s.onOut i fun o => { o with closeCount := o.closeCount + 1, timer := none }
      s1.callFrame i (s1.frameTo (o.dest.getD 0) o.tag (.close x.segments))
    else s.endTransfer i .retry).dispatch

end Sys2Proof.Machine
end

