-- ==== Sys2Proof/Machine/Settle.lean ====
section
/-! DEFINITION. What follows every act: the Index Writer's next write, the drain condition and the
status lines (10 Start-Up, Configuration and the Index; R189). -/

namespace Sys2Proof.Machine

/-! ### Page contents (R178) -/

/-- What a page holds of an object. -/
def Obj.image (o : Obj) : ObjImage := ⟨o.complete, o.use, o.chain, o.segments, o.refs, o.owner⟩
/-- What a page holds of a queue entry. -/
def QEntry.image (e : QEntry) : QImage :=
  ⟨e.list, e.target, e.node, e.object, e.mailbox, e.number, e.urgent, e.seq, e.group⟩
/-- What a page holds of a mailbox. -/
def Mailbox.image (m : Mailbox) : MailboxImage :=
  ⟨m.entries, m.nextNumber, m.standard, m.busy, m.absence, m.name, m.endDay⟩

/-- The content of object page `j`: objects 16j + 1 to 16j + 16. -/
def State.objectPageImage (s : State) (j : Nat) : List (Nat × ObjImage) :=
  (s.store.objects.filter fun p => decide (16 * j < p.1) && decide (p.1 ≤ 16 * j + 16)).map
    fun p => (p.1, p.2.image)

/-- The content of queue page `q`: positions 16q to 16q + 15. -/
def State.queuePageImage (s : State) (q : Nat) : List (Nat × QImage) :=
  (List.range 16).filterMap fun i => (s.qEntry? (16 * q + i)).map fun e => (16 * q + i, e.image)

/-- The content of a page as the state stands. -/
def State.pageImage (s : State) : PageId → PageImage
  | .mailbox k => .mailbox (s.mb k).image
  | .object j => .objects (s.objectPageImage j)
  | .queue q => .queue (s.queuePageImage q)

/-! ### The Index Writer (R182) -/

/-- In SERVING and DRAINING, an idle writer begins a write when a set is not empty: the first object
page, otherwise the first mailbox or queue page, with its content at that moment. -/
def State.beginWrite (s : State) : State :=
  if (s.mode == .serving || s.mode == .draining) && s.writer.writing.isNone then
    match s.writer.dirtyObjects, s.writer.dirtyOthers with
    | j :: rest, _ => s.onWriter fun w => { w with
        dirtyObjects := rest, writing := some (.object j, s.pageImage (.object j)) }
    | [], p :: rest => s.onWriter fun w => { w with
        dirtyOthers := rest, writing := some (p, s.pageImage p) }
    | [], [] => s
  else s

/-- A page of the index area takes a content. -/
def storePage (p : PageId) (c : PageImage) : List (PageId × PageImage) → List (PageId × PageImage)
  | [] => [(p, c)]
  | x :: rest => if x.1 = p then (p, c) :: rest else x :: storePage p c rest

/-- The content of a page, if it passes its check. -/
def IndexArea.page? (a : IndexArea) (p : PageId) : Option PageImage :=
  (a.pages.find? fun x => x.1 == p).map (·.2)

/-- The write under way completes (R182). -/
def State.writeDone (s : State) : State :=
  match s.writer.writing with
  | none => s
  | some (p, c) =>
    (s.onIndex fun a => { a with pages := storePage p c a.pages }).onWriter fun w =>
      { w with writing := none }

/-! ### Draining (R174, R175) -/

/-- The drain condition (R174). -/
def State.drained (s : State) : Bool :=
  s.busyCount == 0 && s.deliv.outSlots.all (fun o => o.state == .free)
    && s.deliv.inSlots.all (fun x => x.state == .free) && s.dirtyCount == 0
    && s.writer.writing.isNone

/-- Entering STOPPED (R175, R124, R127, R136): the send list, the buffer and the answer queue are
emptied, the link's timers stop, and the scan stops where it stands. No slot is in use, so no
requester has an outcome to act on. -/
def State.enterStopped (s : State) : State :=
  (((s.setMode .stopped).onLink fun l => { l with
    sendList := [], transmitting := none, buffer := [], joinTimer := none, hailTimer := none,
    aloneTimer := none, alone := false }).onDeliv fun d => { d with answers := [] }).onLamp fun l =>
      { l with scanTimer := none }

/-- The drain condition is evaluated in DRAINING. -/
def State.drainCheck (s : State) : State :=
  if s.mode = .draining && s.drained then s.enterStopped else s

/-- A new moment begins once a frame has been handed in this one (log 3). -/
def State.nextMoment (s : State) : State :=
  if s.link.sendList.any fun x => x.handed == s.link.moment then
    s.onLink fun l => { l with moment := l.moment + 1 }
  else s

/-- The end of every act (log 16). -/
def State.settle (s : State) : State := s.beginWrite.drainCheck.nextMoment.updateLines

/-- The outcome of an act: the next state, settled. -/
def act (s : State) : Host.Outcome State Fault Refusal := .next s.settle

/-- An event that its rules discard, or whose rule's condition does not hold: nothing changes
(log 2). -/
def discard (s : State) : Host.Outcome State Fault Refusal := .next s

end Sys2Proof.Machine
end

