-- ==== Sys2Proof/Machine/LinkEvents.lean ====
section
/-! DEFINITION. The commands of the link: the Controller's timers, the medium, frames sent and heard
(07 The Campus Relay Link; the verdicts of 08). -/

namespace Sys2Proof.Machine

/-- The Controller hears the medium: the node is neither STOPPED nor HALTED (R136) and the link not
FAULTED (R125). -/
def State.hears (s : State) : Bool :=
  s.mode != .stopped && s.mode != .halted && s.link.state != .faulted

/-! ### The Controller's timers -/

/-- The HAIL of this node (R129). -/
def State.hailFrame (s : State) (g : Nat) : Frame := s.frameTo Config.allNodes 0 (.hail g)

/-- A HAIL is due: it is handed unless one is still in the list or the generation is not settled
(R129). -/
def State.hailDue (s : State) : State :=
  let s1 := s.onLink fun l => { l with hailTimer := some Config.hailTime }
  match s1.generation with
  | none => s1
  | some g => if s1.hasFrame .hail then s1 else s1.handIgnoring .hail (s1.hailFrame g)

/-- HAIL_TIMER_EXPIRY (R129). -/
def execHailTimerExpiry (s : State) : Host.Outcome State Fault Refusal :=
  if s.link.hailTimer.isSome then act s.hailDue else discard s

/-- The link is alone at an expiry of the alone timer (R132). -/
def State.aloneDue (s : State) : State :=
  (s.onLink fun l => { l with alone := true, aloneTimer := some Config.aloneTime }).latch .linkAlone

/-- ALONE_TIMER_EXPIRY (R132). -/
def execAloneTimerExpiry (s : State) : Host.Outcome State Fault Refusal :=
  if s.link.aloneTimer.isSome then act s.aloneDue else discard s

/-- The link enters ACTIVE (R133, R129, R132). R129 does not say how long the HAIL timer runs where the join
timer expires before the configuration, and with it the node number, has been handed out: the model starts it
for 10 s, as for number 0, and the hand-out leaves it running (log 56). -/
def State.enterActive (s : State) : State :=
  s.onLink fun l => { l with
    state := .active, joinTimer := none, hailTimer := some (Config.firstHailTime s.cfg.node)
    aloneTimer := if s.presentCount = 0 then some Config.aloneTime else none }

/-- JOIN_TIMER_EXPIRY (R133). -/
def execJoinTimerExpiry (s : State) : Host.Outcome State Fault Refusal :=
  if s.link.state = .joining && s.link.joinTimer.isSome then act s.enterActive else discard s

/-- An absence falls due for a node: its entry is present, and the node is neither STOPPED nor HALTED
(R131). -/
def State.absenceDue (s : State) (n : Nat) : Bool :=
  s.isPresent n && (s.presence n).absence.isSome && s.mode != .stopped && s.mode != .halted

/-- PRESENCE_TIMEOUT (R131). -/
def execPresenceTimeout (node : Nat) (s : State) : Host.Outcome State Fault Refusal :=
  if s.absenceDue node then act (s.markAbsent node) else discard s

/-! ### Link states -/

/-- The link stops sending for a reason that may last (R124, R134, R135): its timers stop and the send
list is emptied, in the state entered. -/
def State.silence (s : State) (st : LinkState) : State :=
  ((s.onLink fun l => { l with state := st, joinTimer := none, hailTimer := none }).stopAlone
    ).emptySendList

/-- The link enters MUTED (R135). -/
def State.enterMuted (s : State) : State := (s.latch .duplicateNode).silence .muted

/-- The link enters FAULTED (R134). -/
def State.enterFaulted (s : State) : State := (s.latch .linkFault).silence .faulted

/-- MEDIUM_DOMINANT_FAULT (R118, R134). -/
def execMediumDominantFault (s : State) : Host.Outcome State Fault Refusal :=
  if s.hears && s.link.state != .muted then act s.enterFaulted else discard s

/-- The link enters JOINING (R133). -/
def State.enterJoining (s : State) : State :=
  s.onLink fun l => { l with state := .joining, joinTimer := some Config.joinTime, muteCount := 0 }

/-- MEDIUM_RECESSIVE_RECOVERY (R134). -/
def execMediumRecessiveRecovery (s : State) : Host.Outcome State Fault Refusal :=
  if s.link.state = .faulted && s.mode ≠ .stopped && s.mode ≠ .halted then act s.enterJoining
  else discard s

/-! ### Sending -/

/-- A frame of the list is begun (R120). -/
def State.beginFrame (s : State) (x : SendItem) : State :=
  (s.onLink fun l => { l with transmitting := some x.req }).drive (.frame x.frame x.priority)

/-- MEDIUM_IDLE (R118, R120). -/
def execMediumIdle (s : State) : Host.Outcome State Fault Refusal :=
  if s.maySend && s.link.transmitting.isNone then
    match nextFrame s.link.sendList with
    | some x => act (s.beginFrame x)
    | none => discard s
  else discard s

/-- ARBITRATION_LOST (R121): the node stops driving, and its frame stays eligible. -/
def execArbitrationLost (s : State) : Host.Outcome State Fault Refusal :=
  if s.link.transmitting.isSome then act s.stopDriving else discard s

/-- A bit error in the node's own frame (R122). -/
def State.bitErrorSeen (s : State) : State :=
  let s1 := s.stopDriving.onLink fun l => { l with muteCount := l.muteCount + 1 }
  if Config.muteAt ≤ s1.link.muteCount then s1.enterMuted else s1

/-- BIT_ERROR (R122). -/
def execBitError (s : State) : Host.Outcome State Fault Refusal :=
  if s.link.transmitting.isSome then act s.bitErrorSeen else discard s

/-- The outcome of a requester's frame is decided: it leaves the list and the outcome is handed back
(R120). -/
def State.decideFrame (s : State) (r : Requester) (x : Tx) : State := (s.dropItem r).txBack r x

/-- The slot of a frame to one node reads BUSY (R123). -/
def State.slotBusy (s : State) (x : SendItem) : State :=
  if Config.maxBusy < x.busy + 1 then s.decideFrame x.req .congested
  else s.onItem x.req fun y => { y with busy := y.busy + 1, wait := some Config.busyWait }

/-- The slot of a frame to one node reads silence (R123). -/
def State.slotSilent (s : State) (x : SendItem) : State :=
  if Config.maxSilence < x.silence + 1 then (s.markAbsent x.frame.dest).decideFrame x.req .lost
  else s.onItem x.req fun y => { y with silence := y.silence + 1 }

/-- A good transmission of a frame ends (R122, R123). The destination is refreshed before the outcome is
handed back; R123 says so of LOST alone, and of the other readings the order is the model's (log 44). -/
def State.sentWell (s : State) (x : SendItem) (reading : SlotReading) : State :=
  let s1 := s.stopDriving.onLink fun l => { l with muteCount := 0 }
  if x.frame.dest = Config.allNodes then s1.decideFrame x.req .sent
  else match reading with
    | .accept => (s1.refresh x.frame.dest).decideFrame x.req .sent
    | .refuse => (s1.refresh x.frame.dest).decideFrame x.req .refused
    | .busy => (s1.refresh x.frame.dest).slotBusy x
    | .silence => s1.slotSilent x

/-- TRANSMISSION_END (R122, R123). -/
def execTransmissionEnd (reading : SlotReading) (s : State) : Host.Outcome State Fault Refusal :=
  match s.link.transmitting.bind s.link.itemOf with
  | some x => act (s.sentWell x reading)
  | none => discard s

/-- BUSY_WAIT_EXPIRY (R123). -/
def execBusyWaitExpiry (r : Requester) (s : State) : Host.Outcome State Fault Refusal :=
  match s.link.itemOf r with
  | some x =>
    if x.wait.isSome then act (s.onItem r fun y => { y with wait := none }) else discard s
  | none => discard s

/-! ### Receiving -/

/-- A FILLING slot restarts its idle timer (R149, R152, R153). -/
def State.restartIdle (s : State) (j : Nat) : State :=
  s.onIn j fun x => { x with
    idleTimer := if x.state = .filling then some Config.idleTime else x.idleTimer }

/-- The verdict on a CARRY (R152): the node with the slot as it leaves it when it accepts. -/
def State.carryVerdict (s : State) (src tag idx : Nat) : Option State :=
  match s.inByKey src tag with
  | none => none
  | some j =>
    let x := s.inSlot j
    if x.state = .filling then
      if idx = x.accept && idx < x.offered then
        some ((s.onIn j fun y => { y with accept := y.accept + 1 }).restartIdle j)
      else if idx < x.accept then some (s.restartIdle j)
      else none
    else if idx < x.received then some s
    else none

/-- The verdict of the Delivery Engine on a frame to this node (R126, R143, R146, R149, R152, R153): the
node as an ACCEPT leaves it, or none for REFUSE. An OFFER of 16-9,600 segments is accepted, and one
outside is malformed (R190). -/
def State.verdict (s : State) (f : Frame) : Option State :=
  match f.body with
  | .hail _ => some s
  | .seek _ _ => none
  | .claim num ext => if (s.outBySeek num ext).isSome then some s else none
  | .offer _ => some s
  | .take => if (s.outByTag f.source f.tag).isSome then some s else none
  | .balk _ => if (s.outByTag f.source f.tag).isSome then some s else none
  | .receipt _ => if (s.outByTag f.source f.tag).isSome then some s else none
  | .carry idx _ => s.carryVerdict f.source f.tag idx
  | .close _ =>
    match s.inByKey f.source f.tag with
    | none => none
    | some j => some (s.restartIdle j)

/-- The buffer holds 8 frames (R126, R127). -/
def State.bufferFull (s : State) : Bool := decide (Config.bufferMax ≤ s.link.buffer.length)

/-- A frame joins the inbound frame buffer (R127). -/
def State.joinBuffer (s : State) (f : Frame) : State :=
  s.onLink fun l => { l with buffer := l.buffer ++ [f] }

/-- A frame to this node is answered in the slot and taken or not (R126). -/
def State.answerSlot (s : State) (f : Frame) : State :=
  if s.bufferFull then s.drive (.answer f.source .busy)
  else match s.verdict f with
    | some s1 => (s1.joinBuffer f).drive (.answer f.source .accept)
    | none => s.drive (.answer f.source .refuse)

/-- A malformed frame to this node is answered in the slot (R190). -/
def State.refuseMalformed (s : State) (src : Nat) : State :=
  s.drive (.answer src (if s.bufferFull then .busy else .refuse))

/-- The frame is a HAIL. -/
def isHailBody : Body → Bool
  | .hail _ => true
  | _ => false

/-- The frame to all nodes may be taken in the link state (R125). -/
def State.takesAll (s : State) (b : Body) : Bool := s.link.state == .active || isHailBody b

/-- A frame from another node, once its source has been refreshed (R125, steps 3 and 4; R190). -/
def State.dealWith (s : State) (raw : RawFrame) : State :=
  let mine := raw.dest.toNat == s.cfg.node && s.link.state == .active
  match decodeFrame raw with
  | none => if mine then s.refuseMalformed raw.source.toNat else s
  | some f =>
    if f.dest = Config.allNodes then
      (if s.takesAll f.body && !s.bufferFull then s.joinBuffer f else s)
    else if mine then s.answerSlot f
    else s

/-- An intact frame that the node hears (R125); one that bears the own number of a node already in
MUTED is not acted on (log 39). -/
def State.hear (s : State) (raw : RawFrame) : State :=
  if raw.source.toNat = s.cfg.node then
    (if s.link.state = .muted then s else s.enterMuted)
  else (s.refresh raw.source.toNat).dealWith raw

/-- FRAME_RECEIVED (R119, R125, R126, R190): a frame that is not intact is discarded. -/
def execFrameReceived (f : RawFrame) (s : State) : Host.Outcome State Fault Refusal :=
  if f.intact && s.hears then act (s.hear f) else discard s

end Sys2Proof.Machine
end

