-- ==== Sys2Proof/Machine/DeliveryEvents.lean ====
section
/-! DEFINITION. The commands of campus delivery: frames handed from the inbound buffer, and the timers
of the slots and of the queue (R127; 08 Campus Delivery). -/

namespace Sys2Proof.Machine

/-! ### Frames handed from the buffer (R127) -/

/-- The frame at the head of the buffer leaves it. -/
def State.popBuffer (s : State) : State := s.onLink fun l => { l with buffer := l.buffer.tail }

/-- The head of the buffer is handed to its owner when `take` knows its kind; a command for another
kind is no event (log 2). -/
def handed (s : State) (take : State → Frame → Option State) :
    Host.Outcome State Fault Refusal :=
  match s.link.buffer with
  | [] => discard s
  | f :: _ =>
    match take s.popBuffer f with
    | some s1 => act s1
    | none => discard s

/-- HAIL_HANDED (R130). -/
def execHailHanded (s : State) : Host.Outcome State Fault Refusal :=
  handed s fun t f => match f.body with
    | .hail g => some (t.takeHail f.source g)
    | _ => none

/-- SEEK_HANDED (R142). -/
def execSeekHanded (s : State) : Host.Outcome State Fault Refusal :=
  handed s fun t f => match f.body with
    | .seek num ext => some (t.seekIn f.source f.tag num ext)
    | _ => none

/-- CLAIM_HANDED (R143). -/
def execClaimHanded (s : State) : Host.Outcome State Fault Refusal :=
  handed s fun t f => match f.body with
    | .claim num ext => some (t.claimIn f.source num ext)
    | _ => none

/-- OFFER_HANDED (R149-R151). -/
def execOfferHanded (s : State) : Host.Outcome State Fault Refusal :=
  handed s fun t f => match f.body with
    | .offer o => some (t.offerIn f.source f.tag o)
    | _ => none

/-- CARRY_HANDED (R152). -/
def execCarryHanded (s : State) : Host.Outcome State Fault Refusal :=
  handed s fun t f => match f.body with
    | .carry idx seg => some (t.carryIn f.source f.tag idx seg)
    | _ => none

/-- CLOSE_HANDED (R153). -/
def execCloseHanded (s : State) : Host.Outcome State Fault Refusal :=
  handed s fun t f => match f.body with
    | .close count => some (t.closeIn f.source f.tag count)
    | _ => none

/-- TAKE_HANDED (R145, R146). -/
def execTakeHanded (s : State) : Host.Outcome State Fault Refusal :=
  handed s fun t f => match f.body with
    | .take => some (t.takeIn f.source f.tag)
    | _ => none

/-- BALK_HANDED (R146, R155). -/
def execBalkHanded (s : State) : Host.Outcome State Fault Refusal :=
  handed s fun t f => match f.body with
    | .balk r => some (t.balkIn f.source f.tag r)
    | _ => none

/-- RECEIPT_HANDED (R146, R148). -/
def execReceiptHanded (s : State) : Host.Outcome State Fault Refusal :=
  handed s fun t f => match f.body with
    | .receipt ok => some (t.receiptIn f.source f.tag ok)
    | _ => none

/-! ### Timers -/

/-- The timer of an outbound slot runs in a state (R144). -/
def State.outTimerRuns (s : State) (i : Nat) (st : OutState) : Bool :=
  (s.outSlot i).state == st && (s.outSlot i).timer.isSome

/-- CLAIM_TIMER_EXPIRY (R141). -/
def execClaimTimerExpiry (i : Nat) (s : State) : Host.Outcome State Fault Refusal :=
  if s.outTimerRuns i .locating then act (s.claimTimeout i) else discard s

/-- ANSWER_TIMER_EXPIRY (R145). -/
def execAnswerTimerExpiry (i : Nat) (s : State) : Host.Outcome State Fault Refusal :=
  if s.outTimerRuns i .offering then act (s.answerTimeout i) else discard s

/-- RECEIPT_TIMER_EXPIRY (R148). -/
def execReceiptTimerExpiry (i : Nat) (s : State) : Host.Outcome State Fault Refusal :=
  if s.outTimerRuns i .closing then act (s.receiptTimeout i) else discard s

/-- IDLE_TIMER_EXPIRY (R154): the transfer is abandoned. -/
def execIdleTimerExpiry (i : Nat) (s : State) : Host.Outcome State Fault Refusal :=
  if (s.inSlot i).state = .filling && (s.inSlot i).idleTimer.isSome then act (s.giveUpIn i)
  else discard s

/-- LINGER_TIMER_EXPIRY (R153): the slot becomes free. -/
def execLingerTimerExpiry (i : Nat) (s : State) : Host.Outcome State Fault Refusal :=
  if (s.inSlot i).state = .committed && (s.inSlot i).lingerTimer.isSome then
    act (s.onIn i fun _ => InSlot.blank)
  else discard s

/-- The entry at a position waits out its not-before time. -/
def State.waitsAt (s : State) (pos : Nat) : Bool :=
  match s.qEntry? pos with
  | none => false
  | some e => !e.carried && e.notBefore.isSome

/-- NOT_BEFORE_REACHED (R139). -/
def execNotBeforeReached (pos : Nat) (s : State) : Host.Outcome State Fault Refusal :=
  if s.waitsAt pos then act (s.onQ pos fun e => { e with notBefore := none }).dispatch
  else discard s

end Sys2Proof.Machine
end

