-- ==== Sys2Proof/Machine/Operands.lean ====
section
/-! DEFINITION. The records of the line port as bytes: what the port checks of a record from the
switch (R185, R191), and the layout of the records the node sends (12.2). -/

namespace Sys2Proof.Machine

/-- A CALL passes the port (R191). -/
def callOk (ch ext : Nat) (ids : List Nat) : Bool := wfChannel ch && wfExtension ext && wfIdentity ids

/-- A TIME fits its layout; its values are judged by the clock (R191). -/
def timeOk (day minute : Nat) : Bool := day < 65536 && minute < 65536

/-- The port discards a record and counts it; the count holds at 65,535 (R185). -/
def State.countDiscard (s : State) : State :=
  s.setDiscarded (if s.discarded < Config.maxDiscarded then s.discarded + 1 else s.discarded)

/-- An answer as the sender of the frame reads it in the response slot (R123, R126). -/
def SlotAnswer.reading : SlotAnswer → SlotReading
  | .accept => .accept
  | .busy => .busy
  | .refuse => .refuse

/-- The bits the node drives on the medium: a frame of its own from start to end, its slot left recessive,
or the two bits of a response slot (R119, R123, R126; 12.1). -/
def encodeLinkOut : LinkOut → List Bool
  | .frame f priority => mediumBits (encodeFrame priority f) .silence
  | .answer _ a => beBits 2 a.reading.code.toNat

/-- The code of a REFUSE reason (12.2). -/
def RefuseReason.code : RefuseReason → Nat
  | .channelBusy => 1
  | .noMailbox => 2
  | .unavailable => 3

/-- The code of a mode in a STATUS_REPLY (12.2). -/
def Mode.code : Mode → Nat
  | .starting => 1
  | .serving => 2
  | .draining => 3
  | .stopped => 4
  | .halted => 5

/-- The code of a link state in a STATUS_REPLY (12.2). -/
def LinkState.code : LinkState → Nat
  | .joining => 1
  | .active => 2
  | .muted => 3
  | .faulted => 4

/-- The postponement causes as bits: 0 CHANNELS, 1 INBOUND, 2 INDEX (12.2), bit 0 of the byte being the least
significant (log 37). -/
def Causes.code (c : Causes) : Nat :=
  (if c.channels then 1 else 0) + (if c.inbound then 2 else 0) + (if c.index then 4 else 0)

/-- The alarm byte: 0 for none (12.2). -/
def alarmByte : Option Alarm → Nat
  | none => 0
  | some a => a.number

/-- The fields of a STATUS_REPLY in their 12 bytes (12.2). -/
def encodeStatus (r : StatusReply) : List Byte :=
  beBytes 1 r.mode.code ++ beBytes 1 r.link.code ++ beBytes 3 r.freeRoom ++ beBytes 1 r.active ++
    beBytes 1 r.present ++ beBytes 2 r.discarded ++ beBytes 1 r.causes.code ++
    beBytes 1 (alarmByte r.alarm) ++ beBytes 1 0

/-- A record to the switch as its type, channel, length and field bytes (12.2). -/
def encodeOut : OutRecord → RawRecord
  | .answer ch => rawRecord 32 ch []
  | .refuse ch r => rawRecord 33 ch (beBytes 1 r.code)
  | .clear ch => rawRecord 34 ch []
  | .transfer ch ext => rawRecord 35 ch (beBytes 3 ext)
  | .lamp ext on => rawRecord 36 0 (beBytes 3 ext ++ beBytes 1 (if on then 1 else 0))
  | .statusReply r => rawRecord 37 0 (encodeStatus r)
  | .alarm a => rawRecord 38 0 (beBytes 1 a.number)
  | .alarmConfigBad => rawRecord 38 0 (beBytes 1 13)
  | .ready => rawRecord 39 0 []

end Sys2Proof.Machine
end

