-- ==== Sys2Proof/Machine/House.lean ====
section
/-! DEFINITION. The Housekeeping Unit: the campus clock, the schedule and the daily pass
(09 Housekeeping and the Campus Clock). -/

namespace Sys2Proof.Machine

/-! ### When the pass runs (R162-R165) -/

/-- The pass falls due (R162). -/
def State.passDue (s : State) : Bool :=
  s.mode == .serving && s.house.sched == .idle &&
    match s.house.clock with
    | none => false
    | some (d, m) =>
      (match s.house.lastPassDay with
        | none => true
        | some l => decide (l < d)) && decide (s.cfg.passHour * 60 ≤ m)

/-- The causes of a postponement as they stand (R163). -/
def State.causes (s : State) : Causes :=
  { channels := decide (s.cfg.chanThreshold < s.busyCount)
    inbound := s.deliv.inSlots.any fun x => x.state != .free
    index := decide (Config.indexCausePages < s.dirtyCount) }

/-- At least one cause holds. -/
def Causes.any (c : Causes) : Bool := c.channels || c.inbound || c.index

/-- The pass begins (R165). -/
def State.beginPass (s : State) : State :=
  match s.house.clock with
  | none => s
  | some (d, m) => s.onHouse fun h => { h with
      passDay := d, passTime := d * Config.minutesPerDay + m, lastPassDay := some d
      postponements := 0, postponeTimer := none, passPos := 0, sched := .running }

/-- The pass is postponed (R163). -/
def State.postpone (s : State) (c : Causes) : State :=
  s.onHouse fun h => { h with
    postponements := h.postponements + 1, lastCauses := c
    postponeTimer := some Config.postponeTime, sched := .waiting }

/-- The pass is forced (R164). -/
def State.forcePass (s : State) (c : Causes) : State :=
  ((s.onHouse fun h => { h with lastCauses := c }).latch .housekeepingForced).beginPass

/-- An attempt (R163). -/
def State.attempt (s : State) : State :=
  if !s.causes.any then s.beginPass
  else if s.house.postponements < Config.maxPostponements then s.postpone s.causes
  else s.forcePass s.causes

/-- The check of R162, with the first attempt when the pass falls due. -/
def State.checkPass (s : State) : State := if s.passDue then s.attempt else s

/-! ### The clock (R160, R161) -/

/-- A TIME record sets the clock (R160). -/
def State.setClock (s : State) (day minute : Nat) : State :=
  s.onHouse fun h => { h with
    clock := some (day, minute), minuteTimer := some Config.minuteTime }

/-- A wait ends when today is set to a day not above the last pass day (R162). -/
def State.endWait (s : State) (day : Nat) : State :=
  match s.house.sched, s.house.lastPassDay with
  | .waiting, some l =>
    if day ≤ l then s.onHouse fun h => { h with
      sched := .idle, postponements := 0, postponeTimer := none }
    else s
  | _, _ => s

/-- TIME (R160, R162). -/
def execTime (day minute : Nat) (s : State) : Host.Outcome State Fault Refusal :=
  if !timeOk day minute then discard s.countDiscard
  else if s.mode = .halted || Config.minutesPerDay ≤ minute then discard s
  else act (((s.setClock day minute).endWait day).checkPass)

/-- The set clock advances by one minute; at the last minute of the last day it holds and the timer is
not started again (R161). -/
def State.advanceClock (s : State) (day minute : Nat) : State :=
  if minute + 1 < Config.minutesPerDay then s.setClock day (minute + 1)
  else if day < Config.lastDay then s.setClock (day + 1) 0
  else s.onHouse fun h => { h with minuteTimer := none }

/-- The clock stands at the end of its range (R161). -/
def clockAtEnd (day minute : Nat) : Bool :=
  decide (Config.minutesPerDay ≤ minute + 1) && decide (Config.lastDay ≤ day)

/-- MINUTE_TIMER_EXPIRY (R161, R162). -/
def execMinuteTimerExpiry (s : State) : Host.Outcome State Fault Refusal :=
  match s.house.clock, s.house.minuteTimer with
  | some (d, m), some _ =>
    if clockAtEnd d m then act (s.advanceClock d m) else act (s.advanceClock d m).checkPass
  | _, _ => discard s

/-- POSTPONEMENT_TIMER_EXPIRY (R163). -/
def execPostponementTimerExpiry (s : State) : Host.Outcome State Fault Refusal :=
  if s.house.sched = .waiting && s.house.postponeTimer.isSome then
    act (s.onHouse fun h => { h with postponeTimer := none }).attempt
  else discard s

/-- The pass and its schedule stop where they stand when the node leaves SERVING (R170). -/
def State.stopSchedule (s : State) : State :=
  s.onHouse fun h => { h with sched := .idle, postponeTimer := none }

/-! ### A visit (R166-R169) -/

/-- An entry stamped in a pass, in a class with broadcast life `life` (R167). -/
def Entry.stamped (e : Entry) (passDay passTime life : Nat) : Entry :=
  let a := e.arrival.getD passTime
  { e with
    arrival := some a
    changeDay := some (e.changeDay.getD passDay)
    expiry :=
      if e.kind = .shared then some (e.expiry.getD (a / Config.minutesPerDay + life))
      else e.expiry }

/-- The stamping of a mailbox (R167); its page is marked when a field was stamped. -/
def State.stampMailbox (s : State) (k : Nat) : State :=
  let es := (s.mb k).entries.map fun e =>
    e.stamped s.house.passDay s.house.passTime (s.cls k).broadcastLife
  if es = (s.mb k).entries then s
  else (s.onMb k fun m => { m with entries := es }).markMailbox k

/-- A day lies at least `days` before the pass day; a day that is absent is no age. -/
def aged (passDay days : Nat) : Option Nat → Bool
  | none => false
  | some d => decide (d + days ≤ passDay)

/-- The retention of its class has run out for an entry that has been heard or saved (R168). -/
def Entry.retained (e : Entry) (passDay : Nat) (c : ClassRec) : Bool :=
  match e.state with
  | .new => false
  | .heard => aged passDay c.heardDays e.changeDay
  | .saved => aged passDay c.savedDays e.changeDay

/-- The visit removes an entry (R168). -/
def Entry.expired (e : Entry) (passDay : Nat) (c : ClassRec) : Bool :=
  match e.kind with
  | .voice => e.retained passDay c
  | .shared => e.retained passDay c || aged passDay 0 e.expiry
  | .notice => aged passDay Config.noticeLife (e.arrival.map fun m => m / Config.minutesPerDay)

/-- The expiry of entries, in list order (R168). -/
def State.expireMailbox (s : State) (k : Nat) : State :=
  ((s.mb k).entries.filter fun e => e.expired s.house.passDay (s.cls k)).foldl
    (fun t e => t.removeEntry k e.number) s

/-- The ABSENCE slot whose end day is before the pass day is emptied (R64, R169). -/
def State.expireAbsence (s : State) (k : Nat) : State :=
  match (s.mb k).absence, (s.mb k).endDay with
  | some _, some d => if d < s.house.passDay then s.emptySlot k .absence else s
  | _, _ => s

/-- A visit to mailbox `k`; a locked mailbox is skipped (R166). -/
def State.visit (s : State) (k : Nat) : State :=
  if (s.mb k).lock.isSome then s
  else ((s.stampMailbox k).expireMailbox k).expireAbsence k

/-- The position moves on, and the pass ends after the last mailbox (R166). The position, the pass day and the
pass time stand as they were once the pass has ended (log 10). -/
def State.nextVisit (s : State) : State :=
  if s.house.passPos + 1 < s.cfg.mailboxes.length then
    s.onHouse fun h => { h with passPos := h.passPos + 1 }
  else s.onHouse fun h => { h with sched := .idle }

/-- PASS_VISIT (R166). -/
def execPassVisit (s : State) : Host.Outcome State Fault Refusal :=
  if s.house.sched = .running then act (s.visit s.house.passPos).nextVisit else discard s

end Sys2Proof.Machine
end

