-- ==== Sys2Proof/Machine/Channel.lean ====
section
/-! DEFINITION. What deposit and retrieval sessions share: references a channel holds, menus,
prompts, clearing and IDLE (R66-R72). -/

namespace Sys2Proof.Machine

/-- A holder gives up an object it was writing or holding: an OPEN one is discarded (R19), a COMPLETE
one loses a reference (R20). -/
def State.letGo (s : State) (n : Nat) : State :=
  match s.obj? n with
  | none => s
  | some o => if o.complete then s.dropRef n else s.discardObj n

/-- The channel drops its playing reference, if it holds one (R55, R89). -/
def State.dropPlaying (s : State) (i : Nat) : State :=
  (s.dropRefOpt (s.ch i).playing).onCh i fun c => { c with playing := none }

/-- The channel gives up its recording, if it has one. -/
def State.dropRecording (s : State) (i : Nat) : State :=
  (match (s.ch i).recording with
    | none => s
    | some n => s.letGo n).onCh i fun c => { c with recording := none, grant := 0 }

/-- The channel's recording has been handed on or has gone. -/
def State.forgetRecording (s : State) (i : Nat) : State :=
  s.onCh i fun c => { c with recording := none, grant := 0 }

/-- The channel enters IDLE: every reference it still holds is dropped and every field cleared
(R66, R84). -/
def State.toIdle (s : State) (i : Nat) : State :=
  ((s.dropPlaying i).dropRecording i).onCh i fun _ => Channel.idle

/-- The channel clears: ENDING with final prompts (R71). -/
def State.clearWith (s : State) (i : Nat) (ps : List Prompt) : State :=
  s.onCh i fun c => { c with
    state := .ending, sound := ps.map .prompt, digitTimer := none, interDigitTimer := none }

/-- CLEAR is sent, the clearing timer starts and the channel enters CLEARING (R71). -/
def State.toClearing (s : State) (i : Nat) : State :=
  (s.send (.clear i)).onCh i fun c => { c with
    state := .clearing, sound := [], clearingTimer := some Config.clearingTime, digitTimer := none,
    interDigitTimer := none }

/-- The mailbox a channel serves. -/
def State.served (s : State) (i : Nat) : Nat := (s.ch i).mailbox.getD 0

/-! ### The voice highway (R183) -/

/-- What a part of what a channel plays puts on the highway: an object its segments in chain order. -/
def State.soundAudio (s : State) : Sound → List SlotAudio
  | .object n => (s.objectAudio n).map .segment
  | .prompt p => [.part (.prompt p)]
  | .tone => [.part .tone]
  | .number n => [.part (.number n)]
  | .digits ds => [.part (.digits ds)]
  | .stamp m => [.part (.stamp m)]
  | .date d => [.part (.date d)]

/-- What channel `i` sends in its own slot: the audio it is playing, and silence while it plays nothing. -/
def State.slotAudio (s : State) (i : Nat) : List SlotAudio :=
  match (s.ch i).sound with
  | [] => [.silence]
  | x :: rest => (x :: rest).flatMap s.soundAudio

/-- The highway towards the switch: slot k carries channel k. -/
def State.highway (s : State) : List (List SlotAudio) := (List.range Config.channels).map s.slotAudio

/-! ### Menus (R68, R69) -/

/-- The states that are menus: they play a prompt and then wait for a digit (R69). -/
def ChanState.menu : ChanState → Bool
  | .options => true
  | .main => true
  | .message => true
  | .addressing => true
  | .listNumber => true
  | .sendOptions => true
  | .greetings => true
  | .endDay => true
  | .slot => true
  | .review => true
  | _ => false

/-- The name of a slot, whether it is recorded, and for ABSENCE its end day (R100). -/
def State.slotSounds (s : State) (k : Nat) (g : GreetSlot) : List Sound :=
  [.prompt (.slotName g),
    .prompt (if ((s.mb k).slotObj g).isSome then .recorded else .notRecorded)] ++
  (if g = .absence then
    (match (s.mb k).endDay with
      | none => [.prompt .noEndDate]
      | some d => [.date d])
  else []) ++ [.prompt .slotMenu]

/-- What a menu plays. A menu is played again at a silent repeat (R69); that SLOT then plays its name, what
it holds and its end day again with its menu prompt is the model's, since R100 does not say whether those
parts belong to the prompt (log 54). -/
def State.menuSounds (s : State) (i : Nat) : List Sound :=
  match (s.ch i).state with
  | .options => [.prompt .options]
  | .main => [.prompt .mainMenu]
  | .message => [.prompt .messageMenu]
  | .addressing => [.prompt .enterExtension]
  | .listNumber => [.prompt .enterList]
  | .sendOptions => [.prompt .sendMenu]
  | .greetings => [.prompt .greetingsMenu]
  | .endDay => [.prompt .enterEndDay]
  | .slot => s.slotSounds (s.served i) ((s.ch i).slot.getD .standard)
  | .review => [.prompt .reviewMenu]
  | _ => []

/-- The menu's prompt is played from its beginning; the digit timer waits for its end (R69). -/
def State.playMenu (s : State) (i : Nat) : State :=
  s.onCh i fun c => { c with
    sound := s.menuSounds i, digitTimer := none, interDigitTimer := none }

/-- The channel enters a menu: silent repeats 0 and its prompt played (R69). -/
def State.enterMenu (s : State) (i : Nat) (st : ChanState) : State :=
  (s.onCh i fun c => { c with state := st, silentRepeats := 0 }).playMenu i

/-- A digit with a meaning has been taken: the audio stops, the digit timer stops and silent repeats
are 0 (R68, R69). -/
def State.keyTaken (s : State) (i : Nat) : State :=
  s.onCh i fun c => { c with silentRepeats := 0, digitTimer := none, sound := [] }

/-- A digit with no meaning has been taken: a running digit timer starts again (R69). -/
def State.noMeaning (s : State) (i : Nat) : State :=
  s.onCh i fun c => { c with digitTimer := c.digitTimer.map fun _ => Config.digitTime }

/-- A non-final prompt plays, and then the channel goes on (log 11). -/
def State.prompting (s : State) (i : Nat) (ss : List Sound) (a : After) : State :=
  s.onCh i fun c => { c with
    state := .prompting a, sound := ss, digitTimer := none, interDigitTimer := none }

/-- A prompt, and then the channel goes on. -/
def State.promptThen (s : State) (i : Nat) (p : Prompt) (a : After) : State :=
  s.prompting i [.prompt p] a

/-! ### Opening a session (R70, R72) -/

/-- ANSWER is sent and the session timer starts (R70). -/
def State.answerCall (s : State) (i : Nat) : State :=
  (s.send (.answer i)).onCh i fun c => { c with sessionTimer := some Config.sessionTime }

end Sys2Proof.Machine
end

