-- ==== Sys2Proof/Machine/Deposit.lean ====
section
/-! DEFINITION. The deposit dialogue (04 Deposit Sessions). -/

namespace Sys2Proof.Machine

/-! ### The greeting (R74-R76) -/

/-- The digits of an extension, first to last (R54). -/
def decimalDigits (n : Nat) : List Nat := (Nat.toDigits 10 n).map fun c => c.toNat - 48

/-- The channel enters GREETING with the greeting chosen (R53, R54, R74): a reference is added in the
same act (R55). An add the store refuses leaves the audio without a reference; the count of a greeting
object never comes near the limit (R52). -/
def State.startGreeting (s : State) (i k : Nat) (r : CallReason) : State :=
  let g := s.chooseGreeting k r
  let obj := match g with
    | .recorded o _ => some o
    | .system n => n
  let sounds := match g with
    | .recorded o _ => [Sound.object o]
    | .system n => [.prompt .youHaveReached,
        (match n with
          | some o => .object o
          | none => .digits (decimalDigits (s.mbCfg k).extension)),
        .prompt .recordAfterTone]
  let held := obj.bind s.addRef
  (held.getD s).onCh i fun c => { c with
    state := .greeting, sound := sounds, playing := if held.isSome then obj else none
    absenceChosen := match g with
      | .recorded _ a => a
      | .system _ => false }

/-- The admission of a deposit that holds its reservation (R77, R80): the tone, or the return of the
reservation and "mailbox full". -/
def State.admitTone (s : State) (i : Nat) : State :=
  let k := s.served i
  match s.admitDeposit k with
  | (.granted n b, s1) => s1.onCh i fun c => { c with
      state := .tone, sound := [.tone], recording := some n, grant := b }
  | (_, s1) =>
    ((s1.returnRes k 0).onCh i fun c => { c with reservation := false }).clearWith i [.mailboxFull]

/-- The call goes to the tone (R77). -/
def State.goToTone (s : State) (i : Nat) : State :=
  match s.reserve (s.served i) with
  | (.granted, s1) => (s1.onCh i fun c => { c with reservation := true }).admitTone i
  | (_, s1) => s1.clearWith i [.mailboxFull]

/-- The greeting has ended by its end or by # (R74, R76). -/
def State.greetingEnded (s : State) (i : Nat) : State :=
  let s1 := s.dropPlaying i
  if (s1.ch i).absenceChosen && (s1.cls (s1.served i)).absenceBlocks then
    s1.clearWith i [.notAccepting]
  else s1.goToTone i

/-- A key in GREETING (R74, R75). -/
def State.greetingKey (s : State) (i : Nat) (key : Key) : State :=
  match key, (s.cls (s.served i)).operator with
  | .num 0, some ext =>
    (((s.keyTaken i).dropPlaying i).send (.transfer i ext)).onCh i fun c =>
      { c with state := .transferring }
  | .hash, _ => (s.keyTaken i).greetingEnded i
  | _, _ => s.noMeaning i

/-! ### Recording (R78-R80) -/

/-- The channel gives its reservation back with a grant (R34). -/
def State.giveBack (s : State) (i grant : Nat) : State :=
  (s.returnRes (s.served i) grant).onCh i fun c => { c with
    reservation := false, recording := none, grant := 0 }

/-- A recording ended by key, spent earmark or silence (R79). -/
def State.closeDeposit (s : State) (i trim : Nat) (spent : Bool) : State :=
  match (s.ch i).recording with
  | none => s
  | some n =>
    match s.closeObj n trim 1 with
    | (false, s1) => (s1.giveBack i (s1.ch i).grant).clearWith i [.tooShort, .farewell]
    | (true, s1) =>
      if spent then s1.onCh i fun c => { c with state := .timeUp, sound := [.prompt .timeIsUp] }
      else s1.enterMenu i .options

/-- The grant goes back, the reservation stays, and the "record after the tone" prompt plays (R80,
steps 2-4). -/
def State.recordAgain (s : State) (i : Nat) : State :=
  ((s.returnGrant (s.served i) (s.ch i).grant).forgetRecording i).onCh i fun c => { c with
    state := .recordPrompt, sound := [.prompt .recordAfterTone], digitTimer := none }

/-- Key * while recording (R80). -/
def State.cancelDeposit (s : State) (i : Nat) : State :=
  (match (s.ch i).recording with
    | none => s
    | some n => s.discardObj n).recordAgain i

/-- A key in RECORDING (R78). -/
def State.recordingKey (s : State) (i : Nat) (key : Key) : State :=
  match key with
  | .hash => s.closeDeposit i 0 false
  | .star => s.cancelDeposit i
  | .num _ => s

/-- A captured segment in RECORDING (R78, R79). -/
def State.depositSegment (s : State) (i : Nat) (seg : Segment) : State :=
  match (s.ch i).recording with
  | none => s
  | some n =>
    match s.append n seg with
    | none => s.closeDeposit i 0 true
    | some s1 =>
      if Config.silenceEnd ≤ s1.silentTail n then s1.closeDeposit i Config.silenceEnd false else s1

/-! ### Sending (R81, R82) -/

/-- The value of a string of digits. -/
def digitsValue (ds : List Nat) : Nat := ds.foldl (fun n d => n * 10 + d) 0

/-- An identity that counts as an extension (R82). -/
def identityExtension (ds : List Nat) : Option Nat :=
  if (ds.length = 4 || ds.length = 5) && ds.head? != some 0 && wfExtension (digitsValue ds) then
    some (digitsValue ds)
  else none

/-- The origin of a deposit (R36, R82). -/
def Channel.origin (c : Channel) : Option Nat :=
  if c.internal then c.identity.bind identityExtension else none

/-- The channel sends: its COMPLETE recording is committed and its reference handed to the entry
(R82). -/
def State.sendDeposit (s : State) (i : Nat) (urgent : Bool) : State :=
  let c := s.ch i
  match c.recording with
  | none => s
  | some n =>
    (s.commit (s.served i) (Entry.ofObject .voice urgent c.origin c.identity n s.cfg.node) true
      c.grant).onCh i fun c => { c with
        recording := none, grant := 0, reservation := false, urgent := urgent }

/-- "Message sent", then the farewell (R82). -/
def State.sentAndClear (s : State) (i : Nat) (urgent : Bool) : State :=
  (s.sendDeposit i urgent).clearWith i [.messageSent, .farewell]

/-- A key in OPTIONS (R81). A digit of no meaning plays the prompt again; R69 would start a running digit timer
again at once, and the model starts it when the replayed prompt ends (log 25). -/
def State.optionsKey (s : State) (i : Nat) (key : Key) : State :=
  match key with
  | .num 1 => (s.keyTaken i).sentAndClear i false
  | .num 2 => (s.keyTaken i).sentAndClear i true
  | .num 3 =>
    let s1 := s.keyTaken i
    (match (s1.ch i).recording with
      | none => s1
      | some n => s1.dropRef n).recordAgain i
  | .num 0 =>
    let s1 := s.keyTaken i
    ((match (s1.ch i).recording with
      | none => s1
      | some n => s1.dropRef n).giveBack i (s1.ch i).grant).clearWith i [.farewell]
  | _ => s.playMenu i

/-- A RELEASE or the session limit reaching a recording (R82): the partly captured segment is
appended unless the earmark is spent, the object is closed with its silent tail as the trim, and it is
sent with urgent clear or returned as too short. -/
def State.padAndSend (s : State) (i : Nat) (gathered : Option Segment) : State :=
  match (s.ch i).recording with
  | none => s
  | some n =>
    let s1 := (gathered.bind (s.append n)).getD s
    match s1.closeObj n (s1.silentTail n) 1 with
    | (false, s2) => s2.giveBack i (s2.ch i).grant
    | (true, s2) => s2.sendDeposit i false

/-- A deposit in TONE ends: the empty object is discarded and the reservation returned (R77). -/
def State.leaveTone (s : State) (i : Nat) : State :=
  (match (s.ch i).recording with
    | none => s
    | some n => s.discardObj n).giveBack i (s.ch i).grant

end Sys2Proof.Machine
end

