-- ==== Sys2Proof/Machine/Retrieval.lean ====
section
/-! DEFINITION. The retrieval dialogue but for the greeting menus (05 Retrieval Sessions). -/

namespace Sys2Proof.Machine

/-! ### The summary (R86) -/

/-- A count as it is spoken: 0 is "no" (R86). -/
def countSound (n : Nat) : Sound := if n = 0 then .prompt .no else .number n

/-- The counts of a list as SUMMARY plays them (R86). -/
def Mailbox.summary (m : Mailbox) : List Sound :=
  let u := (m.entries.filter fun e => e.state == .new && e.urgent).length
  let old := (m.entries.filter fun e => e.state != .new).length
  if m.entries.isEmpty then [.prompt .noMessagesAtAll]
  else
    [.prompt .youHave, countSound m.newCount, .prompt .newMessages] ++
    (if u = 0 then [] else [.number u, .prompt .ofThemUrgent]) ++
    [countSound old, .prompt .oldMessages]

/-! ### Presentation order (R87) -/

/-- The presentation order of a list, erase-pending entries left out (R87). -/
def Mailbox.order (m : Mailbox) : List Entry :=
  let es := m.entries.filter fun e => decide (e.number ∉ m.erasePending)
  es.filter (fun e => e.state == .new && e.urgent) ++
    es.filter (fun e => e.state == .new && !e.urgent) ++ es.filter fun e => e.state != .new

/-- The first entry of the order that is not in the presented set (R87). -/
def State.nextEntry (s : State) (i : Nat) : Option Entry :=
  (s.mb (s.served i)).order.find? fun e => decide (e.number ∉ (s.ch i).presented)

/-! ### Playing an entry (R89) -/

/-- The envelope of an entry (R89). -/
def State.envelope (s : State) (e : Entry) : List Sound :=
  [.prompt .messageWord, .number e.number] ++
  (if e.urgent then [.prompt .urgentWord] else []) ++
  (match e.arrival with
    | some m => [.prompt .received, .stamp m]
    | none => []) ++
  (match e.origin, e.identity with
    | some o, _ => [.prompt .fromExtension, .digits (decimalDigits o)]
    | none, some ds => [.prompt .fromWord, .digits ds]
    | none, none => []) ++
  (if e.originNode = s.cfg.node then [] else [.prompt .fromAnotherBuilding])

/-- What a NOTICE says (R89). -/
def Entry.noticeSounds (e : Entry) : List Sound :=
  let t := e.target.getD 0
  (match e.reason with
    | some .unknown => [.prompt .yourMessageToExtension, .digits (decimalDigits t),
        .prompt .noSuchMailboxDelivery]
    | some .full => [.prompt .yourMessageToExtension, .digits (decimalDigits t),
        .prompt .fullDelivery]
    | some .unreachable => [.prompt .yourMessageToExtension, .digits (decimalDigits t),
        .prompt .unreachedDelivery]
    | some .listPartial => [.prompt .yourMessageToList, .number t, .prompt .didNotReach,
        .number (e.unreached.getD 0), .prompt .buildings]
    | none => []) ++
  (match e.subject with
    | some n => [.prompt .yourMessageNumber, .digits (decimalDigits n)]
    | none => [])

/-- Entry `e` is presented (R87, R89): it becomes current, joins the presented set and plays. When the
reference add is refused, the "message no longer available" prompt takes the place of the content. -/
def State.present (s : State) (i : Nat) (e : Entry) : State :=
  let s1 := s.onCh i fun c => { c with
    current := some e.number, currentGone := false, presented := joinSet c.presented e.number,
    digitTimer := none, interDigitTimer := none, silentRepeats := 0 }
  let env := s.envelope e
  if e.kind = .notice then
    s1.onCh i fun c => { c with state := .playing, sound := env ++ e.noticeSounds }
  else
    match e.object.bind s1.addRef with
    | some s2 => s2.onCh i fun c => { c with
        state := .playing, playing := e.object, sound := env ++ [.object (e.object.getD 0)] }
    | none => s1.onCh i fun c => { c with
        state := .playing, sound := env ++ [.prompt .unavailable] }

/-- The entry that plays has no content: its reference add was refused, and the "message no longer
available" prompt stands in its place (R89). -/
def Channel.contentRefused (c : Channel) : Bool :=
  c.state == .playing && c.playing.isNone && c.sound.getLast? == some (.prompt .unavailable)

/-- The next entry is presented as key 6 would (R87). R87 says what follows an order with no next entry for
key 6, for the advance after an erase and for key 1; the model does as for key 6 in every other case: a key
on a gone entry (R88) and a playback without content (R89) (log 42). -/
def State.presentNext (s : State) (i : Nat) : State :=
  match s.nextEntry i with
  | some e => s.present i e
  | none => (s.onCh i fun c => { c with current := none, currentGone := false }).promptThen i .noMore
      .main

/-- Key 1 in MAIN (R87). -/
def State.listen (s : State) (i : Nat) : State :=
  match s.nextEntry i, (s.mb (s.served i)).order with
  | some e, _ => s.present i e
  | none, e :: _ => (s.onCh i fun c => { c with presented := [] }).present i e
  | none, [] => s.promptThen i .noMessages .main

/-- The current entry, unless it is gone (R88). -/
def State.currentEntry (s : State) (i : Nat) : Option Entry :=
  let c := s.ch i
  if c.currentGone then none else c.current.bind (s.mb (s.served i)).entry?

/-- A playback ends (R89): the reference is dropped, and an end by the audio's end or a key is
reported to the Directory (R42); the end of a gone entry's playback is reported to no entry (R88), and
that of a playback without content not at all (R89). -/
def State.endPlayback (s : State) (i : Nat) (release : Bool) : State :=
  let s1 := s.dropPlaying i
  let c := s1.ch i
  if release || c.currentGone || (s.ch i).contentRefused then s1
  else match c.current with
    | none => s1
    | some num => (s1.askHeard (s1.served i) i num).2

/-! ### Addressing (R93) -/

/-- The channel goes to ADDRESSING (R93). -/
def State.enterAddressing (s : State) (i : Nat) (r : ReturnState) : State :=
  (s.onCh i fun c => { c with returnState := some r, address := [], invalid := 0 }).enterMenu i
    .addressing

/-- The channel goes to LIST_NUMBER (R93, R99). -/
def State.enterList (s : State) (i : Nat) (r : ReturnState) : State :=
  (s.onCh i fun c => { c with returnState := some r, address := [], invalid := 0 }).enterMenu i
    .listNumber

/-- The channel enters its return state with the send target absent. -/
def State.goReturn (s : State) (i : Nat) : State :=
  let s1 := s.onCh i fun c => { c with target := none, address := [] }
  s1.enterMenu i (match (s1.ch i).returnState with
    | some .message => .message
    | _ => .main)

/-- An invalid entry of an addressing step (R93, R96): the prompt, the invalid count, and the step
again or, at the third, the return state. At a third invalid entry that is a DISABLED or IN_RANGE result R93
names its own prompt and R96 another; the model plays R96's alone (log 41). -/
def State.addressInvalid (s : State) (i : Nat) (p : Prompt) (again : After) : State :=
  let s1 := s.onCh i fun c => { c with address := [], invalid := c.invalid + 1 }
  s1.promptThen i p (if 3 ≤ (s1.ch i).invalid then .returnState else again)

/-! ### Recording for sending (R96, R97) -/

/-- The channel asks for a recording for sending to its target (R96). -/
def State.startSend (s : State) (i : Nat) (t : SendTarget) : State :=
  match s.admitSend (s.served i) with
  | (.granted n b, s1) => s1.onCh i fun c => { c with
      target := some t, recording := some n, grant := b, state := .sendPrompt,
      sound := [.prompt .recordAfterTone], digitTimer := none, interDigitTimer := none }
  | (_, s1) => s1.promptThen i .cannotRecordNow .returnState

/-- The recording for sending ends by key #, spent earmark or silence (R97). -/
def State.closeSend (s : State) (i trim : Nat) (spent : Bool) : State :=
  match (s.ch i).recording with
  | none => s
  | some n =>
    match s.closeObj n trim 1 with
    | (false, s1) => (s1.forgetRecording i).promptThen i .tooShort .returnState
    | (true, s1) =>
      if spent then s1.onCh i fun c => { c with state := .sendTimeUp, sound := [.prompt .timeIsUp] }
      else s1.enterMenu i .sendOptions

/-- A captured segment in SEND_RECORDING (R97). -/
def State.sendSegment (s : State) (i : Nat) (seg : Segment) : State :=
  match (s.ch i).recording with
  | none => s
  | some n =>
    match s.append n seg with
    | none => s.closeSend i 0 true
    | some s1 =>
      if Config.silenceEnd ≤ s1.silentTail n then s1.closeSend i Config.silenceEnd false else s1

/-- A key while capturing for sending (R97). -/
def State.sendCaptureKey (s : State) (i : Nat) (key : Key) : State :=
  match key with
  | .hash => s.closeSend i 0 false
  | .star => (s.dropRecording i).promptThen i .messageCancelled .returnState
  | .num _ => s

/-! ### Forwarding and addresses (R94, R96) -/

/-- A forward of the current entry to an extension (R94). For a FOREIGN one that the queue refuses because the
object takes no further reference, R94 gives two prompts; the model plays that of the FOREIGN row (log 52). -/
def State.forwardTo (s : State) (i ext : Nat) : State :=
  let k := s.served i
  match s.currentEntry i with
  | none => s.promptThen i .unavailable .presentNext
  | some e =>
    match e.object with
    | none => s.promptThen i .cannotForward .message
    | some o =>
      match s.find ext with
      | .homed t =>
        match s.forward o t k e.urgent with
        | (.done, s1) => s1.promptThen i .messageForwarded .message
        | (_, s1) => s1.promptThen i .cannotAccept .message
      | .disabled _ => s.promptThen i .cannotAccept .message
      | .inRange => s.promptThen i .noSuchMailbox .message
      | .foreign =>
        match s.offerDirect ext o k (some e.number) e.urgent with
        | (true, s1) => s1.promptThen i .willBeDelivered .message
        | (false, s1) => s1.promptThen i .cannotBeSentNow .message

/-- The target of key 2 in MAIN (R96). -/
def State.sendTo (s : State) (i ext : Nat) : State :=
  match s.find ext with
  | .homed t => s.startSend i (.homed ext t)
  | .foreign => s.startSend i (.foreign ext)
  | .disabled _ => s.addressInvalid i .cannotAccept .addressing
  | .inRange => s.addressInvalid i .noSuchMailbox .addressing

/-- Address digits that are valid: 4 or 5 of them, the first not 0 (R93). -/
def validAddress (ds : List Nat) : Bool :=
  (ds.length = 4 || ds.length = 5) && ds.head? != some 0

/-- Digits of a valid list number: one or two forming 0-31 (R93). -/
def validList (ds : List Nat) : Bool :=
  (ds.length = 1 || ds.length = 2) && digitsValue ds < 32

/-- The entry of an addressing step ends (R93). -/
def State.addressEnd (s : State) (i : Nat) : State :=
  let c := s.ch i
  if validAddress c.address then
    (if c.returnState = some .message then s.forwardTo i (digitsValue c.address)
     else s.sendTo i (digitsValue c.address))
  else s.addressInvalid i .extensionNotValid .addressing

/-- The entry of a list number ends (R93, R96). -/
def State.listEnd (s : State) (i : Nat) : State :=
  let c := s.ch i
  if validList c.address then s.startSend i (.list (digitsValue c.address))
  else s.addressInvalid i .listNotValid .listNumber

/-- A digit joins the address digits and starts the inter-digit timer (R93). -/
def State.joinAddress (s : State) (i d : Nat) : State :=
  (s.keyTaken i).onCh i fun c => { c with
    address := c.address ++ [d], interDigitTimer := some Config.interDigitTime }

/-- The inter-digit timer stops and the addressing step acts. -/
def State.stopInterDigit (s : State) (i : Nat) : State :=
  s.onCh i fun c => { c with interDigitTimer := none }

/-- A key in ADDRESSING (R93). -/
def State.addressKey (s : State) (i : Nat) (key : Key) : State :=
  match key with
  | .num d =>
    let s1 := s.joinAddress i d
    if 5 ≤ (s1.ch i).address.length then (s1.stopInterDigit i).addressEnd i else s1
  | .hash => ((s.keyTaken i).stopInterDigit i).addressEnd i
  | .star => ((s.keyTaken i).stopInterDigit i).goReturn i

/-- A key in LIST_NUMBER (R93). -/
def State.listKey (s : State) (i : Nat) (key : Key) : State :=
  match key with
  | .num d =>
    let s1 := s.joinAddress i d
    if 2 ≤ (s1.ch i).address.length then (s1.stopInterDigit i).listEnd i else s1
  | .hash => ((s.keyTaken i).stopInterDigit i).listEnd i
  | .star => ((s.keyTaken i).stopInterDigit i).goReturn i

/-! ### Sending (R98, R99) -/

/-- The nodes shown present, this one left out, in ascending number (R99). -/
def State.presentNodes (s : State) : List Nat :=
  ((List.range 31).filter fun n => s.isPresent n && n != s.cfg.node)

/-- What is said after a list send: N local mailboxes and K buildings (R99). -/
def listSentSounds (n k : Nat) : List Sound :=
  if n = 0 && k = 0 then [.prompt .listHasNoMembers]
  else [.prompt .sentTo, .number n, .prompt .mailboxesHere] ++
    (if k = 0 then [] else [.prompt .andTo, .number k, .prompt .otherBuildings])

/-- A send of COMPLETE object `n` to list `l` (R99). -/
def State.sendList (s : State) (i n l : Nat) (urgent : Bool) : State :=
  let k := s.served i
  match s.convert n with
  | none =>
    ((s.dropRef n).forgetRecording i).promptThen i .broadcastCannotBeSent .returnState
  | some s1 =>
    let nodes := s1.presentNodes
    match (if nodes.isEmpty then (true, s1) else s1.offerLists l n k urgent nodes) with
    | (false, s2) =>
      ((s2.dropRef n).forgetRecording i).promptThen i .broadcastCannotBeSent .returnState
    | (true, s2) =>
      let (served, s3) := s2.broadcast n l k urgent
      ((s3.dropRef n).forgetRecording i).prompting i (listSentSounds served nodes.length) .returnState

/-- A send from SEND_OPTIONS (R98). -/
def State.sendRecording (s : State) (i : Nat) (urgent : Bool) : State :=
  let k := s.served i
  let s := s.onCh i fun c => { c with urgent := urgent }
  match (s.ch i).recording, (s.ch i).target with
  | some n, some (.homed _ t) =>
    match s.forward n t k urgent with
    | (.done, s1) => ((s1.dropRef n).forgetRecording i).promptThen i .messageSent .returnState
    | (_, s1) => ((s1.dropRef n).forgetRecording i).promptThen i .cannotAccept .returnState
  | some n, some (.foreign ext) =>
    match s.offerDirect ext n k none urgent with
    | (true, s1) => ((s1.dropRef n).forgetRecording i).promptThen i .willBeDelivered .returnState
    | (false, s1) => ((s1.dropRef n).forgetRecording i).promptThen i .cannotBeSentNow .returnState
  | some n, some (.list l) => s.sendList i n l urgent
  | _, _ => s.goReturn i

/-- A key in SEND_OPTIONS (R98). -/
def State.sendOptionsKey (s : State) (i : Nat) (key : Key) : State :=
  match key with
  | .num 1 => (s.keyTaken i).sendRecording i false
  | .num 2 => (s.keyTaken i).sendRecording i true
  | .num 3 =>
    let s1 := (s.keyTaken i).dropRecording i
    match (s1.ch i).target with
    | none => s1.goReturn i
    | some t => s1.startSend i t
  | .num 0 => ((s.keyTaken i).dropRecording i).promptThen i .messageCancelled .returnState
  | _ => s.noMeaning i

/-! ### The message menu (R90-R92, R96) -/

/-- A reply to an entry (R96). -/
def State.reply (s : State) (i : Nat) (e : Entry) : State :=
  match e.origin with
  | none => s.promptThen i .cannotReply .message
  | some ext =>
    let s1 := s.onCh i fun c => { c with returnState := some .message }
    match s1.find ext with
    | .homed t => s1.startSend i (.homed ext t)
    | .foreign => s1.startSend i (.foreign ext)
    | .disabled _ => s1.promptThen i .cannotAccept .message
    | .inRange => s1.promptThen i .noSuchMailbox .message

/-- A key with a meaning in PLAYING ends the playback first (R90). -/
def State.messageTaken (s : State) (i : Nat) : State :=
  (if (s.ch i).state = .playing then s.endPlayback i false else s).keyTaken i

/-- Keys 4, 5, 7, 8 and 9, which act on the current entry; while it is gone they say so and present
the next (R88, R90-R92). -/
def State.entryKey (s : State) (i n : Nat) : State :=
  let k := s.served i
  match s.currentEntry i with
  | none => s.promptThen i .unavailable .presentNext
  | some e =>
    match n with
    | 4 => s.present i e
    | 5 =>
      if e.kind = .notice then s.promptThen i .cannotForward .message
      else s.enterAddressing i .message
    | 7 => (s.askErase k i e.number).2.promptThen i .messageErased .presentNext
    | 8 => s.reply i e
    | _ => (s.askSave k i e.number).2.promptThen i .messageSaved .message

/-- A key in PLAYING or MESSAGE (R90). -/
def State.messageKey (s : State) (i : Nat) (key : Key) : State :=
  match key with
  | .hash => (s.messageTaken i).enterMenu i .message
  | .star =>
    ((s.messageTaken i).onCh i fun c => { c with current := none, currentGone := false }).enterMenu i
      .main
  | .num 6 => (s.messageTaken i).presentNext i
  | .num n =>
    if 4 ≤ n && n ≤ 9 then (s.messageTaken i).entryKey i n else s.noMeaning i

/-! ### Session end (R101) -/

/-- A retrieval session ends (R101): the playback, the recording, the Directory's session end, then
IDLE after a release and ENDING with the farewell after any other cause. -/
def State.endRetrieval (s : State) (i : Nat) (release : Bool) : State :=
  let s1 := if (s.ch i).state = .playing then s.endPlayback i release else s.dropPlaying i
  let s2 := s1.dropRecording i
  let s3 := (s2.onCh i fun c => { c with
    pendingEnd := none, target := none, endDigits := [], address := [] }).sessionEnd (s2.served i) i
  if release then s3.toIdle i else s3.clearWith i [.farewell]

/-- A key in SUMMARY or MAIN (R86). -/
def State.mainKey (s : State) (i : Nat) (key : Key) : State :=
  match key with
  | .num 1 => (s.keyTaken i).listen i
  | .num 2 => (s.keyTaken i).enterAddressing i .main
  | .num 3 => (s.keyTaken i).enterMenu i .greetings
  | .num 8 =>
    if (s.cls (s.served i)).mayBroadcast then (s.keyTaken i).enterList i .main
    else (s.keyTaken i).promptThen i .listNotPermitted .main
  | .star => (s.keyTaken i).endRetrieval i false
  | _ => s.noMeaning i

end Sys2Proof.Machine
end

