-- ==== Sys2Proof/Machine/Greetings.lean ====
section
/-! DEFINITION. The greeting menus of a retrieval session: choosing a slot, end days, recording,
review, hearing and deleting (03 Greetings and Names; R100). -/

namespace Sys2Proof.Machine

/-! ### Dates (R61) -/

/-- A year 2000 + n is a leap year. -/
def leapYear (n : Nat) : Bool := n % 4 = 0 && (n % 100 ≠ 0 || n % 400 = 0)

/-- The day number of 1 January 2000 + n: day 0 is 1 January 2000 (00_scope, Units). -/
def yearStart (n : Nat) : Nat := 365 * n + (n + 3) / 4 - (n + 99) / 100 + (n + 399) / 400

/-- The length of month `m`, with February at 29 days in a leap year. -/
def monthLength (leap : Bool) (m : Nat) : Nat :=
  if m = 2 then (if leap then 29 else 28)
  else if m = 4 || m = 6 || m = 9 || m = 11 then 30 else 31

/-- The days of a year before month `m`. -/
def daysBefore (leap : Bool) (m : Nat) : Nat :=
  ((List.range (m - 1)).map fun i => monthLength leap (i + 1)).sum

/-- The day number of day `d` of month `m` of year 2000 + n; none for 29 February of a year that has
none. -/
def dayNumber (n m d : Nat) : Option Nat :=
  if d ≤ monthLength (leapYear n) m then
    some (yearStart n + daysBefore (leapYear n) m + d - 1)
  else none

/-- A date is valid (R61): February counts 29 days. -/
def validDate (m d : Nat) : Bool := 1 ≤ m && m ≤ 12 && 1 ≤ d && d ≤ monthLength true m

/-- The day number of the next occurrence of a valid date on or after `today` (R61). Two 29ths of
February lie at most 8 years apart, and today / 366 is at most two years early. R61 does not say what becomes
of a next occurrence past day 65,535, the end of the range of day numbers (R160, R65): the model keeps the
number as it is, and a warm start then takes it as out of range (R65) (log 58). -/
def nextOccurrence (today m d : Nat) : Option Nat :=
  (List.range 12).findSome? fun i =>
    (dayNumber (today / 366 + i) m d).bind fun n => if today ≤ n then some n else none

/-! ### End-day entry (R61, R62) -/

/-- The channel enters END_DAY for ABSENCE (R100). -/
def State.enterEndDay (s : State) (i : Nat) : State :=
  (s.onCh i fun c => { c with endDigits := [], endInvalid := 0 }).enterMenu i .endDay

/-- The resulting end day: written at once, by a request to the Directory (R52), when the ABSENCE slot is
occupied, and held as pending otherwise (R62). -/
def State.applyEnd (s : State) (i : Nat) (d : Option Nat) : State :=
  if (s.mb (s.served i)).absence.isSome then (s.askEndDay (s.served i) i d).2
  else s.onCh i fun c => { c with pendingEnd := d }

/-- An invalid date (R61): the prompt, and the entry again or, after the third, the slot's menu with
the end day left as it is. -/
def State.endInvalid (s : State) (i : Nat) : State :=
  let s1 := s.onCh i fun c => { c with endDigits := [], endInvalid := c.endInvalid + 1 }
  s1.promptThen i .dateNotValid (if 3 ≤ (s1.ch i).endInvalid then .slot else .endDay)

/-- Four digits have been keyed (R61, R62). -/
def State.endDate (s : State) (i : Nat) : State :=
  let v := digitsValue (s.ch i).endDigits
  if validDate (v / 100) (v % 100) then
    let s1 := s.onCh i fun c => { c with endDigits := [] }
    match s1.today with
    | none => (s1.applyEnd i none).promptThen i .dateCannotBeSet .slot
    | some t => (s1.applyEnd i (nextOccurrence t (v / 100) (v % 100))).enterMenu i .slot
  else s.endInvalid i

/-- A key in END_DAY (R61): # and * are read as the first digit only (log 29), and each digit starts
the 6 s again. -/
def State.endDayKey (s : State) (i : Nat) (key : Key) : State :=
  match key with
  | .num d =>
    let s1 := (s.keyTaken i).onCh i fun c => { c with
      endDigits := c.endDigits ++ [d], digitTimer := some Config.digitTime }
    if 4 ≤ (s1.ch i).endDigits.length then
      (s1.onCh i fun c => { c with digitTimer := none }).endDate i
    else s1
  | .hash =>
    if (s.ch i).endDigits.isEmpty then ((s.keyTaken i).applyEnd i none).enterMenu i .slot
    else s.noMeaning i
  | .star =>
    if (s.ch i).endDigits.isEmpty then (s.keyTaken i).enterMenu i .slot
    else s.noMeaning i

/-! ### The menus (R100) -/

/-- A slot has been chosen in GREETINGS (R100). -/
def State.chooseSlot (s : State) (i : Nat) (g : GreetSlot) : State :=
  let s1 := (s.keyTaken i).onCh i fun c => { c with slot := some g }
  if g = .absence then s1.enterEndDay i else s1.enterMenu i .slot

/-- The slot menus are left: the slot and a pending end day are forgotten (R62, R100). -/
def State.leaveSlot (s : State) (i : Nat) (st : ChanState) : State :=
  (s.onCh i fun c => { c with slot := none, pendingEnd := none }).enterMenu i st

/-- A key in GREETINGS (R100). -/
def State.greetingsKey (s : State) (i : Nat) (key : Key) : State :=
  match key with
  | .num 1 => s.chooseSlot i .standard
  | .num 2 => s.chooseSlot i .busy
  | .num 3 => s.chooseSlot i .absence
  | .num 4 => s.chooseSlot i .name
  | .star => (s.keyTaken i).leaveSlot i .main
  | _ => s.noMeaning i

/-- The slot the menus stand at. -/
def State.slotOf (s : State) (i : Nat) : GreetSlot := (s.ch i).slot.getD .standard

/-- The owner asks to hear the slot (R55, R60): a reference is added in the same act. R60 does not say what
plays when the store refuses the add (R20); the model plays "no greeting recorded" (log 30). -/
def State.playSlot (s : State) (i : Nat) : State :=
  match (s.mb (s.served i)).slotObj (s.slotOf i) with
  | none => s.promptThen i .noGreeting .slot
  | some n =>
    match s.addRef n with
    | none => s.promptThen i .noGreeting .slot
    | some s1 => s1.onCh i fun c => { c with playing := some n, sound := [.object n] }

/-- The owner asks to record into the slot (R56). -/
def State.recordSlot (s : State) (i : Nat) : State :=
  match s.admitGreeting (s.served i) (s.slotOf i) with
  | (.granted n b, s1) => s1.onCh i fun c => { c with
      state := .greetPrompt, sound := [.prompt .recordAfterTone], recording := some n, grant := b
      digitTimer := none }
  | (_, s1) => s1.promptThen i .greetingCannotBeRecorded .slot

/-- The owner asks to delete the slot (R52, R60). The session of a channel without the lock, which no run
reaches, hears no prompt and stays in the slot's menu (log 30). -/
def State.deleteSlot (s : State) (i : Nat) : State :=
  let k := s.served i
  let g := s.slotOf i
  if ((s.mb k).slotObj g).isSome then
    match s.askEmpty k i g with
    | (true, s1) => s1.promptThen i .greetingDeleted .slot
    | (false, s1) => s1.enterMenu i .slot
  else (if g = .absence then (s.askEndDay k i none).2 else s).promptThen i .noGreeting .slot

/-- A key with a meaning in SLOT ends the playback of the slot, if one is under way (log 14). -/
def State.slotTaken (s : State) (i : Nat) : State := (s.keyTaken i).dropPlaying i

/-- A key in SLOT (R100). -/
def State.slotKey (s : State) (i : Nat) (key : Key) : State :=
  match key with
  | .num 5 => (s.slotTaken i).playSlot i
  | .num 6 => (s.slotTaken i).recordSlot i
  | .num 7 => (s.slotTaken i).deleteSlot i
  | .hash => (s.slotTaken i).leaveSlot i .greetings
  | .star => (s.slotTaken i).leaveSlot i .main
  | _ => s.noMeaning i

/-! ### Recording a greeting (R57, R58) -/

/-- Review begins: the new recording is played back under the channel's own reference (R58). -/
def State.startReview (s : State) (i : Nat) : State :=
  s.onCh i fun c => { c with
    state := .review, silentRepeats := 0, digitTimer := none
    sound := match c.recording with
      | none => []
      | some n => [.object n] }

/-- A greeting recording ends by key # or spent earmark (R57). -/
def State.closeGreet (s : State) (i : Nat) (spent : Bool) : State :=
  match (s.ch i).recording with
  | none => s
  | some n =>
    match s.closeObj n 0 1 with
    | (false, s1) => (s1.forgetRecording i).promptThen i .tooShort .slot
    | (true, s1) =>
      if spent then s1.onCh i fun c => { c with state := .greetTimeUp, sound := [.prompt .timeIsUp] }
      else s1.startReview i

/-- A captured segment in GREETING_RECORDING (R56, R57): the silent tail does not end it. -/
def State.greetSegment (s : State) (i : Nat) (seg : Segment) : State :=
  match (s.ch i).recording with
  | none => s
  | some n =>
    match s.append n seg with
    | none => s.closeGreet i true
    | some s1 => s1

/-- A key while capturing a greeting (R57). -/
def State.greetCaptureKey (s : State) (i : Nat) (key : Key) : State :=
  match key with
  | .hash => s.closeGreet i false
  | .star => (s.dropRecording i).enterMenu i .slot
  | .num _ => s

/-- The accept of the channel's new recording (R52, R59, R62): its reference is handed to the slot. A channel
without the lock, which no run reaches, keeps its recording and stays in review (log 30). -/
def State.acceptGreeting (s : State) (i : Nat) : State :=
  match (s.ch i).recording with
  | none => s
  | some n =>
    match s.askAccept (s.served i) i (s.slotOf i) n (s.ch i).pendingEnd with
    | (false, s1) => s1
    | (true, s1) =>
      ((s1.forgetRecording i).onCh i fun c => { c with pendingEnd := none }).promptThen i
        .greetingSaved .slot

/-- A key in REVIEW (R58). -/
def State.reviewKey (s : State) (i : Nat) (key : Key) : State :=
  match key with
  | .num 1 => (s.keyTaken i).acceptGreeting i
  | .num 2 => ((s.keyTaken i).dropRecording i).recordSlot i
  | .star => ((s.keyTaken i).dropRecording i).enterMenu i .slot
  | _ => s.noMeaning i

end Sys2Proof.Machine
end

