-- ==== Sys2Proof/Machine/Sessions.lean ====
section
/-! DEFINITION. The commands that act on a channel: the records CALL, RETRIEVE, DIGIT and RELEASE, the
channel timers, captured segments and the ends of prompts and playbacks (04 Deposit Sessions, 05
Retrieval Sessions). -/

namespace Sys2Proof.Machine

/-! ### Taking digits (R67) -/

/-- The states that take digits (4.2, 5.1, R58). -/
def ChanState.takesDigits : ChanState → Bool
  | .greeting => true
  | .recording => true
  | .options => true
  | .summary => true
  | .main => true
  | .playing => true
  | .message => true
  | .addressing => true
  | .listNumber => true
  | .sendCapture => true
  | .sendOptions => true
  | .greetings => true
  | .endDay => true
  | .slot => true
  | .greetCapture => true
  | .review => true
  | .idle => false
  | .transferring => false
  | .recordPrompt => false
  | .tone => false
  | .timeUp => false
  | .ending => false
  | .clearing => false
  | .sendPrompt => false
  | .sendTone => false
  | .sendTimeUp => false
  | .greetPrompt => false
  | .greetTone => false
  | .greetTimeUp => false
  | .prompting _ => false

/-- The channel's state takes a digit. -/
def State.onKey (s : State) (i : Nat) (key : Key) : State :=
  match (s.ch i).state with
  | .greeting => s.greetingKey i key
  | .recording => s.recordingKey i key
  | .options => s.optionsKey i key
  | .summary => s.mainKey i key
  | .main => s.mainKey i key
  | .playing => s.messageKey i key
  | .message => s.messageKey i key
  | .addressing => s.addressKey i key
  | .listNumber => s.listKey i key
  | .sendCapture => s.sendCaptureKey i key
  | .sendOptions => s.sendOptionsKey i key
  | .greetings => s.greetingsKey i key
  | .endDay => s.endDayKey i key
  | .slot => s.slotKey i key
  | .greetCapture => s.greetCaptureKey i key
  | .review => s.reviewKey i key
  | _ => s

/-- The digit at the head of the type-ahead is taken, and the next while the state reached takes
digits (R67). -/
def State.takeDigitsFuel : Nat → State → Nat → State
  | 0, s, _ => s
  | fuel + 1, s, i =>
    if (s.ch i).state.takesDigits then
      match (s.ch i).typeAhead with
      | [] => s
      | key :: rest =>
        State.takeDigitsFuel fuel ((s.onCh i fun c => { c with typeAhead := rest }).onKey i key) i
    else s

/-- Every digit that waits for a state that takes digits is taken (R67); each turn removes one. -/
def State.takeDigits (s : State) (i : Nat) : State :=
  State.takeDigitsFuel (s.ch i).typeAhead.length s i

/-- The end of an act on a channel. -/
def chanAct (s : State) (i : Nat) : Host.Outcome State Fault Refusal := act (s.takeDigits i)

/-! ### Opening a session (R72, R73, R85) -/

/-- A CALL or RETRIEVE is refused, and the channel is left as it stands (R72, R73, R85). -/
def refuseCall (s : State) (i : Nat) (r : RefuseReason) : Host.Outcome State Fault Refusal :=
  act (s.send (.refuse i r))

/-- The identity digits that are kept: the first 16, absent when there are none (R36, R73). -/
def keptIdentity (ids : List Nat) : Option (List Nat) := optDigits (ids.take 16)

/-- A call for a disabled mailbox is answered and cleared (R48). -/
def State.notInService (s : State) (i : Nat) : State :=
  (s.answerCall i).clearWith i [.notInService]

/-- A CALL for a homed extension (R73, case 4; R74). -/
def State.openDeposit (s : State) (i k : Nat) (r : CallReason) (internal : Bool) (ids : List Nat) :
    State :=
  ((s.answerCall i).onCh i fun c => { c with
    mailbox := some k, reason := some r, identity := keptIdentity ids
    internal := internal }).startGreeting i k r

/-- CALL (R72, R73). -/
def execCall (ch ext : Nat) (reason : CallReason) (internal : Bool) (identity : List Nat)
    (s : State) : Host.Outcome State Fault Refusal :=
  if !callOk ch ext identity then discard s.countDiscard
  else if (s.ch ch).busy then refuseCall s ch .channelBusy
  else if s.mode ≠ .serving then refuseCall s ch .unavailable
  else match s.find ext with
    | .inRange => refuseCall s ch .noMailbox
    | .foreign => refuseCall s ch .noMailbox
    | .disabled _ => act (s.notInService ch)
    | .homed k => chanAct (s.openDeposit ch k reason internal identity) ch

/-- The lock has been granted: the channel takes the mailbox and enters SUMMARY (R85, R86). -/
def State.enterSummary (s : State) (i k : Nat) : State :=
  s.onCh i fun c => { c with
    mailbox := some k, presented := [], state := .summary, sound := (s.mb k).summary }

/-- A RETRIEVE for a homed extension (R85, case 4). -/
def State.openRetrieval (s : State) (i k : Nat) : State :=
  let s1 := s.answerCall i
  match s1.askLock k i with
  | (.disabled, s2) => s2.clearWith i [.notInService]
  | (.inUse, s2) => s2.clearWith i [.mailboxInUse]
  | (.granted, s2) => s2.enterSummary i k

/-- RETRIEVE (R72, R85). -/
def execRetrieve (ch ext : Nat) (s : State) : Host.Outcome State Fault Refusal :=
  if !(wfChannel ch && wfExtension ext) then discard s.countDiscard
  else if (s.ch ch).busy then refuseCall s ch .channelBusy
  else if s.mode ≠ .serving then refuseCall s ch .unavailable
  else match s.find ext with
    | .inRange => refuseCall s ch .noMailbox
    | .foreign => refuseCall s ch .noMailbox
    | .disabled _ => act (s.notInService ch)
    | .homed k => chanAct (s.openRetrieval ch k) ch

/-- The channel keeps no digits (R67): IDLE and CLEARING. -/
def Channel.deaf (c : Channel) : Bool := c.state == .idle || c.state == .clearing

/-- DIGIT (R67): of more than 8 digits that wait, the newest is discarded. -/
def execDigit (ch : Nat) (key : Key) (s : State) : Host.Outcome State Fault Refusal :=
  if !(wfChannel ch && wfKey key) then discard s.countDiscard
  else if (s.ch ch).deaf then discard s
  else chanAct (s.onCh ch fun c => { c with
    typeAhead := if c.typeAhead.length < Config.typeAheadMax then c.typeAhead ++ [key]
      else c.typeAhead }) ch

/-! ### RELEASE and the session limit (R83, R102) -/

/-- A deposit in a state other than ENDING and CLEARING gives up what it holds as R83 states. -/
def State.depositEnd (s : State) (i : Nat) (gathered : Option Segment) : State :=
  match (s.ch i).state with
  | .greeting => s.dropPlaying i
  | .tone => s.leaveTone i
  | .recording => s.padAndSend i gathered
  | .timeUp => s.sendDeposit i false
  | .options => s.sendDeposit i false
  | .recordPrompt => s.giveBack i 0
  | _ => s

/-- The states of the deposit dialogue that R83 ends by `depositEnd`. -/
def ChanState.deposit : ChanState → Bool
  | .greeting => true
  | .tone => true
  | .recording => true
  | .timeUp => true
  | .options => true
  | .recordPrompt => true
  | _ => false

/-- A RELEASE reaches a busy channel (R83, R102). -/
def State.releaseChannel (s : State) (i : Nat) (gathered : Option Segment) : State :=
  match (s.ch i).state with
  | .idle => s
  | .transferring => s.toIdle i
  | .ending => s.toIdle i
  | .clearing => s.toIdle i
  | st => if st.deposit then (s.depositEnd i gathered).toIdle i else s.endRetrieval i true

/-- RELEASE (R71, R83, R102). -/
def execRelease (ch : Nat) (gathered : Option Segment) (s : State) :
    Host.Outcome State Fault Refusal :=
  if !wfChannel ch then discard s.countDiscard
  else if !wfGathered gathered || !(s.ch ch).busy then discard s
  else act (s.releaseChannel ch gathered)

/-- The session timer expires (R70, R83, R102). -/
def State.sessionLimit (s : State) (i : Nat) (gathered : Option Segment) : State :=
  match (s.ch i).state with
  | .idle => s
  | .ending => s
  | .clearing => s
  | .transferring => s.toClearing i
  | st =>
    if st.deposit then (s.depositEnd i gathered).clearWith i [.farewell] else s.endRetrieval i false

/-- SESSION_TIMER_EXPIRY (R70). -/
def execSessionTimerExpiry (ch : Nat) (gathered : Option Segment) (s : State) :
    Host.Outcome State Fault Refusal :=
  if wfGathered gathered && (s.ch ch).sessionTimer.isSome then
    act ((s.onCh ch fun c => { c with sessionTimer := none }).sessionLimit ch gathered)
  else discard s

/-- CLEARING_TIMER_EXPIRY (R71). -/
def execClearingTimerExpiry (ch : Nat) (s : State) : Host.Outcome State Fault Refusal :=
  if (s.ch ch).state = .clearing && (s.ch ch).clearingTimer.isSome then act (s.toIdle ch)
  else discard s

/-! ### Menu timers (R69, R81, R93) -/

/-- A silent repeat of a menu of a retrieval session (R69): the menu again, or at the third the
farewell. -/
def State.silentRepeat (s : State) (i : Nat) : State :=
  let s1 := s.onCh i fun c => { c with silentRepeats := c.silentRepeats + 1 }
  if 3 ≤ (s1.ch i).silentRepeats then s1.endRetrieval i false else s1.playMenu i

/-- A menu's digit timer expires (R61, R69, R81). -/
def State.menuTimeout (s : State) (i : Nat) : State :=
  match (s.ch i).state with
  | .options => s.sentAndClear i false
  | .endDay => if (s.ch i).endDigits.isEmpty then s.silentRepeat i else s.endInvalid i
  | _ => s.silentRepeat i

/-- DIGIT_TIMER_EXPIRY (R69). -/
def execDigitTimerExpiry (ch : Nat) (s : State) : Host.Outcome State Fault Refusal :=
  if (s.ch ch).state.menu && (s.ch ch).digitTimer.isSome then
    chanAct ((s.onCh ch fun c => { c with digitTimer := none }).menuTimeout ch) ch
  else discard s

/-- INTER_DIGIT_TIMER_EXPIRY (R93). -/
def execInterDigitTimerExpiry (ch : Nat) (s : State) : Host.Outcome State Fault Refusal :=
  if (s.ch ch).interDigitTimer.isSome then
    match (s.ch ch).state with
    | .addressing => chanAct ((s.stopInterDigit ch).addressEnd ch) ch
    | .listNumber => chanAct ((s.stopInterDigit ch).listEnd ch) ch
    | _ => discard s
  else discard s

/-! ### Capture (R78, R97, R57) -/

/-- SEGMENT_CAPTURED (R78; R56, R96): a channel that is not recording captures nothing (R183). -/
def execSegmentCaptured (ch : Nat) (seg : Segment) (s : State) : Host.Outcome State Fault Refusal :=
  if !wfSegment seg then discard s
  else match (s.ch ch).state with
    | .recording => chanAct (s.depositSegment ch seg) ch
    | .sendCapture => chanAct (s.sendSegment ch seg) ch
    | .greetCapture => chanAct (s.greetSegment ch seg) ch
    | _ => discard s

/-! ### Ends of prompts and playbacks -/

/-- GREETING_END (R74). -/
def execGreetingEnd (ch : Nat) (s : State) : Host.Outcome State Fault Refusal :=
  if (s.ch ch).state = .greeting then chanAct (s.greetingEnded ch) ch else discard s

/-- The channel begins to capture (R77, R78, R96, R56). -/
def State.beginCapture (s : State) (i : Nat) (st : ChanState) : State :=
  s.onCh i fun c => { c with state := st, sound := [] }

/-- TONE_END (R77). -/
def execToneEnd (ch : Nat) (s : State) : Host.Outcome State Fault Refusal :=
  match (s.ch ch).state with
  | .tone => chanAct (s.beginCapture ch .recording) ch
  | .sendTone => chanAct (s.beginCapture ch .sendCapture) ch
  | .greetTone => chanAct (s.beginCapture ch .greetCapture) ch
  | _ => discard s

/-- A part that is a prompt, and not the playback of an object or the tone. -/
def Sound.isPrompt : Sound → Bool
  | .object _ => false
  | .tone => false
  | .prompt _ => true
  | .number _ => true
  | .digits _ => true
  | .stamp _ => true
  | .date _ => true

/-- A menu is playing its prompt. -/
def Channel.menuPrompt (c : Channel) : Bool :=
  c.state.menu && match c.sound with
    | [] => false
    | x :: _ => x.isPrompt

/-- MENU_PROMPT_END (R69). -/
def execMenuPromptEnd (ch : Nat) (s : State) : Host.Outcome State Fault Refusal :=
  if (s.ch ch).menuPrompt then
    act (s.onCh ch fun c => { c with sound := [], digitTimer := some Config.digitTime })
  else discard s

/-- Where a channel goes on after a non-final prompt. -/
def State.goAfter (s : State) (i : Nat) : After → State
  | .main => s.enterMenu i .main
  | .message => s.enterMenu i .message
  | .presentNext => s.presentNext i
  | .addressing => s.enterMenu i .addressing
  | .listNumber => s.enterMenu i .listNumber
  | .returnState => s.goReturn i
  | .endDay => s.enterMenu i .endDay
  | .slot => s.enterMenu i .slot

/-- The tone of a recording of a retrieval session (R56, R96). -/
def State.playTone (s : State) (i : Nat) (st : ChanState) : State :=
  s.onCh i fun c => { c with state := st, sound := [.tone] }

/-- PROMPT_END (R68): a part of what the channel plays has ended. A non-final prompt is followed by the
state its rule names, in a sequence the next part follows (log 19), and the prompt that stood in the place
of an entry's content is followed by the next entry (R89). Where the prompt that leads on has two parts, as
after a send to a list (R99 names the return state after "the prompts"), the model has one PROMPT_END end both
(log 19). -/
def execPromptEnd (ch : Nat) (s : State) : Host.Outcome State Fault Refusal :=
  match (s.ch ch).state with
  | .sendPrompt => chanAct (s.playTone ch .sendTone) ch
  | .greetPrompt => chanAct (s.playTone ch .greetTone) ch
  | .prompting a => chanAct (s.goAfter ch a) ch
  | _ =>
    if 2 ≤ (s.ch ch).sound.length then act (s.onCh ch fun c => { c with sound := c.sound.tail })
    else if (s.ch ch).contentRefused then chanAct (s.presentNext ch) ch
    else discard s

/-- RECORD_PROMPT_END (R80, step 5). -/
def execRecordPromptEnd (ch : Nat) (s : State) : Host.Outcome State Fault Refusal :=
  if (s.ch ch).state = .recordPrompt then chanAct (s.admitTone ch) ch else discard s

/-- TIME_IS_UP_PROMPT_END (R79, R97, R57). -/
def execTimeIsUpPromptEnd (ch : Nat) (s : State) : Host.Outcome State Fault Refusal :=
  match (s.ch ch).state with
  | .timeUp => chanAct (s.enterMenu ch .options) ch
  | .sendTimeUp => chanAct (s.enterMenu ch .sendOptions) ch
  | .greetTimeUp => chanAct (s.startReview ch) ch
  | _ => discard s

/-- FINAL_PROMPT_END (R71). -/
def execFinalPromptEnd (ch : Nat) (s : State) : Host.Outcome State Fault Refusal :=
  if (s.ch ch).state = .ending then act (s.toClearing ch) else discard s

/-- SUMMARY_END (R86). -/
def execSummaryEnd (ch : Nat) (s : State) : Host.Outcome State Fault Refusal :=
  if (s.ch ch).state = .summary then chanAct (s.enterMenu ch .main) ch else discard s

/-- PLAYBACK_END (R89): the end of all that plays (log 19). A playback without content is followed by the
next entry (R87), any other by MESSAGE. -/
def execPlaybackEnd (ch : Nat) (s : State) : Host.Outcome State Fault Refusal :=
  if (s.ch ch).contentRefused then chanAct (s.presentNext ch) ch
  else if (s.ch ch).state = .playing then
    chanAct ((s.endPlayback ch false).enterMenu ch .message) ch
  else discard s

/-- The channel is playing an object. -/
def Channel.playsObject (c : Channel) : Bool :=
  match c.sound with
  | .object _ :: _ => true
  | _ => false

/-- REVIEW_PLAYBACK_END (R58): the review menu is offered. -/
def execReviewPlaybackEnd (ch : Nat) (s : State) : Host.Outcome State Fault Refusal :=
  if (s.ch ch).state = .review && (s.ch ch).playsObject then chanAct (s.playMenu ch) ch
  else discard s

/-- SLOT_PLAYBACK_END (R60). -/
def execSlotPlaybackEnd (ch : Nat) (s : State) : Host.Outcome State Fault Refusal :=
  if (s.ch ch).state = .slot && (s.ch ch).playsObject then
    chanAct ((s.dropPlaying ch).enterMenu ch .slot) ch
  else discard s

end Sys2Proof.Machine
end

