-- ==== Sys2Proof/Machine/Port.lean ====
section
/-! DEFINITION. The records and timers of the Lamp Unit, LINE_RESET, STATUS_QUERY and SHUTDOWN
(06 Message Lamps; 10.1; 11 Switch Line Port and Status). -/

namespace Sys2Proof.Machine

/-- LAMP_RESULT (R108); not taken in HALTED (R116). -/
def execLampResult (ext : Nat) (result : LampResult) (s : State) :
    Host.Outcome State Fault Refusal :=
  if !wfExtension ext then discard s.countDiscard
  else if s.mode ≠ .halted && s.lamp.isOut ext then act (s.lampResult ext result)
  else discard s

/-- LAMP_RESULT_TIMEOUT (R109). -/
def execLampResultTimeout (ext : Nat) (s : State) : Host.Outcome State Fault Refusal :=
  if s.mode ≠ .halted && s.lamp.isOut ext then act (s.lampTimeout ext) else discard s

/-- SCAN_STEP_TIMER_EXPIRY (R112); the scan runs in SERVING and DRAINING (R116). -/
def execScanStepTimerExpiry (s : State) : Host.Outcome State Fault Refusal :=
  if s.lampsRun && s.lamp.scanRunning && s.lamp.scanTimer.isSome then act s.scanStep
  else discard s

/-- The partly captured segment of a channel at a LINE_RESET (R82, log 5). -/
def gatheredFor (g : List (Nat × Segment)) (i : Nat) : Option Segment :=
  (g.find? fun p => p.1 == i).map (·.2)

/-- Every busy channel is treated as if a RELEASE for it had arrived, in ascending number (R186). -/
def State.releaseAll (s : State) (g : List (Nat × Segment)) : State :=
  (List.range Config.channels).foldl (fun t i => t.releaseChannel i (gatheredFor g i)) s

/-- LINE_RESET (R115, R186); discarded in HALTED. -/
def execLineReset (gathered : List (Nat × Segment)) (s : State) :
    Host.Outcome State Fault Refusal :=
  if s.mode = .halted || !(gathered.all fun p => wfChannel p.1 && wfSegment p.2) then discard s
  else if s.lampsRun then act (s.lampLineReset.releaseAll gathered)
  else act s.lampLineReset

/-- The kind reported leaves the latched alarm set (R188). -/
def State.dropAlarm (s : State) (a : Option Alarm) : State :=
  match a with
  | none => s
  | some k => s.setAlarms (s.alarms.filter fun b => b ≠ k)

/-- STATUS_QUERY (R188). -/
def execStatusQuery (s : State) : Host.Outcome State Fault Refusal :=
  act ((s.send (.statusReply s.statusReply)).dropAlarm (lowestAlarm s.alarms))

/-- SHUTDOWN (R174, R170): taken in SERVING. -/
def execShutdown (s : State) : Host.Outcome State Fault Refusal :=
  if s.mode = .serving then act (s.setMode .draining).stopSchedule else discard s

end Sys2Proof.Machine
end

