-- ==== Sys2Proof/Machine/Image.lean ====
section
/-! DEFINITION. The Configuration Loader: the checks of an image, its sections and the clamping of its
values (12.3; R26, R28, R176, R177, R192). -/

namespace Sys2Proof.Machine

/-- The number in `n` bytes from byte `off` (12). -/
def field (bs : List Byte) (off n : Nat) : Nat := beNat ((bs.drop off).take n)

/-- A value taken into its range: the nearer end when it lies outside (R28). -/
def clampTo (lo hi n : Nat) : Nat := max lo (min hi n)

/-- A value lies outside its range. -/
def outside (lo hi n : Nat) : Bool := decide (n < lo) || decide (hi < n)

/-! ### The sections of the body (12.3) -/

/-- R, the count of ranges. -/
def rangeCount (b : List Byte) : Nat := field b 129 1

/-- The ranges. -/
def imageRanges (b : List Byte) : List (Nat × Nat) :=
  (List.range (rangeCount b)).map fun i => (field b (130 + 6 * i) 3, field b (133 + 6 * i) 3)

/-- Where the mailbox table begins. -/
def mailboxBase (b : List Byte) : Nat := 130 + 6 * rangeCount b

/-- M, the count of mailbox records. -/
def mailboxCount (b : List Byte) : Nat := field b (mailboxBase b) 2

/-- Where the lamp scan section begins. -/
def scanBase (b : List Byte) : Nat := mailboxBase b + 2 + 9 * mailboxCount b

/-! ### The checks (R176) -/

/-- An extension is 1,000-99,999 and a range runs upward (R176). R176 names the range's first extension only as
one that must not lie outside 1,000-99,999; the model asks it of its last too, so that an image with a last
extension above 99,999 halts the node (log 59). -/
def rangeOk (r : Nat × Nat) : Bool := wfExtension r.1 && wfExtension r.2 && decide (r.1 ≤ r.2)

/-- Two ranges share no extension (R176). -/
def rangesApart (r t : Nat × Nat) : Bool := decide (r.2 < t.1) || decide (t.2 < r.1)

/-- Every two ranges of a list share no extension. -/
def allApart : List (Nat × Nat) → Bool
  | [] => true
  | r :: rest => rest.all (rangesApart r) && allApart rest

/-- The body of a stream the memory gave, when the stream can be read and passes the tests of format and
integrity (R176). -/
def imageBody (stream : List Byte) : Option (List Byte) :=
  let len := field stream 2 4
  let body := (stream.drop 10).take len
  if 10 ≤ stream.length && field stream 0 2 == 2 && 159 ≤ len && len ≤ 18639
      && body.length == len && len == 159 + 6 * rangeCount body + 9 * mailboxCount body
      && (crc32 (bytesBits body)).toNat == field stream 6 4 then
    some body
  else none

/-- The body of a usable image (R176). -/
def usableBody (stream : List Byte) : Option (List Byte) :=
  (imageBody stream).bind fun b =>
    if 1 ≤ field b 0 1 && field b 0 1 ≤ Config.nodes && 1 ≤ mailboxCount b && mailboxCount b ≤ 2048
        && 1 ≤ rangeCount b && rangeCount b ≤ 8 && (imageRanges b).all rangeOk
        && allApart (imageRanges b) then
      some b
    else none

/-! ### The class table (R28) -/

/-- Where class `c` stands. -/
def classBase (c : Nat) : Nat := 1 + 16 * c

/-- The operator extension of a class, 0 for none (12.3). -/
def classOperator (b : List Byte) (c : Nat) : Nat :=
  field b (classBase c + 7) 1 * 65536 + field b (classBase c + 14) 2

/-- The maximum message length of a class, as clamped. -/
def classSeconds (b : List Byte) (c : Nat) : Nat := clampTo 10 600 (field b (classBase c + 3) 2)

/-- Class `c` as clamped (R28, R192), bit 0 of the flags byte being the least significant (log 37). -/
def classOf (b : List Byte) (c : Nat) : ClassRec :=
  let o := classBase c
  let flags := field b (o + 13) 1
  { quota := clampTo 0 16000 (field b o 2)
    maxEntries := clampTo 1 64 (field b (o + 2) 1)
    maxSeconds := classSeconds b c
    minRoom := min (clampTo 2 30 (field b (o + 5) 1)) (classSeconds b c)
    heardDays := clampTo 1 90 (field b (o + 6) 1)
    savedDays := clampTo 1 365 (field b (o + 8) 2)
    allowance := clampTo 0 480 (field b (o + 10) 2)
    broadcastLife := clampTo 1 30 (field b (o + 12) 1)
    mayBroadcast := flags.testBit 0
    lampEnabled := flags.testBit 1
    absenceBlocks := flags.testBit 2
    operator := if wfExtension (classOperator b c) then some (classOperator b c) else none }

/-- A value of class `c` was replaced (R28, R192), bit 0 of the flags byte being the least significant
(log 37). -/
def classReplaced (b : List Byte) (c : Nat) : Bool :=
  let o := classBase c
  outside 0 16000 (field b o 2) || outside 1 64 (field b (o + 2) 1)
    || outside 10 600 (field b (o + 3) 2) || outside 2 30 (field b (o + 5) 1)
    || outside 1 90 (field b (o + 6) 1) || outside 1 365 (field b (o + 8) 2)
    || outside 0 480 (field b (o + 10) 2) || outside 1 30 (field b (o + 12) 1)
    || decide (8 ≤ field b (o + 13) 1)
    || (classOperator b c != 0 && !wfExtension (classOperator b c))
    || decide (classSeconds b c < clampTo 2 30 (field b (o + 5) 1))

/-! ### The mailbox table (R26) -/

/-- Where record `k` stands. -/
def recordBase (b : List Byte) (k : Nat) : Nat := mailboxBase b + 2 + 9 * k

/-- A record passes R26's test after the usable extensions of lower index. -/
def recordUsable (ranges : List (Nat × Nat)) (earlier : List Nat) (ext : Nat) : Bool :=
  wfExtension ext && (ranges.any fun r => decide (r.1 ≤ ext) && decide (ext ≤ r.2))
    && decide (ext ∉ earlier)

/-- One record with its usable mark; a class above 7 is taken as 7 (R26, R192). -/
def recordOfImage (b : List Byte) (earlier : List Nat) (k : Nat) : MailboxCfg :=
  let o := recordBase b k
  { extension := field b o 3
    cls := min 7 (field b (o + 3) 1)
    lists := BitVec.ofNat 32 (field b (o + 4) 4)
    enabled := field b (o + 8) 1 != 0
    usable := recordUsable (imageRanges b) earlier (field b o 3) }

/-- The records from index `k` on, `n` of them. -/
def recordsFrom (b : List Byte) : Nat → Nat → List Nat → List MailboxCfg
  | 0, _, _ => []
  | n + 1, k, earlier =>
    let r := recordOfImage b earlier k
    r :: recordsFrom b n (k + 1) (if r.usable then r.extension :: earlier else earlier)

/-- The mailbox table. -/
def imageMailboxes (b : List Byte) : List MailboxCfg := recordsFrom b (mailboxCount b) 0 []

/-- A record was replaced or cannot be used (R26, R192; log 18). -/
def recordReplaced (b : List Byte) (k : Nat) : Bool := decide (7 < field b (recordBase b k + 3) 1)

/-! ### The remaining sections -/

/-- The source a status line's byte names; above 7 it is NONE (R189, R192). -/
def lineSource : Nat → LineSource
  | 1 => .anyAlarm
  | 2 => .storeLow
  | 3 => .linkAlone
  | 4 => .channelsFull
  | 5 => .housekeeping
  | 6 => .indexBusy
  | 7 => .draining
  | _ => .none

/-- The scan range as clamped on the mailbox count (R111). -/
def scanRange (m first last : Nat) : Nat × Nat :=
  let a := min first (m - 1)
  let z := min last (m - 1)
  if z < a then (0, m - 1) else (a, z)

/-- The pool size as clamped (R2). -/
def poolSize (b : List Byte) : Nat := clampTo 1024 65536 (field b (scanBase b + 12) 4)

/-- A value outside the class and mailbox tables was replaced (R177, R192). -/
def restReplaced (b : List Byte) : Bool :=
  let o := scanBase b
  let m := mailboxCount b
  let p := poolSize b
  decide (m ≤ field b o 2) || decide (m ≤ field b (o + 2) 2)
    || decide (min (field b (o + 2) 2) (m - 1) < min (field b o 2) (m - 1))
    || decide (1 < field b (o + 4) 1)
    || ((List.range 4).any fun i => decide (7 < field b (o + 6 + i) 1))
    || decide (23 < field b (o + 10) 1) || decide (16 < field b (o + 11) 1)
    || outside 1024 65536 (field b (o + 12) 4) || decide (p / 4 < field b (o + 16) 4)
    || decide (p / 2 < field b (o + 20) 4) || outside 1 50 (field b (o + 24) 1)
    || decide (2047 < field b (o + 25) 2)

/-- The clamped mark (R177; unusable records are counted too, log 18). -/
def imageReplaced (b : List Byte) : Bool :=
  ((List.range 8).any (classReplaced b)) || ((List.range (mailboxCount b)).any (recordReplaced b))
    || ((imageMailboxes b).any fun m => !m.usable) || restReplaced b

/-- The settings of a usable body, as clamped, under the digest of its header (R177). -/
def settingsOf (b : List Byte) (digest : BitVec 32) : Settings :=
  let o := scanBase b
  let r := scanRange (mailboxCount b) (field b o 2) (field b (o + 2) 2)
  { node := field b 0 1
    classes := (List.range 8).map (classOf b)
    ranges := imageRanges b
    mailboxes := imageMailboxes b
    scanStart := r.1
    scanEnd := r.2
    scanContinuous := field b (o + 4) 1 == 1
    refreshAll := field b (o + 5) 1 != 0
    lineSources := (List.range 4).map fun i => lineSource (field b (o + 6 + i) 1)
    passHour := min 23 (field b (o + 10) 1)
    chanThreshold := min 16 (field b (o + 11) 1)
    guard := min (poolSize b / 4) (field b (o + 16) 4)
    budget := min (poolSize b / 2) (field b (o + 20) 4)
    pool := poolSize b
    lowPercent := clampTo 1 50 (field b (o + 24) 1)
    silence := min 2047 (field b (o + 25) 2)
    digest := digest
    clampedMark := imageReplaced b }

/-- The settings of a stream, or none when its image is unusable (R176, R177). -/
def loadImage (stream : List Byte) : Option Settings :=
  (usableBody stream).map fun b => settingsOf b (BitVec.ofNat 32 (field stream 6 4))

end Sys2Proof.Machine
end

