-- ==== Sys2Proof/Machine/Rebuild.lean ====
section
/-! DEFINITION. The warm rebuild: objects, mailboxes, queue, reference counts, budget, free list, groups
and marking (R24, R51, R65, R159, R180). -/

namespace Sys2Proof.Machine

/-! ### Page checks (R178) -/

/-- Every count a page holds lies within the page's capacity (R178, log 26). -/
def PageImage.fits : PageId → PageImage → Bool
  | .mailbox _, .mailbox m => m.entries.length ≤ 64
  | .object j, .objects os =>
    rising os && os.all fun p => decide (16 * j < p.1) && decide (p.1 ≤ 16 * j + 16)
      && decide (p.2.chain.length ≤ Config.maxChain)
  | .queue q, .queue qs => rising qs && qs.all fun p => decide (16 * q ≤ p.1) && decide (p.1 < 16 * q + 16)
  | _, _ => false

/-- A page as the rebuild reads it: none when it fails its check. -/
def IndexArea.checked (a : IndexArea) (p : PageId) : Option PageImage :=
  (a.page? p).bind fun c => if PageImage.fits p c then some c else none

/-- The objects on object page `j`, none at all when it fails its check. -/
def IndexArea.objectsOn (a : IndexArea) (j : Nat) : List (Nat × ObjImage) :=
  match a.checked (.object j) with
  | some (.objects os) => os
  | _ => []

/-- The content of mailbox page `k`, empty with next number 1 when it fails its check (R51). -/
def IndexArea.mailboxOn (a : IndexArea) (k : Nat) : MailboxImage :=
  match a.checked (.mailbox k) with
  | some (.mailbox m) => m
  | _ => Mailbox.blank.image

/-- The entries on queue page `q`, none at all when it fails its check. -/
def IndexArea.queueOn (a : IndexArea) (q : Nat) : List (Nat × QImage) :=
  match a.checked (.queue q) with
  | some (.queue qs) => qs
  | _ => []

/-- The pages a node of `m` mailboxes reads, objects first (R180). -/
def indexPages (m : Nat) : List PageId :=
  ((List.range Config.objectPages).map .object) ++ ((List.range m).map .mailbox) ++
    ((List.range Config.queuePages).map .queue)

/-! ### Objects (R24) -/

/-- The tests R24 makes of one restored object, in a pool of `p` blocks and `m` mailboxes. -/
def ObjImage.acceptable (o : ObjImage) (p m : Nat) : Bool :=
  o.complete && 16 ≤ o.segments && o.segments ≤ Config.maxSegments
    && o.chain.length == blocksOf o.segments && o.chain.all (· < p) && o.chain.dedup.length == o.chain.length
    && match o.owner with
      | some k => o.use != .shared && decide (k < m)
      | none => o.use == .shared

/-- A restored object before its count is set. -/
def ObjImage.restored (o : ObjImage) : Obj :=
  { complete := true, use := o.use, chain := o.chain, segments := o.segments, refs := 0,
    owner := o.owner, earmark := 0, silentTail := 0 }

/-- The accepted objects by ascending number: one that names a block of an object accepted before it is
rejected (R24). -/
def acceptObjects (p m : Nat) : List (Nat × ObjImage) → List Nat → List (Nat × Obj)
  | [], _ => []
  | (n, o) :: rest, used =>
    if o.acceptable p m && o.chain.all fun b => decide (b ∉ used) then
      (n, o.restored) :: acceptObjects p m rest (o.chain ++ used)
    else acceptObjects p m rest used

/-! ### Mailboxes (R51, R65) -/

/-- A day number or none. -/
def dayOk : Option Nat → Bool
  | none => true
  | some d => d ≤ Config.lastDay

/-- The fields of an entry by which a NOTICE differs are as its kind asks (R30). -/
def Entry.noticeFields (e : Entry) : Bool :=
  match e.kind, e.reason, e.target with
  | .notice, some .listPartial, some l =>
    l < 32 && (match e.unreached with
      | some n => 1 ≤ n && n ≤ 29
      | none => false)
  | .notice, some _, some x => wfExtension x && e.unreached.isNone
  | .notice, _, _ => false
  | _, none, none => e.subject.isNone && e.unreached.isNone
  | _, _, _ => false

/-- An optional value lies in a range. -/
def optIn (ok : Nat → Bool) : Option Nat → Bool
  | none => true
  | some n => ok n

/-- The fields of an entry lie within their ranges (R30, R51 step 1), its object number among them (R4).
R51 does not say whether a field that is present or absent against R30 lies outside its range; the model
takes it so, for the fields of a NOTICE and for a broadcast expiry day that R30 gives to a SHARED entry with
an arrival stamp and to no other (log 24). -/
def Entry.inRange (e : Entry) : Bool :=
  1 ≤ e.number && e.number ≤ Config.maxNumber && optIn wfExtension e.origin
    && (match e.identity with
      | none => true
      | some ds => 1 ≤ ds.length && ds.length ≤ 16 && ds.all (· ≤ 9))
    && optIn (fun m => m < (Config.lastDay + 1) * Config.minutesPerDay) e.arrival
    && dayOk e.changeDay && 1 ≤ e.originNode && e.originNode ≤ Config.nodes
    && optIn (fun n => 1 ≤ n && n ≤ Config.maxNumber) e.subject
    && optIn (fun n => 1 ≤ n && n ≤ Config.maxObjects) e.object
    && (e.kind != .notice || (!e.urgent && e.origin.isNone && e.identity.isNone))
    && (if e.kind = .shared then e.expiry.isSome == e.arrival.isSome else e.expiry.isNone)
    && e.noticeFields

/-- The kind of an entry agrees with its object where the object is in the table (R51 step 1). -/
def Entry.agrees (e : Entry) (objs : List (Nat × Obj)) : Bool :=
  match e.kind, e.object with
  | .notice, none => true
  | .notice, some _ => false
  | _, none => false
  | .voice, some n =>
    match tblGet n objs with
    | none => true
    | some o => o.use == .message || o.use == .shared
  | .shared, some n =>
    match tblGet n objs with
    | none => true
    | some o => o.use == .shared

/-- The object of an entry is in the table, where it has one (R51 step 2). -/
def Entry.present (e : Entry) (objs : List (Nat × Obj)) : Bool :=
  match e.object with
  | none => true
  | some n => (tblGet n objs).isSome

/-- Entries that repeat the number of an earlier one leave (R51 step 3). -/
def firstOfNumber : List Entry → List Nat → List Entry
  | [], _ => []
  | e :: rest, seen =>
    if e.number ∈ seen then firstOfNumber rest seen
    else e :: firstOfNumber rest (e.number :: seen)

/-- The chain lengths of the objects of VOICE entries (R39). -/
def chargedOf (objs : List (Nat × Obj)) (es : List Entry) : Nat :=
  ((es.filter fun e => e.kind == .voice).map fun e =>
    match e.object.bind fun n => tblGet n objs with
    | none => 0
    | some o => o.chain.length).sum

/-- VOICE entries leave, last first, until the rest is within the quota; the list is given last entry
first (R51 step 5). -/
def trimQuota (objs : List (Nat × Obj)) (quota : Nat) : List Entry → List Entry
  | [] => []
  | e :: rest =>
    if chargedOf objs (e :: rest) ≤ quota then e :: rest
    else if e.kind = .voice then trimQuota objs quota rest
    else e :: trimQuota objs quota rest

/-- The object of a slot, unless it is missing or of the wrong use (R51 step 6, R65). An accept cut off
after the object pages (R182) and before the mailbox page leaves a slot whose old object is free: R65 says
that the slot shows it, R51 that a slot whose object is missing is emptied; the model empties it (log 40). -/
def restoredSlot (objs : List (Nat × Obj)) (use : Use) (o : Option Nat) : Option Nat :=
  o.bind fun n => (tblGet n objs).bind fun x => if x.use = use then some n else none

/-- A mailbox restored from its page in a class, with whether a drop is to be reported (R51, R65). -/
def restoreMailbox (objs : List (Nat × Obj)) (c : ClassRec) (m : MailboxImage) : Bool × Mailbox :=
  let e1 := m.entries.filter fun e => e.inRange && e.agrees objs
  let e2 := e1.filter fun e => e.present objs
  let e3 := firstOfNumber e2 []
  let e4 := e3.take c.maxEntries
  let e5 := (trimQuota objs c.quota e4.reverse).reverse
  let absence := restoredSlot objs .greeting m.absence
  (e1.length < m.entries.length || e3.length < e2.length || e4.length < e3.length
      || e5.length < e4.length || !dayOk m.endDay,
    { entries := e5, charged := chargedOf objs e5, pending := 0, reserved := 0
      nextNumber := if 1 ≤ m.nextNumber && m.nextNumber ≤ Config.maxNumber then m.nextNumber else 1
      standard := restoredSlot objs .greeting m.standard
      busy := restoredSlot objs .greeting m.busy
      absence := absence
      name := restoredSlot objs .name m.name
      endDay := if absence.isSome && dayOk m.endDay then m.endDay else none
      lock := none, erasePending := [] })

/-! ### The queue (R159) -/

/-- The fields of a queue entry lie within their ranges (R137). -/
def QImage.inRange (e : QImage) : Bool :=
  1 ≤ e.seq && e.seq ≤ Config.maxSequence &&
    (if e.list then
      e.target < 32 && (match e.node with
        | some n => 1 ≤ n && n ≤ Config.nodes
        | none => false) && (match e.group with
        | some g => g < 8
        | none => false) && e.number.isNone
    else wfExtension e.target && e.node.isNone && e.group.isNone
      && optIn (fun n => 1 ≤ n && n ≤ Config.maxNumber) e.number)

/-- A restored entry: waiting, its counts 0, unlocated; an originating mailbox that is not below the
mailbox count is dropped (R159). -/
def QImage.restored (e : QImage) (m : Nat) : QEntry :=
  { list := e.list, target := e.target, node := e.node, object := e.object
    mailbox := e.mailbox.bind fun k => if k < m then some k else none
    number := e.number, urgent := e.urgent, location := none, relocated := false, hold := 0
    retry := 0, notBefore := none, seq := e.seq, group := e.group, carried := false }

/-- The restored entry of a position (R159). -/
def restoredAt (a : IndexArea) (objs : List (Nat × Obj)) (m pos : Nat) : Option QEntry :=
  (tblGet pos (a.queueOn (pos / Config.perPage))).bind fun e =>
    if e.inRange && (tblGet e.object objs).isSome then some (e.restored m) else none

/-! ### Counts and the budget (R24, R180 step 4) -/

/-- The objects a mailbox refers to, one for each holder. -/
def Mailbox.holds (m : Mailbox) : List Nat :=
  m.entries.filterMap (·.object) ++ m.standard.toList ++ m.busy.toList ++ m.absence.toList ++
    m.name.toList

/-- The objects that mailboxes and queue entries refer to, one for each holder (R180). -/
def holdings (ms : List Mailbox) (qs : List (Option QEntry)) : List Nat :=
  ms.flatMap Mailbox.holds ++ qs.filterMap (Option.map (·.object))

/-- Each count is set to the number of holders, and an object left with none is freed (R24). -/
def setCounts (objs : List (Nat × Obj)) (held : List Nat) : List (Nat × Obj) :=
  objs.filterMap fun p =>
    if held.count p.1 = 0 then none else some (p.1, { p.2 with refs := held.count p.1 })

/-- The blocks of the SHARED objects. -/
def sharedBlocks (objs : List (Nat × Obj)) : Nat :=
  ((objs.filter fun p => p.2.use == .shared).map fun p => p.2.chain.length).sum

/-- The SHARED objects dropped until the rest is within the budget, in descending order of number; the
objects are given highest number first (R24). -/
def overBudget (budget : Nat) : List (Nat × Obj) → List Nat
  | [] => []
  | p :: rest =>
    if sharedBlocks (p :: rest) ≤ budget then []
    else if p.2.use = .shared then p.1 :: overBudget budget rest
    else
      -- an object of another use takes no part in the sum
      overBudget budget rest

/-- A mailbox without the entries that refer to dropped objects, its charge recounted (R24, R180 step
5). -/
def Mailbox.without (m : Mailbox) (objs : List (Nat × Obj)) (dropped : List Nat) : Mailbox :=
  let es := m.entries.filter fun e => match e.object with
    | none => true
    | some n => decide (n ∉ dropped)
  { m with entries := es, charged := chargedOf objs es }

/-- The queue without the entries that refer to dropped objects (R24). -/
def queueWithout (qs : List (Option QEntry)) (dropped : List Nat) : List (Option QEntry) :=
  qs.map fun q => q.bind fun e => if e.object ∈ dropped then none else some e

/-! ### Groups (R159) -/

/-- Group `g` as the LIST entries still restored call for it (R159). Where a stale page makes them disagree,
the model takes mailbox and list of the entry in the lowest position (log 47). -/
def restoredGroup (qs : List (Option QEntry)) (g : Nat) : Option Group :=
  match qs.filterMap fun q => q.bind fun e => if e.group = some g then some e else none with
  | [] => none
  | e :: rest => some ⟨e.mailbox, e.target, rest.length + 1, 0⟩

/-- The highest enqueue sequence restored (R159); the model takes it over the entries left after the budget
trim (log 49). -/
def highestSeq (qs : List (Option QEntry)) : Nat :=
  qs.foldl (fun n q => match q with
    | none => n
    | some e => max n e.seq) 0

/-! ### The rebuild (R180) -/

/-- The blocks in no chain, ascending (R3, R24). -/
def freeBlocks (pool : Nat) (objs : List (Nat × Obj)) : List Nat :=
  let used := objs.flatMap fun p => p.2.chain
  (List.range pool).filter fun b => decide (b ∉ used)

/-- The outcome of steps 1 to 5 of the rebuild: the report of damage, the object table, the mailboxes and
the queue (R180). -/
structure Rebuilt where
  damaged : Bool
  objects : List (Nat × Obj)
  mailboxes : List Mailbox
  queue : List (Option QEntry)
  deriving DecidableEq, Repr

/-- Steps 1 to 4 of the rebuild, with the charges of step 5 (R180). -/
def rebuildIndex (a : IndexArea) (c : Settings) (clsOf : Nat → ClassRec) : Rebuilt :=
  let m := c.mailboxes.length
  let objs := acceptObjects c.pool m
    ((List.range Config.objectPages).flatMap fun j => a.objectsOn j) []
  let boxes := (List.range m).map fun k => restoreMailbox objs (clsOf k) (a.mailboxOn k)
  let queue := (List.range Config.queuePositions).map fun p => restoredAt a objs m p
  let kept := setCounts objs (holdings (boxes.map (·.2)) queue)
  let dropped := overBudget c.budget kept.reverse
  let left := kept.filter fun p => decide (p.1 ∉ dropped)
  { damaged := ((indexPages m).any fun p => (a.checked p).isNone) || boxes.any (·.1)
    objects := left
    mailboxes := boxes.map fun b => b.2.without left dropped
    queue := queueWithout queue dropped }

/-- The pages whose content as rebuilt differs from the content read (R180 step 6). -/
def State.changedPages (s : State) (ps : List PageId) : List PageId :=
  ps.filter fun p => s.index.checked p != some (s.pageImage p)

/-- The object pages among some pages. -/
def objectNumbers (ps : List PageId) : List Nat :=
  ps.filterMap fun p => match p with
    | .object j => some j
    | .mailbox _ => none
    | .queue _ => none

/-- The pages among some pages that are no object pages. -/
def otherPages (ps : List PageId) : List PageId :=
  ps.filter fun p => match p with
    | .object _ => false
    | .mailbox _ => true
    | .queue _ => true

/-- The blocks take what the rebuild restored (R24, R51, R159, R180). -/
def State.restore (s : State) (r : Rebuilt) : State :=
  let s1 := if r.damaged then s.latch .indexDamaged else s
  let s2 := (s1.onStore fun _ =>
    { free := freeBlocks s1.cfg.pool r.objects, objects := r.objects, earmark := 0
      sharedUse := sharedBlocks r.objects, ready := true }).evalLow
  (s2.onMailboxes fun _ => r.mailboxes).onDeliv fun d => { d with
    queue := r.queue, groups := (List.range 8).map (restoredGroup r.queue)
    enqCounter := highestSeq r.queue }

/-- The pages changed by the rebuild are marked, object pages first (R180 step 6, R181). The order within
the object pages, and that mailbox pages come in index order before queue pages, is the model's
(log 48). -/
def State.markChanged (s : State) : State :=
  let ps := s.changedPages (indexPages s.cfg.mailboxes.length)
  s.onWriter fun w => { w with dirtyObjects := objectNumbers ps, dirtyOthers := otherPages ps }

/-- The warm rebuild (R180). -/
def State.rebuild (s : State) : State :=
  ((s.restore (rebuildIndex s.index s.cfg s.cls)).lampSetup).markChanged

end Sys2Proof.Machine
end

