-- ==== Sys2Proof/Machine/Startup.lean ====
section
/-! DEFINITION. The commands of a start: the reset pin, RESUME, the configuration, the decision, the
wipe, the header, the rebuild and the page writes that follow (10 Start-Up, Configuration and the
Index). -/

namespace Sys2Proof.Machine

/-! ### The two causes of a start (R172) -/

/-- The page that write the wipe has reached (R179): mailbox pages, object pages, queue pages. -/
def wipePage (m p : Nat) : PageId :=
  if p < m then .mailbox p
  else if p < m + Config.objectPages then .object (p - m)
  else .queue (p - m - Config.objectPages)

/-- The number of pages of the wipe. -/
def wipeCount (m : Nat) : Nat := m + Config.objectPages + Config.queuePages

/-- A page whose write is cut off fails its check from now on (R172). -/
def IndexArea.cutPage (a : IndexArea) (p : PageId) : IndexArea :=
  { a with pages := a.pages.filter fun x => x.1 != p }

/-- The index area as a reset pin leaves it: the page or header being written fails its check (R172,
R179). -/
def State.cutIndex (s : State) : IndexArea :=
  match s.startStep with
  | .wipe p => s.index.cutPage (wipePage s.cfg.mailboxes.length p)
  | .headerWrite _ _ => { s.index with header := none }
  | _ =>
    match s.writer.writing with
    | some (p, _) => s.index.cutPage p
    | none => s.index

/-- Every block set up for a start (R172), over an index area; the pool's audio, what the node has sent
and the commands that wait are no block's state. -/
def State.freshStart (s : State) (index : IndexArea) : State :=
  { State.reset with
    index := index, audio := s.audio, lineOut := s.lineOut, linkOut := s.linkOut
    pending := s.pending }

/-- RESET_PIN (R172): a full start. -/
def execResetPin (s : State) : Host.Outcome State Fault Refusal := act (s.freshStart s.cutIndex)

/-- The settings are handed out (R177): CONFIG_CLAMPED is latched for a clamped image, and an entry of
the presence table for this node's own number is cleared; a frame of that number that the buffer already holds
stays there (R128, log 15). -/
def State.handOut (s : State) (c : Settings) : State :=
  let s1 := (s.setCfg c true).setStart .headerRead
  let s2 := (s1.markAbsent c.node).onPresence c.node fun _ => Presence.blank
  if c.clampedMark then s2.latch .configClamped else s2

/-- RESUME (R172, R175, R177): a start with the held image. -/
def execResume (s : State) : Host.Outcome State Fault Refusal :=
  if s.mode = .stopped then act ((s.freshStart s.index).handOut s.cfg) else discard s

/-- The Controller in HALTED: not set up, the link state JOINING (R136). -/
def LinkCtl.halted : LinkCtl := { LinkCtl.fresh with joinTimer := none }

/-- The node enters HALTED (R176): no block is set up, the latched alarm set is empty, and one ALARM
record with kind CONFIG_BAD leaves (R187, log 21). -/
def State.enterHalted (s : State) : State :=
  ((((((((s.setMode .halted).setStart .none).setAlarms []).onLink fun _ => LinkCtl.halted).onDeliv
    fun _ => Delivery.fresh).onHouse fun _ => Housekeeping.fresh).onLamp fun _ => LampUnit.blank).send
      .alarmConfigBad)

/-- CONFIG_READ_DONE (R176, R177). -/
def execConfigReadDone (stream : List Byte) (s : State) : Host.Outcome State Fault Refusal :=
  if s.startStep = .configRead then
    match loadImage stream with
    | none => act s.enterHalted
    | some c => act (s.handOut c)
  else discard s

/-! ### The decision (R179) -/

/-- The generation after another (R179). -/
def nextGeneration (g : Nat) : Nat := if g ≥ 65535 then 1 else g + 1

/-- The header that makes a start warm (R179). -/
def State.warmHeader (s : State) : Option Header :=
  s.index.header.bind fun h => if h.digest = s.cfg.digest then some h else none

/-- The store and the Directory set up empty (R23, R50). -/
def State.coldSetup (s : State) : State :=
  (((s.onStore fun _ =>
    { free := List.range s.cfg.pool, objects := [], earmark := 0, sharedUse := 0
      ready := true }).evalLow).onMailboxes fun _ =>
        List.replicate s.cfg.mailboxes.length Mailbox.blank).lampSetup

/-- A cold start begins (R179): COLD_START is latched and the wipe's first page is being written. -/
def State.beginCold (s : State) : State :=
  ((s.latch .coldStart).coldSetup).setStart (.wipe 0)

/-- HEADER_READ_DONE (R179). -/
def execHeaderReadDone (s : State) : Host.Outcome State Fault Refusal :=
  if s.startStep = .headerRead then
    match s.warmHeader with
    | some h => act (s.setStart (.headerWrite true (nextGeneration h.generation)))
    | none => act s.beginCold
  else discard s

/-- A page as the wipe writes it (R179). -/
def emptyPage : PageId → PageImage
  | .mailbox _ => .mailbox Mailbox.blank.image
  | .object _ => .objects []
  | .queue _ => .queue []

/-- One page of the wipe has been written: the next page is, or the header (R179). -/
def State.wiped (s : State) (p : Nat) : State :=
  let page := wipePage s.cfg.mailboxes.length p
  (s.onIndex fun a => { a with pages := storePage page (emptyPage page) a.pages }).setStart
    (if p + 1 < wipeCount s.cfg.mailboxes.length then .wipe (p + 1) else .headerWrite false 1)

/-- WIPE_PAGE_WRITE_DONE (R179). -/
def execWipePageWriteDone (s : State) : Host.Outcome State Fault Refusal :=
  match s.startStep with
  | .wipe p => act (s.wiped p)
  | _ => discard s

/-! ### The entry to SERVING (R173) -/

/-- The start completes (R173). -/
def State.enterServing (s : State) : State :=
  let s1 := ((s.setMode .serving).setStart .none).send .ready
  (s1.beginScan.lampDispatch).dispatch.checkPass

/-- The header write completes: the generation is settled (R179). -/
def State.headerWritten (s : State) (g : Nat) : State :=
  (s.onIndex fun a => { a with header := some ⟨g, s.cfg.digest⟩ }).setGeneration (some g)

/-- HEADER_WRITE_DONE (R173, R179). -/
def execHeaderWriteDone (s : State) : Host.Outcome State Fault Refusal :=
  match s.startStep with
  | .headerWrite true g => act ((s.headerWritten g).setStart .rebuild)
  | .headerWrite false g => act (s.headerWritten g).enterServing
  | _ => discard s

/-- REBUILD_DONE (R173, R180). -/
def execRebuildDone (s : State) : Host.Outcome State Fault Refusal :=
  if s.startStep = .rebuild then act s.rebuild.enterServing else discard s

/-- PAGE_WRITE_DONE (R182). -/
def execPageWriteDone (s : State) : Host.Outcome State Fault Refusal :=
  if s.writer.writing.isSome then act s.writeDone else discard s

end Sys2Proof.Machine
end

