-- ==== Sys2Proof/Machine/Records.lean ====
section
/-! DEFINITION. A record from the switch as it arrives in bytes: what the port discards and counts
(R184, R185, R191). -/

namespace Sys2Proof.Machine

/-- The owning block's meaning of a record that has passed the port (R184). -/
def recordPassed (c : Instr) (s : State) : Host.Outcome State Fault Refusal :=
  match c with
  | .call ch ext reason internal ids => execCall ch ext reason internal ids s
  | .retrieve ch ext => execRetrieve ch ext s
  | .digit ch key => execDigit ch key s
  | .release ch g => execRelease ch g s
  | .time day minute => execTime day minute s
  | .lampResult ext result => execLampResult ext result s
  | .lineReset g => execLineReset g s
  | .statusQuery => execStatusQuery s
  | .shutdown => execShutdown s
  | .resume => execResume s
  | _ => discard s

/-- RECORD_DISCARDED (R185, R191): the record is checked, and one that fails is counted and reaches no
block. A record that passes the check is handed to its block (R184, log 28). -/
def execRecordDiscarded (r : RawRecord) (s : State) : Host.Outcome State Fault Refusal :=
  match decodeRecord r with
  | none => discard s.countDiscard
  | some c => recordPassed c s

end Sys2Proof.Machine
end

