-- ==== Sys2Proof/Machine/Dispatch.lean ====
section
/-! DEFINITION. The meaning of each command: one arm per row of the table. -/

namespace Sys2Proof.Machine

def exec (i : Instr) (s : State) : Host.Outcome State Fault Refusal :=
  match i with
  | .resetPin => Sys2Proof.Machine.execResetPin s
  | .configReadDone stream => Sys2Proof.Machine.execConfigReadDone stream s
  | .headerReadDone => Sys2Proof.Machine.execHeaderReadDone s
  | .wipePageWriteDone => Sys2Proof.Machine.execWipePageWriteDone s
  | .headerWriteDone => Sys2Proof.Machine.execHeaderWriteDone s
  | .rebuildDone => Sys2Proof.Machine.execRebuildDone s
  | .pageWriteDone => Sys2Proof.Machine.execPageWriteDone s
  | .call ch ext reason internal identity => Sys2Proof.Machine.execCall ch ext reason internal identity s
  | .retrieve ch ext => Sys2Proof.Machine.execRetrieve ch ext s
  | .digit ch key => Sys2Proof.Machine.execDigit ch key s
  | .release ch gathered => Sys2Proof.Machine.execRelease ch gathered s
  | .time day minute => Sys2Proof.Machine.execTime day minute s
  | .lampResult ext result => Sys2Proof.Machine.execLampResult ext result s
  | .lineReset gathered => Sys2Proof.Machine.execLineReset gathered s
  | .statusQuery => Sys2Proof.Machine.execStatusQuery s
  | .shutdown => Sys2Proof.Machine.execShutdown s
  | .resume => Sys2Proof.Machine.execResume s
  | .recordDiscarded r => Sys2Proof.Machine.execRecordDiscarded r s
  | .sessionTimerExpiry ch gathered => Sys2Proof.Machine.execSessionTimerExpiry ch gathered s
  | .clearingTimerExpiry ch => Sys2Proof.Machine.execClearingTimerExpiry ch s
  | .digitTimerExpiry ch => Sys2Proof.Machine.execDigitTimerExpiry ch s
  | .interDigitTimerExpiry ch => Sys2Proof.Machine.execInterDigitTimerExpiry ch s
  | .segmentCaptured ch seg => Sys2Proof.Machine.execSegmentCaptured ch seg s
  | .greetingEnd ch => Sys2Proof.Machine.execGreetingEnd ch s
  | .toneEnd ch => Sys2Proof.Machine.execToneEnd ch s
  | .menuPromptEnd ch => Sys2Proof.Machine.execMenuPromptEnd ch s
  | .promptEnd ch => Sys2Proof.Machine.execPromptEnd ch s
  | .recordPromptEnd ch => Sys2Proof.Machine.execRecordPromptEnd ch s
  | .timeIsUpPromptEnd ch => Sys2Proof.Machine.execTimeIsUpPromptEnd ch s
  | .finalPromptEnd ch => Sys2Proof.Machine.execFinalPromptEnd ch s
  | .summaryEnd ch => Sys2Proof.Machine.execSummaryEnd ch s
  | .playbackEnd ch => Sys2Proof.Machine.execPlaybackEnd ch s
  | .reviewPlaybackEnd ch => Sys2Proof.Machine.execReviewPlaybackEnd ch s
  | .slotPlaybackEnd ch => Sys2Proof.Machine.execSlotPlaybackEnd ch s
  | .lampResultTimeout ext => Sys2Proof.Machine.execLampResultTimeout ext s
  | .scanStepTimerExpiry => Sys2Proof.Machine.execScanStepTimerExpiry s
  | .hailTimerExpiry => Sys2Proof.Machine.execHailTimerExpiry s
  | .aloneTimerExpiry => Sys2Proof.Machine.execAloneTimerExpiry s
  | .joinTimerExpiry => Sys2Proof.Machine.execJoinTimerExpiry s
  | .presenceTimeout node => Sys2Proof.Machine.execPresenceTimeout node s
  | .mediumIdle => Sys2Proof.Machine.execMediumIdle s
  | .arbitrationLost => Sys2Proof.Machine.execArbitrationLost s
  | .bitError => Sys2Proof.Machine.execBitError s
  | .transmissionEnd reading => Sys2Proof.Machine.execTransmissionEnd reading s
  | .busyWaitExpiry r => Sys2Proof.Machine.execBusyWaitExpiry r s
  | .frameReceived f => Sys2Proof.Machine.execFrameReceived f s
  | .mediumDominantFault => Sys2Proof.Machine.execMediumDominantFault s
  | .mediumRecessiveRecovery => Sys2Proof.Machine.execMediumRecessiveRecovery s
  | .hailHanded => Sys2Proof.Machine.execHailHanded s
  | .seekHanded => Sys2Proof.Machine.execSeekHanded s
  | .claimHanded => Sys2Proof.Machine.execClaimHanded s
  | .offerHanded => Sys2Proof.Machine.execOfferHanded s
  | .carryHanded => Sys2Proof.Machine.execCarryHanded s
  | .closeHanded => Sys2Proof.Machine.execCloseHanded s
  | .takeHanded => Sys2Proof.Machine.execTakeHanded s
  | .balkHanded => Sys2Proof.Machine.execBalkHanded s
  | .receiptHanded => Sys2Proof.Machine.execReceiptHanded s
  | .claimTimerExpiry k => Sys2Proof.Machine.execClaimTimerExpiry k s
  | .answerTimerExpiry k => Sys2Proof.Machine.execAnswerTimerExpiry k s
  | .receiptTimerExpiry k => Sys2Proof.Machine.execReceiptTimerExpiry k s
  | .idleTimerExpiry k => Sys2Proof.Machine.execIdleTimerExpiry k s
  | .lingerTimerExpiry k => Sys2Proof.Machine.execLingerTimerExpiry k s
  | .notBeforeReached pos => Sys2Proof.Machine.execNotBeforeReached pos s
  | .minuteTimerExpiry => Sys2Proof.Machine.execMinuteTimerExpiry s
  | .postponementTimerExpiry => Sys2Proof.Machine.execPostponementTimerExpiry s
  | .passVisit => Sys2Proof.Machine.execPassVisit s

end Sys2Proof.Machine
end

