-- ==== Sys2Proof/Safety.lean ====
section
/-! DEFINITION. What counts as a sound node: the laws the manual says hold at all times, in the terms
the statements use. -/

namespace Sys2Proof.Machine

/-! ### The Audio Store (R2-R7) -/

/-- The blocks of an object table, chain by chain. -/
def tableBlocks (objs : List (Nat × Obj)) : List Nat := objs.flatMap fun p => p.2.chain

/-- The sum of the object earmarks (R6). -/
def tableEarmark (objs : List (Nat × Obj)) : Nat := (objs.map fun p => p.2.earmark).sum

/-- What a SHARED object counts towards the broadcast usage (R7). -/
def Obj.sharedPart (o : Obj) : Nat := if o.use = .shared then o.chain.length + o.earmark else 0

/-- The broadcast usage of an object table (R7). -/
def tableShared (objs : List (Nat × Obj)) : Nat := (objs.map fun p => p.2.sharedPart).sum

/-- One object as R4, R16 and R20 describe it: a block for every 8 segments or part of 8, and once it is
COMPLETE no earmark and at least one reference. -/
def Obj.sound (o : Obj) : Bool :=
  o.chain.length == blocksOf o.segments && (!o.complete || (o.earmark == 0 && decide (1 ≤ o.refs)))

/-- The laws of the store for a pool of `p` blocks and a broadcast budget of `b`: every block is either
on the free list or in the chain of exactly one object (R2), E is the sum of the earmarks and never above
F (R6), U_b is the blocks and earmarks of SHARED objects and never above the budget (R7), the table's
numbers rise within 1-8,192 (R4), and no COMPLETE object is without a reference (R20). -/
structure Store.Lawful (st : Store) (p b : Nat) : Prop where
  numbers : rising st.objects = true
  within : ∀ x ∈ st.objects, 1 ≤ x.1 ∧ x.1 ≤ Config.maxObjects
  blocks : (st.free ++ tableBlocks st.objects).Perm (List.range p)
  earmarks : st.earmark = tableEarmark st.objects
  covered : st.earmark ≤ st.free.length
  broadcast : st.sharedUse = tableShared st.objects
  budget : st.sharedUse ≤ b
  objects : ∀ x ∈ st.objects, x.2.sound = true

/-- The node's store and pool are sound: before a start has read the configuration the store is not set
up, once it is set up its laws hold, and the pool's memory is in its canonical form
(R2, R23, R24; log 10). -/
structure State.StoreSound (s : State) : Prop where
  unset : s.startStep = .configRead → s.store.ready = false
  laws : s.store.ready = true → s.store.Lawful s.cfg.pool s.cfg.budget
  memory : audioWf s.audio = true

/-! ### Queues and tables of fixed size -/

/-- The lamp queue holds at most 32 commands and one per extension (R106), and at most 4 commands are
outstanding, one per extension (R107). -/
def LampUnit.Bounded (l : LampUnit) : Prop :=
  (l.queue.length ≤ Config.lampQueueMax ∧ (l.queue.map (·.ext)).Nodup) ∧
    l.outstanding.length ≤ Config.lampOutstandingMax ∧ (l.outstanding.map (·.1.ext)).Nodup

/-- The send list holds at most one frame of each requester (R120), and the inbound buffer at most 8
frames (R127). -/
def LinkCtl.Bounded (l : LinkCtl) : Prop :=
  (l.sendList.map (·.req)).Nodup ∧ l.buffer.length ≤ Config.bufferMax

/-- The answer queue holds at most 8 answers (R142), and the route cache at most 256 entries, one per
extension (R140). -/
def Delivery.Bounded (d : Delivery) : Prop :=
  d.answers.length ≤ Config.answersMax ∧ d.routes.length ≤ Config.routesMax ∧
    (d.routes.map (·.1)).Nodup

/-- Every queue of the node keeps its size: the type-ahead of each channel holds at most 8 digits (R67),
and the latched alarm set holds no kind twice (R187). -/
structure State.Bounded (s : State) : Prop where
  keys : ∀ c ∈ s.chans, c.typeAhead.length ≤ Config.typeAheadMax
  lamp : s.lamp.Bounded
  link : s.link.Bounded
  deliv : s.deliv.Bounded
  alarms : s.alarms.Nodup

/-! ### The shape of the tables -/

/-- The counts of channels, lines, queue positions, slots, groups and presence entries are those the
manual gives (R66, R189, R137, R144, R149, R157, R128), and once the blocks are set up there is a mailbox
and a lamp record for every configured record (R29, R103). -/
structure State.Shaped (s : State) : Prop where
  unset : s.startStep = .configRead → s.store.ready = false
  chans : s.chans.length = Config.channels
  lines : s.lines.length = 4
  queue : s.deliv.queue.length = Config.queuePositions
  outSlots : s.deliv.outSlots.length = 2
  inSlots : s.deliv.inSlots.length = 4
  groups : s.deliv.groups.length = 8
  presence : s.link.presence.length = Config.nodes
  boxes : s.store.ready = true → s.mailboxes.length = s.cfg.mailboxes.length
  lamps : s.store.ready = true → s.lamp.recs.length = s.mailboxes.length

/-! ### The end of an act -/

/-- The status lines stand as their sources say (R189), a writer of a serving or draining node is idle
only when no page is marked (R182), and a draining node whose drain condition holds has stopped (R174,
R175). -/
structure State.Settled (s : State) : Prop where
  lines : s.lines = s.lineLevels
  writer : s.mode = .serving ∨ s.mode = .draining → s.writer.writing = none →
    s.writer.dirtyObjects = [] ∧ s.writer.dirtyOthers = []
  drain : s.mode = .draining → s.drained = false

/-! ### Modes -/

/-- A step of a start is under way exactly in STARTING (R172, R173, R176). -/
def State.StartAgrees (s : State) : Prop := s.startStep ≠ .none ↔ s.mode = .starting

/-- A command is another, or a record that passes the port as it (R184). -/
def asks (c x : Instr) : Prop := c = x ∨ ∃ r, c = .recordDiscarded r ∧ decodeRecord r = some x

/-- What a command may do to the mode: the reset pin starts the node (R172), an unusable image halts it
(R176), the last step of a start brings it into service (R173), SHUTDOWN makes it drain and perhaps stop at
once (R174), any act may end a drain (R175), and RESUME starts a stopped node (R172). -/
def modeMoves (c : Instr) (m m' : Mode) : Prop :=
  m' = m ∨ (c = .resetPin ∧ m' = .starting) ∨
    ((∃ b, c = .configReadDone b) ∧ m = .starting ∧ m' = .halted) ∨
    ((c = .headerWriteDone ∨ c = .rebuildDone) ∧ m = .starting ∧ m' = .serving) ∨
    (asks c .shutdown ∧ m = .serving ∧ (m' = .draining ∨ m' = .stopped)) ∨
    (m = .draining ∧ m' = .stopped) ∨ (asks c .resume ∧ m = .stopped ∧ m' = .starting)

/-! ### References and the laws of the Directory -/

/-- The objects that channels play (R20). -/
def State.playings (s : State) : List Nat := s.chans.filterMap (·.playing)

/-- The objects that channels record or hold as their recording (R20). -/
def State.recordings (s : State) : List Nat := s.chans.filterMap (·.recording)

/-- The objects that inbound slots are filling (R149). -/
def State.fillings (s : State) : List Nat :=
  (s.deliv.inSlots.filter fun x => x.state == .filling).map (·.object)

/-- The objects that entries, greeting slots and queue entries refer to, one for each (R20). -/
def State.kept (s : State) : List Nat := holdings s.mailboxes s.deliv.queue

/-- Object `n` is counted as R20 says: a COMPLETE one has a reference for each entry, greeting slot, queue
entry and channel that refers to it, and an OPEN one has one writer and no reference. -/
def State.countsRight (s : State) (n : Nat) (o : Obj) : Prop :=
  if o.complete = true then
    o.refs = s.kept.count n + s.playings.count n + s.recordings.count n ∧ s.fillings.count n = 0
  else
    o.refs = 0 ∧ s.kept.count n + s.playings.count n = 0 ∧
      s.recordings.count n + s.fillings.count n = 1

/-- Every object in the table is counted right, and every reference and every writer is to an object of the
table (R20). -/
structure State.Counted (s : State) : Prop where
  counts : ∀ x ∈ s.store.objects, s.countsRight x.1 x.2
  present : ∀ n ∈ s.kept ++ s.playings ++ s.recordings ++ s.fillings, (s.obj? n).isSome = true

/-- The states in which a channel writes an OPEN object (R77, R78, R96, R97, R56, R57). -/
def ChanState.writes (c : ChanState) : Bool :=
  c ∈ [.tone, .recording, .sendPrompt, .sendTone, .sendCapture, .greetPrompt, .greetTone, .greetCapture]

/-- The states in which a channel holds a COMPLETE recording (R79, R81, R97, R98, R57, R58). -/
def ChanState.holdsRecording (c : ChanState) : Bool :=
  c ∈ [.timeUp, .options, .sendTimeUp, .sendOptions, .greetTimeUp, .review]

/-- The states of a deposit that holds a reservation (R77, R80). -/
def ChanState.reserves (c : ChanState) : Bool :=
  c ∈ [.tone, .recording, .timeUp, .options, .recordPrompt]

/-- The states of a recording for sending, which has a target (R96). -/
def ChanState.sends (c : ChanState) : Bool :=
  c ∈ [.sendPrompt, .sendTone, .sendCapture, .sendTimeUp, .sendOptions]

/-- The blocks an object holds or may still take. -/
def State.blocksFor (s : State) (o : Option Nat) : Nat :=
  match o.bind s.obj? with
  | none => 0
  | some x => x.chain.length + x.earmark

/-- What a channel holds agrees with its state (R66, R77-R81, R96-R98, R56-R58): a cleared record in IDLE, a
playback only where one can be under way, a recording that is OPEN or COMPLETE as the state says, and a
reservation in a mailbox in service with a grant that covers the recording. -/
structure State.ChannelSound (s : State) (c : Channel) : Prop where
  idle : c.state = .idle → c = Channel.idle
  playing : c.playing.isSome = true → c.state = .greeting ∨ c.state = .playing ∨ c.state = .slot
  recording : c.recording.isSome = (c.state.writes || c.state.holdsRecording)
  complete : ∀ n o, c.recording = some n → s.obj? n = some o → o.complete = c.state.holdsRecording
  target : c.state.sends = true → c.target.isSome = true
  reservation : c.reservation = c.state.reserves
  served : c.reservation = true → s.inService (c.mailbox.getD 0) = true
  grant : c.recording = none → c.grant = 0
  covered : c.reservation = true → s.blocksFor c.recording ≤ c.grant

/-- What a FILLING inbound slot holds (R149-R151): a reservation for a DIRECT transfer, in a mailbox in
service, with a grant that covers the object. -/
structure State.InSlotSound (s : State) (x : InSlot) : Prop where
  reservation : x.state = .filling → x.reservation = !x.list
  served : x.state = .filling → x.reservation = true → s.inService x.target = true
  covered : x.state = .filling → x.reservation = true → s.blocksFor (some x.object) ≤ x.grant

/-- The channels that hold a reservation in mailbox `k` (R33). -/
def State.depositsFor (s : State) (k : Nat) : List Channel :=
  s.chans.filter fun c => c.reservation && c.mailbox.getD 0 == k

/-- The inbound slots that hold a reservation in mailbox `k` (R33). -/
def State.transfersFor (s : State) (k : Nat) : List InSlot :=
  s.deliv.inSlots.filter fun x => x.state == .filling && x.reservation && x.target == k

/-- The laws of one mailbox: entries and reservations within the class maximum (R31), message numbers
distinct and in their range (R30, R32), a reservation for each deposit and transfer that holds one (R33), the
charge the chains of the VOICE entries, the pending charge the grants of those deposits and transfers, and
both together within the quota (R39). -/
structure State.MailboxSound (s : State) (k : Nat) (m : Mailbox) : Prop where
  room : m.entries.length + m.reserved ≤ (s.cls k).maxEntries
  distinct : (m.entries.map (·.number)).Nodup
  numbers : ∀ e ∈ m.entries, 1 ≤ e.number ∧ e.number ≤ Config.maxNumber
  next : 1 ≤ m.nextNumber ∧ m.nextNumber ≤ Config.maxNumber
  reserved : m.reserved = (s.depositsFor k).length + (s.transfersFor k).length
  pending : m.pending =
    ((s.depositsFor k).map (·.grant)).sum + ((s.transfersFor k).map (·.grant)).sum
  charged : m.charged = chargedOf s.store.objects m.entries
  quota : m.charged + m.pending ≤ (s.cls k).quota

/-- The references and the Directory's records are sound: every object is counted right (R20), what channels
and inbound slots hold agrees with their states, each mailbox keeps its laws (R31, R32, R33, R39), and no
channel holds two retrieval locks (R41). The rest says where in a start and in which modes nothing is held:
sessions and transfers run only in SERVING and DRAINING (R73, R85, R150, R174), and the queue is empty until
a start completes (R159). -/
structure State.Accounted (s : State) : Prop where
  counted : s.Counted
  chans : ∀ c ∈ s.chans, s.ChannelSound c
  inSlots : ∀ x ∈ s.deliv.inSlots, s.InSlotSound x
  boxes : ∀ k m, s.mailboxes[k]? = some m → s.MailboxSound k m
  locks : (s.mailboxes.filterMap (·.lock)).Nodup
  classes : ∀ c ∈ s.cfg.classes, c.maxEntries ≤ 64
  unset : s.store.ready = false → s.mailboxes = [] ∧ s.store.objects = [] ∧
    (s.mode = .starting ∨ s.mode = .halted)
  quiet : s.mode ≠ .serving → s.mode ≠ .draining →
    (∀ c ∈ s.chans, c.state = .idle) ∧ ∀ x ∈ s.deliv.inSlots, x.state = .free
  starts : s.mode = .starting ∨ s.mode = .halted → ∀ q ∈ s.deliv.queue, q = none
  step : s.StartAgrees

/-! ### Presence (R128) -/

/-- `t` is the node after a refresh of node `n` (R128): present for 30 s from now; one that was absent has its
routes purged (R140), and the alone timer and condition end (R132). -/
def State.RefreshedTo (s : State) (n : Nat) (t : State) : Prop :=
  (s.isPresent n = true ∧
    t = s.onPresence n fun p => { p with present := true, absence := some 30000 }) ∨
  (s.isPresent n = false ∧
    t = ({ s with
      link := { s.link with aloneTimer := none, alone := false }
      deliv := { s.deliv with routes := s.deliv.routes.filter fun r => r.2 != n } } : State).onPresence n
        fun p => { p with present := true, absence := some 30000 })

end Sys2Proof.Machine
end

