-- ==== Sys2Proof/Certificates/Slice0/Obligations.lean ====
section
/-! DEFINITION. The statements for the provers: what the manual's rules say of the node, its steps and
each of its commands. Where a command's statement ends in `.settle`, ActEndsWithTheWriter
and DrainEndsInStopped say what that end of an act changes. -/

open Sys2Proof Sys2Proof.Machine

/-! ### The machine as a whole -/

/-- A step is the command at the front of the queue, run on the node with the queue's rest; on an empty
queue the node idles, which is the model's choice (log 1). -/
def Obligations.StepRunsFrontCommand : Prop :=
  (∀ (c : Instr) (rest : List Instr) (s : State), s.pending = c :: rest →
    step s = exec c { s with pending := rest }) ∧
  ∀ s : State, s.pending = [] → step s = .next s

/-- Every command answers a next state in every state, and leaves the queue of commands alone: the manual
gives every event an effect, if only that it is discarded (log 2). -/
def Obligations.EveryCommandCompletes : Prop :=
  ∀ (c : Instr) (s : State), ∃ t, exec c s = .next t ∧ t.pending = s.pending

/-- What a start sets up (R66, R124, R128, R133, R136, R159, R171, R181, R185, R187, R189). -/
def Obligations.ResetStateAsStarted : Prop :=
  (State.reset.mode = .starting ∧ State.reset.startStep = .configRead ∧ State.reset.alarms = [] ∧
    State.reset.discarded = 0 ∧ State.reset.generation = none ∧
    State.reset.lines = [false, false, false, false] ∧
    State.reset.chans = List.replicate 16 Channel.idle) ∧
  (State.reset.link.state = .joining ∧ State.reset.link.joinTimer = some 10000 ∧
    State.reset.link.hailTimer = none ∧ State.reset.link.aloneTimer = none ∧
    State.reset.link.muteCount = 0 ∧ State.reset.link.sendList = [] ∧ State.reset.link.buffer = [] ∧
    ∀ n, State.reset.presence n = ⟨false, none, none⟩) ∧
  (State.reset.deliv.queue = List.replicate 64 none ∧
    (∀ i, (State.reset.outSlot i).state = .free) ∧ (∀ j, (State.reset.inSlot j).state = .free) ∧
    State.reset.deliv.routes = [] ∧ State.reset.deliv.answers = [] ∧
    State.reset.deliv.groups = List.replicate 8 none ∧ State.reset.deliv.tagCounter = 0 ∧
    State.reset.deliv.seekCounter = 0 ∧ State.reset.deliv.enqCounter = 0) ∧
  (State.reset.house.clock = none ∧ State.reset.house.minuteTimer = none ∧
    State.reset.house.lastPassDay = none ∧ State.reset.house.sched = .idle ∧
    State.reset.house.postponements = 0 ∧ State.reset.house.lastCauses = ⟨false, false, false⟩ ∧
    State.reset.house.postponeTimer = none) ∧
  State.reset.writer.dirtyObjects = [] ∧ State.reset.writer.dirtyOthers = [] ∧
    State.reset.writer.writing = none

/-- The invariants of the statements below hold right after reset. -/
def Obligations.InvariantsHoldAtReset : Prop :=
  State.reset.StoreSound ∧ State.reset.Bounded ∧ State.reset.Shaped ∧ State.reset.Settled ∧
    State.reset.StartAgrees ∧ State.reset.Accounted

/-- Every step keeps the laws of the Audio Store: no block lost or shared (R2), E the sum of the earmarks
and never above F (R6), U_b never above the budget (R7), no COMPLETE object without a reference (R20), and
the pool's memory in its canonical form. -/
def Obligations.StoreLawsKeptByEveryStep : Prop :=
  ∀ s t : State, s.StoreSound → step s = .next t → t.StoreSound

/-- Every step keeps the queues within their sizes (R67, R106, R107, R120, R127, R140, R142, R187). -/
def Obligations.QueuesKeepTheirSizes : Prop :=
  ∀ s t : State, s.Bounded → step s = .next t → t.Bounded

/-- Every step keeps the counts of channels, lines, positions, slots, groups, presence entries, mailboxes
and lamp records. Every step of a node whose store and tables are sound keeps the count of every object's
references exact (R20), and in each mailbox the entries and reservations within the class maximum (R31), the
message numbers distinct (R32), a reservation for each deposit and transfer that holds one (R33), the charge
the chains of the VOICE entries and both charges within the quota (R39), and no channel the holder of two
retrieval locks (R41). The premise that it keeps also says what a channel and a slot hold in each of their
states, and that nothing is held before the blocks are set up, which is the model's choice (log 10). -/
def Obligations.TablesKeepTheirShape : Prop :=
  (∀ s t : State, s.Shaped → step s = .next t → t.Shaped) ∧
  ∀ s t : State, s.StoreSound → s.Shaped → s.Accounted → step s = .next t → t.Accounted

/-- Every step leaves the lines as their sources say (R189), no write waiting while the writer is idle
(R182), and no drained node still draining (R174, R175). -/
def Obligations.EveryStepEndsSettled : Prop :=
  ∀ s t : State, s.Settled → step s = .next t → t.Settled

/-- The mode changes only as R172 to R176 say, and STARTING is the mode of a start under way. -/
def Obligations.ModesMoveOnlyAsRuled : Prop :=
  ∀ (c : Instr) (s t : State), s.StartAgrees → exec c s = .next t →
    modeMoves c s.mode t.mode ∧ t.StartAgrees

/-- The held settings change only at a start that reads the image (R26, R28, R177), the generation only
where it is settled or a start begins (R179), the index area only by the writer, the wipe, the header write
and a reset that cuts a write off (R172, R179, R182), and the discarded-record count only rises by one, to
65,535 at most, or goes to 0 as a start begins, which is the model's reading of R185: a start that completes
or ends in HALTED leaves the count as it is (log 23). -/
def Obligations.HeldStateChangesByNamedCommands : Prop :=
  ∀ (c : Instr) (s t : State), exec c s = .next t →
    (c ≠ .resetPin → (∀ b, c ≠ .configReadDone b) → ¬ asks c .resume →
      t.cfg = s.cfg ∧ t.configured = s.configured) ∧
    (c ≠ .resetPin → c ≠ .headerWriteDone → ¬ asks c .resume → t.generation = s.generation) ∧
    (c ≠ .resetPin → c ≠ .wipePageWriteDone → c ≠ .headerWriteDone → c ≠ .pageWriteDone →
      t.index = s.index) ∧
    (t.discarded = s.discarded ∨ (s.discarded < 65535 ∧ t.discarded = s.discarded + 1) ∨
      (t.discarded = 0 ∧ (c = .resetPin ∨ asks c .resume)))

/-! ### Formats -/

/-- Every well-formed frame, at every priority, is read back as it was sent and is intact (R119, 12.1). The
segment of a CARRY comes back with its 250 bytes and with the magnitude that travels beside them, which is no
bit of the frame (log 6). -/
def Obligations.FramesRoundTrip : Prop :=
  ∀ (priority : Nat) (f : Frame), priority < 8 → f.wf = true →
    decodeFrame (encodeFrame priority f) = some f ∧ (encodeFrame priority f).intact = true

/-- Every well-formed command that is a record from the switch is read back from its bytes (12.2). -/
def Obligations.RecordsRoundTrip : Prop :=
  ∀ (c : Instr) (r : RawRecord), wellFormed c = true → encodeRecord c = some r →
    decodeRecord r = some c

/-- The settings of a usable image lie in the ranges of R2, R7, R17, R22, R28, R111 and R177, whatever the
image holds, and a usable mailbox record lies in a range (R26). -/
def Obligations.ImageIsClamped : Prop :=
  ∀ (stream : List Byte) (c : Settings), loadImage stream = some c →
    (1 ≤ c.node ∧ c.node ≤ 30 ∧ 1 ≤ c.mailboxes.length ∧ c.mailboxes.length ≤ 2048 ∧
      1 ≤ c.ranges.length ∧ c.ranges.length ≤ 8) ∧
    (1024 ≤ c.pool ∧ c.pool ≤ 65536 ∧ c.guard ≤ c.pool / 4 ∧ c.budget ≤ c.pool / 2 ∧
      c.silence ≤ 2047 ∧ 1 ≤ c.lowPercent ∧ c.lowPercent ≤ 50) ∧
    (c.scanStart ≤ c.scanEnd ∧ c.scanEnd < c.mailboxes.length ∧ c.passHour ≤ 23 ∧
      c.chanThreshold ≤ 16 ∧ c.lineSources.length = 4) ∧
    (c.classes.length = 8 ∧ ∀ x ∈ c.classes,
      x.quota ≤ 16000 ∧ 1 ≤ x.maxEntries ∧ x.maxEntries ≤ 64 ∧ 10 ≤ x.maxSeconds ∧
      x.maxSeconds ≤ 600 ∧ 2 ≤ x.minRoom ∧ x.minRoom ≤ 30 ∧ x.minRoom ≤ x.maxSeconds ∧
      1 ≤ x.heardDays ∧ x.heardDays ≤ 90 ∧ 1 ≤ x.savedDays ∧ x.savedDays ≤ 365 ∧
      x.allowance ≤ 480 ∧ 1 ≤ x.broadcastLife ∧ x.broadcastLife ≤ 30 ∧
      ∀ e, x.operator = some e → 1000 ≤ e ∧ e ≤ 99999) ∧
    ∀ m ∈ c.mailboxes, m.cls ≤ 7 ∧ (m.usable = true → 1000 ≤ m.extension ∧ m.extension ≤ 99999 ∧
      ∃ r ∈ c.ranges, r.1 ≤ m.extension ∧ m.extension ≤ r.2)

/-! ### The end of an act -/

/-- Outside DRAINING the end of an act changes the writer, the Controller's count of moments (log 3) and the
status lines, which then stand as their sources say (R189), and nothing else (log 16). In SERVING and
DRAINING an idle writer begins the first object page, or else the first mailbox or queue page, with the
page's content at that moment; and a completed write stands in the index area (R182). What each of the
eight sources makes of a line (R189): all are inactive until the configuration has been handed out, and then
a line is active while the latched set is not empty, F - E is below the configured percentage, the link is
alone, all 16 channels are busy, the pass runs, a page is marked, or the mode is DRAINING, as its source says.
That the store-low condition does not hold before the store is set up is the model's choice (log 10). -/
def Obligations.ActEndsWithTheWriter : Prop :=
  (∀ s : State, s.mode ≠ .draining →
    s.settle = { s with
      writer := s.beginWrite.writer
      link := { s.link with
        moment := if s.link.sendList.any fun x => x.handed == s.link.moment then s.link.moment + 1
          else s.link.moment }
      lines := s.beginWrite.lineLevels }) ∧
  ((∀ s : State, s.mode = .serving ∨ s.mode = .draining → s.writer.writing = none →
    (∀ j rest, s.writer.dirtyObjects = j :: rest →
      s.beginWrite = { s with writer :=
        ⟨rest, s.writer.dirtyOthers, some (.object j, .objects (s.objectPageImage j))⟩ }) ∧
    (∀ p rest, s.writer.dirtyObjects = [] → s.writer.dirtyOthers = p :: rest →
      s.beginWrite = { s with writer := ⟨[], rest, some (p, s.pageImage p)⟩ })) ∧
  (∀ s : State, s.mode ≠ .serving → s.mode ≠ .draining → s.beginWrite = s) ∧
  ∀ (s : State) (p : PageId) (c : PageImage), s.writer.writing = some (p, c) →
    ∃ a : IndexArea,
      exec .pageWriteDone s =
        .next ({ s with index := a, writer := { s.writer with writing := none } } : State).settle ∧
      a.header = s.index.header ∧ a.page? p = some c ∧ ∀ q, q ≠ p → a.page? q = s.index.page? q) ∧
  ∀ s : State, s.lineLevels.length = 4 ∧
    ∀ (i : Nat) (x : LineSource), i < 4 → x = (s.cfg.lineSources[i]?).getD .none →
      ∃ b : Bool, s.lineLevels[i]? = some b ∧
        (s.configured = false → b = false) ∧
        (s.configured = true →
          (x = .none → b = false) ∧
          (x = .anyAlarm → (b = true ↔ s.alarms ≠ [])) ∧
          (x = .storeLow → (b = true ↔ s.store.ready = true ∧
            s.store.free.length < s.cfg.pool * s.cfg.lowPercent / 100 + s.store.earmark)) ∧
          (x = .linkAlone → b = s.link.alone) ∧
          (x = .channelsFull → (b = true ↔ (s.chans.filter fun c => c.state != .idle).length = 16)) ∧
          (x = .housekeeping → (b = true ↔ s.house.sched = .running)) ∧
          (x = .indexBusy → (b = true ↔ s.writer.dirtyObjects ≠ [] ∨ s.writer.dirtyOthers ≠ [])) ∧
          (x = .draining → (b = true ↔ s.mode = .draining)))

/-- The drain condition (R174) and the entry to STOPPED (R175): the send list, the buffer and the answer
queue are emptied, the link's timers stop, and sessions, store, mailboxes, queue and index stay as they
stand. The scan's timer stops as log 20 says. -/
def Obligations.DrainEndsInStopped : Prop :=
  ∀ s : State, s.mode = .draining →
    ((∀ c ∈ s.chans, c.state = .idle) → (∀ o ∈ s.deliv.outSlots, o.state = .free) →
      (∀ x ∈ s.deliv.inSlots, x.state = .free) → s.writer = ⟨[], [], none⟩ →
      ∃ lines : List Bool, s.settle = { s with
        mode := .stopped
        link := { s.link with
          sendList := [], transmitting := none, buffer := [], joinTimer := none, hailTimer := none
          aloneTimer := none, alone := false }
        deliv := { s.deliv with answers := [] }
        lamp := { s.lamp with scanTimer := none }
        lines := lines }) ∧
    ((∃ c ∈ s.chans, c.state ≠ .idle) ∨ (∃ o ∈ s.deliv.outSlots, o.state ≠ .free) ∨
      (∃ x ∈ s.deliv.inSlots, x.state ≠ .free) ∨ s.writer.writing.isSome = true →
      s.settle.mode = .draining)

/-! ### The Audio Store -/

/-- An append to an OPEN object (R16, R17): a full last block takes the block at the head of the free list
out of the earmark, a spent earmark refuses, and the segment stands in its position while every other
position reads as before. -/
def Obligations.AppendStoresASegment : Prop :=
  ∀ (s : State) (n : Nat) (seg : Segment) (o : Obj), s.obj? n = some o → audioWf s.audio = true →
    (o.segments % 8 = 0 → o.earmark = 0 → s.append n seg = none) ∧
    (∀ b rest, o.segments % 8 = 0 → 0 < o.earmark → s.store.free = b :: rest →
      ∃ t, s.append n seg = some t ∧
        t.store = { s.store with
          free := rest, earmark := s.store.earmark - 1
          objects := tblSet n { o with
            chain := o.chain ++ [b], earmark := o.earmark - 1, segments := o.segments + 1
            silentTail := if seg.magnitude < 500 * s.cfg.silence then o.silentTail + 1 else 0 }
            s.store.objects } ∧
        audioRead t.audio (8 * b) = seg ∧
        (∀ a, a ≠ 8 * b → audioRead t.audio a = audioRead s.audio a) ∧
        t.mailboxes = s.mailboxes ∧ t.chans = s.chans ∧ t.writer = s.writer) ∧
    (∀ b, o.segments % 8 ≠ 0 → o.chain.getLast? = some b →
      ∃ t, s.append n seg = some t ∧
        t.store = { s.store with
          objects := tblSet n { o with
            segments := o.segments + 1
            silentTail := if seg.magnitude < 500 * s.cfg.silence then o.silentTail + 1 else 0 }
            s.store.objects } ∧
        audioRead t.audio (8 * b + o.segments % 8) = seg ∧
        (∀ a, a ≠ 8 * b + o.segments % 8 → audioRead t.audio a = audioRead s.audio a) ∧
        t.mailboxes = s.mailboxes ∧ t.chans = s.chans ∧ t.writer = s.writer)

/-- A close with a trim and a number of first holders, at least one (R18): the kept blocks stay, the others
join the free-list tail, the earmark is released and the object is COMPLETE; below 16 segments the object is
discarded, its whole chain and earmark given back (R19). -/
def Obligations.CloseKeepsOrDiscards : Prop :=
  ∀ (s : State) (n trim holders : Nat) (o : Obj), s.obj? n = some o → rising s.store.objects = true →
    (16 ≤ o.segments - trim → 1 ≤ holders →
      ∃ t, s.closeObj n trim holders = (true, t) ∧
        t.obj? n = some { o with
          complete := true, segments := o.segments - trim
          chain := o.chain.take ((o.segments - trim + 7) / 8), refs := holders, earmark := 0
          silentTail := 0 } ∧
        (∀ m, m ≠ n → t.obj? m = s.obj? m) ∧
        t.store.free = s.store.free ++ o.chain.drop ((o.segments - trim + 7) / 8) ∧
        t.store.earmark = s.store.earmark - o.earmark ∧
        (o.use ≠ .shared → t.store.sharedUse = s.store.sharedUse) ∧
        t.mailboxes = s.mailboxes ∧ t.chans = s.chans ∧ t.audio = s.audio) ∧
    (o.segments - trim < 16 →
      ∃ t, s.closeObj n trim holders = (false, t) ∧ t = s.discardObj n ∧
        t.obj? n = none ∧ (∀ m, m ≠ n → t.obj? m = s.obj? m) ∧
        t.store.free = s.store.free ++ o.chain ∧
        t.store.earmark = s.store.earmark - o.earmark ∧
        t.store.sharedUse = (if o.use = .shared then
          s.store.sharedUse - (o.chain.length + o.earmark) else s.store.sharedUse) ∧
        t.mailboxes = s.mailboxes ∧ t.chans = s.chans ∧ t.audio = s.audio)

/-- References (R20): an add raises the count of a COMPLETE object and is refused at 65,535, a drop lowers
it, and the drop of the last one frees the object, its chain joining the free-list tail. -/
def Obligations.ReferencesRiseAndFall : Prop :=
  ∀ (s : State) (n : Nat) (o : Obj), s.obj? n = some o → o.complete = true →
    rising s.store.objects = true →
    (o.refs < 65535 →
      ∃ t, s.addRef n = some t ∧ t.obj? n = some { o with refs := o.refs + 1 } ∧
        (∀ m, m ≠ n → t.obj? m = s.obj? m) ∧ t.store.free = s.store.free ∧
        t.store.earmark = s.store.earmark ∧ t.store.sharedUse = s.store.sharedUse ∧
        t.audio = s.audio ∧ t.mailboxes = s.mailboxes ∧ t.chans = s.chans) ∧
    (65535 ≤ o.refs → s.addRef n = none) ∧
    (2 ≤ o.refs →
      (s.dropRef n).obj? n = some { o with refs := o.refs - 1 } ∧
        (s.dropRef n).store.free = s.store.free) ∧
    (o.refs = 1 →
      (s.dropRef n).obj? n = none ∧ (s.dropRef n).store.free = s.store.free ++ o.chain ∧
        (s.dropRef n).store.earmark = s.store.earmark ∧
        (s.dropRef n).store.sharedUse = (if o.use = .shared then s.store.sharedUse - o.chain.length
          else s.store.sharedUse)) ∧
    (∀ m, m ≠ n → (s.dropRef n).obj? m = s.obj? m) ∧ (s.dropRef n).audio = s.audio ∧
      (s.dropRef n).mailboxes = s.mailboxes ∧ (s.dropRef n).chans = s.chans

/-- The admission of a local deposit (R9, with R4 to R6): the permitted blocks are the least of the length
cap, the quota room and F - E; too few for the minimum room is FULL; no free object entry latches
OBJECTS_FULL; otherwise the lowest free number is an OPEN object owned by the mailbox, with E and the
pending charge raised. -/
def Obligations.DepositAdmission : Prop :=
  ∀ (s : State) (k b : Nat),
    b = min (((s.cls k).maxSeconds * 16 + 7) / 8)
      (min ((s.cls k).quota - (s.mb k).charged - (s.mb k).pending)
        (s.store.free.length - s.store.earmark)) →
    (min ((s.cls k).maxSeconds * 16) (8 * b) < (s.cls k).minRoom * 16 →
      s.admitDeposit k = (.full, s)) ∧
    ((s.cls k).minRoom * 16 ≤ min ((s.cls k).maxSeconds * 16) (8 * b) →
      (8192 < lowestFree 1 s.store.objects → s.admitDeposit k = (.noEntry, s.latch .objectsFull)) ∧
      (lowestFree 1 s.store.objects ≤ 8192 → rising s.store.objects = true →
        (∀ x ∈ s.store.objects, 1 ≤ x.1) →
        ∃ n t, s.admitDeposit k = (.granted n b, t) ∧ s.obj? n = none ∧
          (∀ m, 1 ≤ m → m < n → (s.obj? m).isSome = true) ∧
          t.obj? n = some ⟨false, .message, [], 0, 0, some k, b, 0⟩ ∧
          (∀ m, m ≠ n → t.obj? m = s.obj? m) ∧ t.store.free = s.store.free ∧
          t.store.earmark = s.store.earmark + b ∧ t.store.sharedUse = s.store.sharedUse ∧
          t.mailboxes = s.mailboxes.modify k (fun m => { m with pending := m.pending + b }) ∧
          t.chans = s.chans ∧ t.writer = s.writer))

/-! ### The Mailbox Directory -/

/-- A commit numbers, stamps and appends the entry, consumes the reservation and the grant, charges a VOICE
entry its chain and marks the page (R32, R35, R36, R49); every other mailbox keeps its list, and the store
and the channels are as they were. A removal takes the entry out, lowers charged by a VOICE entry's chain,
drops the reference and marks the page (R45). -/
def Obligations.EntriesAreAppendedAndRemoved : Prop :=
  (∀ (s : State) (k : Nat) (e : Entry) (reserved : Bool) (grant : Nat),
    s.inService k = true → k < s.mailboxes.length → e.kind = .voice →
    (s.mb k).entries.length ≤ 64 →
    ∃ (num : Nat) (t : State), s.commit k e reserved grant = t ∧
      (∃ i, num = nextNum^[i] (s.mb k).nextNumber ∧
        ∀ j, j < i → ∃ x ∈ (s.mb k).entries, x.number = nextNum^[j] (s.mb k).nextNumber) ∧
      (t.mb k).entries = (s.mb k).entries ++ [{ e with
        number := num, state := .new, arrival := s.now, changeDay := s.today, expiry := none }] ∧
      (∀ x ∈ (s.mb k).entries, x.number ≠ num) ∧
      (t.mb k).nextNumber = (if 9999 ≤ num then 1 else num + 1) ∧
      (t.mb k).reserved = (if reserved = true then (s.mb k).reserved - 1 else (s.mb k).reserved) ∧
      (t.mb k).pending = (s.mb k).pending - grant ∧
      (t.mb k).charged = (s.mb k).charged + s.chainLen e.object ∧
      (∀ j, j ≠ k → t.mb j = s.mb j) ∧ t.store = s.store ∧ t.chans = s.chans ∧
      t.writer = { s.writer with dirtyOthers := joinSet s.writer.dirtyOthers (.mailbox k) }) ∧
  (∀ (s : State) (k num : Nat) (e : Entry), k < s.mailboxes.length →
    (s.mb k).entry? num = some e →
    ((s.removeEntry k num).mb k).entries = (s.mb k).entries.erase e ∧
    ((s.removeEntry k num).mb k).charged =
      (s.mb k).charged - (if e.kind = .voice then s.chainLen e.object else 0) ∧
    ((s.removeEntry k num).mb k).nextNumber = (s.mb k).nextNumber ∧
    ((s.removeEntry k num).mb k).reserved = (s.mb k).reserved ∧
    (.mailbox k : PageId) ∈ (s.removeEntry k num).writer.dirtyOthers ∧
    (∀ j, j ≠ k → (s.removeEntry k num).mb j = s.mb j) ∧
    (e.object = none → (s.removeEntry k num).store = s.store) ∧
    (∀ n, e.object = some n → (s.removeEntry k num).store = (s.dropRef n).store))

/-- A save makes a NEW or HEARD entry SAVED and dates it today, absent while the clock is unset, marks the
page and lowers the NEW count of a NEW entry by one; a SAVED entry is left as it is, and an erase mark
stands, so that the session's end still removes the entry (R43). -/
def Obligations.SaveMakesAnEntrySaved : Prop :=
  ∀ (s : State) (k num : Nat) (e : Entry), k < s.mailboxes.length →
    (s.mb k).entry? num = some e → ((s.mb k).entries.map (·.number)).Nodup →
    (e.state ≠ .saved →
      ((s.saveEntry k num).mb k).entries = (s.mb k).entries.map (fun x =>
        if x.number = num then { x with state := .saved, changeDay := s.today } else x) ∧
      ((s.saveEntry k num).mb k).erasePending = (s.mb k).erasePending ∧
      (s.saveEntry k num).writer =
        { s.writer with dirtyOthers := joinSet s.writer.dirtyOthers (.mailbox k) } ∧
      ((s.saveEntry k num).mb k).newCount =
        (if e.state = .new then (s.mb k).newCount - 1 else (s.mb k).newCount) ∧
      (∀ j, j ≠ k → (s.saveEntry k num).mb j = s.mb j) ∧ (s.saveEntry k num).store = s.store) ∧
    (e.state = .saved → s.saveEntry k num = s) ∧
    (∀ i, num ∈ (s.mb k).erasePending → (s.mb k).lock = some i →
      (((s.saveEntry k num).sessionEnd k i).mb k).entry? num = none)

/-- A local forward of an object with references to spare (R12, R20, R37): a target that is disabled, full
or without quota room refuses it and nothing changes; otherwise the object gains a reference and the target
a VOICE entry. A recording sent to a list becomes a broadcast copy when the budget allows, and is otherwise
refused (R13). A local broadcast gives every enabled member of the list with room a reference and a SHARED
entry (R38). An entry joins the outbound queue in its lowest free position with the next sequence, those that
wait renumbered from 1 in their order when the counter is at its end (R137, R138). A DIRECT offer and a
broadcast of LIST entries are taken whole, each entry with a reference and a broadcast with the lowest free
group, and a dispatch follows; without a position for each entry or a free group the offer is refused and
QUEUE_FULL latched, and without the references it is refused. A send to a list (R99) converts the recording,
offers it for the present nodes in ascending number, serves the members here and tells the counts; a refusal
drops the recording, and serves no one. That the renumbering is tried before each entry (log 32) is the
model's reading, and that entries of one sequence keep one (log 53) its choice; a session is in PROMPTING after
a send by its reading (log 11). -/
def Obligations.ForwardsAndBroadcastCopies : Prop :=
  (∀ (s : State) (o t k : Nat) (urgent : Bool) (x : Obj),
    s.obj? o = some x → x.complete = true → x.refs < 65535 →
    (s.inService t = false → s.forward o t k urgent = (.disabled, s)) ∧
    (s.inService t = true →
      (s.cls t).maxEntries ≤ (s.mb t).entries.length + (s.mb t).reserved →
      s.forward o t k urgent = (.full, s)) ∧
    (s.inService t = true →
      (s.mb t).entries.length + (s.mb t).reserved < (s.cls t).maxEntries →
      ((s.cls t).quota - (s.mb t).charged - (s.mb t).pending < x.chain.length →
        s.forward o t k urgent = (.full, s)) ∧
      (x.chain.length ≤ (s.cls t).quota - (s.mb t).charged - (s.mb t).pending →
        s.forward o t k urgent = (.done,
          ({ s with
            store := { s.store with
              objects := tblSet o { x with refs := x.refs + 1 } s.store.objects }
            writer := { s.writer with
              dirtyObjects := joinSet s.writer.dirtyObjects ((o - 1) / 16) } } : State).commit t
            (Entry.ofObject .voice urgent (some (s.mbCfg k).extension) none o s.cfg.node) false 0)))) ∧
  (∀ (s : State) (n : Nat) (o : Obj), s.obj? n = some o → o.complete = true → o.use = .message →
    o.refs = 1 →
    (s.store.sharedUse + o.chain.length ≤ s.cfg.budget →
      s.convert n = some { s with
        store := { s.store with
          objects := tblSet n { o with use := .shared, owner := none } s.store.objects
          sharedUse := s.store.sharedUse + o.chain.length }
        writer := { s.writer with
          dirtyObjects := joinSet s.writer.dirtyObjects ((n - 1) / 16) } }) ∧
    (s.cfg.budget < s.store.sharedUse + o.chain.length → s.convert n = none)) ∧
  (∀ (s : State) (o l k : Nat) (urgent : Bool) (x : Obj) (ks : List Nat), s.obj? o = some x →
    x.complete = true → rising s.store.objects = true →
    s.mailboxes.length = s.cfg.mailboxes.length → ks = s.membersWithRoom l →
    (65535 ≤ x.refs → s.broadcast o l k urgent = (0, s)) ∧
    (x.refs + ks.length ≤ 65535 → ks.Pairwise (· < ·) ∧
    (∀ m, m ∈ ks ↔ m < s.cfg.mailboxes.length ∧ s.inService m = true ∧
      (s.mbCfg m).lists.getLsbD l = true ∧
      (s.mb m).entries.length + (s.mb m).reserved < (s.cls m).maxEntries) ∧
    ∃ t, s.broadcast o l k urgent = (ks.length, t) ∧
      t.obj? o = some { x with refs := x.refs + ks.length } ∧
      (∀ n, n ≠ o → t.obj? n = s.obj? n) ∧ t.chans = s.chans ∧ t.deliv = s.deliv ∧
      (∀ m, m ∉ ks → t.mb m = s.mb m) ∧
      ∀ m ∈ ks, ∃ e, (t.mb m).entries = (s.mb m).entries ++ [e] ∧ e.kind = .shared ∧
        e.state = .new ∧ e.urgent = urgent ∧ e.origin = some (s.mbCfg k).extension ∧
        e.identity = none ∧ e.object = some o ∧ e.originNode = s.cfg.node)) ∧
  (∀ s : State,
    (s.deliv.enqCounter < 4294967295 → s.renumber = s) ∧
    (4294967295 ≤ s.deliv.enqCounter → ∃ (q : List (Option QEntry)) (d : List PageId),
      s.renumber = { s with
        deliv := { s.deliv with
          queue := q, enqCounter := (s.deliv.queue.filter fun x => x.isSome).length }
        writer := { s.writer with dirtyOthers := d } } ∧
      q.length = s.deliv.queue.length ∧
      (∀ p, p < q.length → (q[p]? = some none ↔ s.deliv.queue[p]? = some none) ∧
        ∀ e, s.deliv.queue[p]? = some (some e) → .queue (p / 16) ∈ d ∧
          q[p]? = some (some { e with seq := ((s.deliv.queue.filterMap id).filter fun x =>
            decide (x.seq ≤ e.seq)).length })) ∧
      (∀ x ∈ s.writer.dirtyOthers, x ∈ d) ∧
      ∀ x ∈ d, x ∈ s.writer.dirtyOthers ∨
        ∃ p e, s.deliv.queue[p]? = some (some e) ∧ x = .queue (p / 16)) ∧
    ∀ (e : QEntry) (u : State) (p : Nat), u = s.renumber → s.deliv.queue[p]? = some none →
      (∀ i, i < p → s.deliv.queue[i]? ≠ some none) →
      s.enqueue e = { u with
        deliv := { u.deliv with
          queue := u.deliv.queue.set p (some { e with seq := u.deliv.enqCounter + 1 })
          enqCounter := u.deliv.enqCounter + 1 }
        writer := { u.writer with dirtyOthers := joinSet u.writer.dirtyOthers (.queue (p / 16)) } }) ∧
  (∀ (s : State) (o k target : Nat) (number : Option Nat) (urgent : Bool) (x : Obj),
    s.obj? o = some x → x.complete = true →
    ((∀ q ∈ s.deliv.queue, q ≠ none) →
      s.offerDirect target o k number urgent = (false, s.latch .queueFull)) ∧
    ((∃ q ∈ s.deliv.queue, q = none) → 65535 ≤ x.refs →
      s.offerDirect target o k number urgent = (false, s)) ∧
    ((∃ q ∈ s.deliv.queue, q = none) → x.refs < 65535 →
      s.offerDirect target o k number urgent = (true, (({ s with
        store := { s.store with objects := tblSet o { x with refs := x.refs + 1 } s.store.objects }
        writer := { s.writer with
          dirtyObjects := joinSet s.writer.dirtyObjects ((o - 1) / 16) } } : State).enqueue
        { list := false, target := target, node := none, object := o, mailbox := some k
          number := number, urgent := urgent, location := none, relocated := false, hold := 0
          retry := 0, notBefore := none, seq := 0, group := none, carried := false }).dispatch))) ∧
  (∀ (s : State) (o l k : Nat) (urgent : Bool) (nodes : List Nat) (x : Obj), s.obj? o = some x →
    x.complete = true → rising s.store.objects = true →
    ((s.deliv.queue.filter fun q => q == none).length < nodes.length ∨
        (∀ g ∈ s.deliv.groups, g ≠ none) →
      s.offerLists l o k urgent nodes = (false, s.latch .queueFull)) ∧
    (∀ g, nodes.length ≤ (s.deliv.queue.filter fun q => q == none).length →
      s.deliv.groups[g]? = some none → (∀ h, h < g → s.deliv.groups[h]? ≠ some none) →
      (65535 < x.refs + nodes.length → s.offerLists l o k urgent nodes = (false, s)) ∧
      (x.refs + nodes.length ≤ 65535 → ∃ u : State, s.addRefs o nodes.length = some u ∧
        u.obj? o = some { x with refs := x.refs + nodes.length } ∧
        (∀ n, n ≠ o → u.obj? n = s.obj? n) ∧ u.store.free = s.store.free ∧ u.deliv = s.deliv ∧
        u.mailboxes = s.mailboxes ∧ u.chans = s.chans ∧
        s.offerLists l o k urgent nodes = (true, (nodes.foldl (fun t n => t.enqueue
          { list := true, target := l, node := some n, object := o, mailbox := some k, number := none
            urgent := urgent, location := none, relocated := false, hold := 0, retry := 0
            notBefore := none, seq := 0, group := some g, carried := false })
          ({ u with deliv := { u.deliv with
            groups := u.deliv.groups.set g (some ⟨some k, l, nodes.length, 0⟩) } } : State)).dispatch)))) ∧
  ∀ (s : State) (i n l k : Nat) (urgent : Bool) (refused : State → State),
    (s.ch i).mailbox = some k →
    refused = (fun t => (t.dropRef n).onCh i fun c => { c with
      recording := none, grant := 0, state := .prompting .returnState
      sound := [.prompt .broadcastCannotBeSent], digitTimer := none, interDigitTimer := none }) →
    (s.convert n = none → s.sendList i n l urgent = refused s) ∧
    ∀ (u : State) (ns : List Nat), s.convert n = some u → ns.Pairwise (· < ·) →
      (∀ x, x ∈ ns ↔ x ≤ 30 ∧ u.isPresent x = true ∧ x ≠ u.cfg.node) →
      (∀ v, ns ≠ [] → u.offerLists l n k urgent ns = (false, v) →
        s.sendList i n l urgent = refused v) ∧
      ∀ (v t : State) (c : Nat),
        (ns = [] ∧ v = u) ∨ (ns ≠ [] ∧ u.offerLists l n k urgent ns = (true, v)) →
        v.broadcast n l k urgent = (c, t) →
        s.sendList i n l urgent = (t.dropRef n).onCh i fun h => { h with
          recording := none, grant := 0, state := .prompting .returnState
          sound := if c = 0 ∧ ns = [] then [.prompt .listHasNoMembers]
            else [.prompt .sentTo, .number c, .prompt .mailboxesHere] ++
              (if ns = [] then []
                else [.prompt .andTo, .number ns.length, .prompt .otherBuildings])
          digitTimer := none, interDigitTimer := none }

/-- The greeting a call hears (R53): ABSENCE while it holds, then BUSY for a busy call, then STANDARD, then
the system greeting with the NAME object if there is one (R54). What an accept, an emptying and an end day do
to the slots (R52, R59, R60, R62): an accept puts the new object in its slot, the object the slot held before
losing a reference, and for ABSENCE the pending end day takes effect; an emptying leaves the slot empty, its
object losing a reference, and for ABSENCE no end day; a written end day changes no slot. Each marks the
mailbox's page, an end day only if it changed, and none touches a list or another mailbox. That an ABSENCE
greeting past its end day is no longer chosen, although R53's prose has it chosen until the daily pass, is the
model's choice (log 57). -/
def Obligations.GreetingChoice : Prop :=
  (∀ (s : State) (k : Nat) (r : CallReason),
    (∀ o, (s.mb k).absence = some o →
      ((s.mb k).endDay = none ∨ s.today = none ∨
        ∃ d t, (s.mb k).endDay = some d ∧ s.today = some t ∧ t ≤ d) →
      s.chooseGreeting k r = .recorded o true) ∧
    (((s.mb k).absence = none ∨
        ∃ d t, (s.mb k).endDay = some d ∧ s.today = some t ∧ d < t) →
      (∀ o, r = .busy → (s.mb k).busy = some o → s.chooseGreeting k r = .recorded o false) ∧
      ((r ≠ .busy ∨ (s.mb k).busy = none) →
        (∀ o, (s.mb k).standard = some o → s.chooseGreeting k r = .recorded o false) ∧
        ((s.mb k).standard = none → s.chooseGreeting k r = .system (s.mb k).name)))) ∧
  ∀ (s t : State) (k : Nat) (g : GreetSlot) (n : Nat) (d : Option Nat), k < s.mailboxes.length →
    (t = s.acceptSlot k g n d →
      t.store = (s.dropRefOpt ((s.mb k).slotObj g)).store ∧ (n - 1) / 16 ∈ t.writer.dirtyObjects ∧
      t.mb k = { (s.mb k) with
        standard := if g = .standard then some n else (s.mb k).standard
        busy := if g = .busy then some n else (s.mb k).busy
        absence := if g = .absence then some n else (s.mb k).absence
        name := if g = .name then some n else (s.mb k).name
        endDay := if g = .absence ∧ d.isSome = true then d else (s.mb k).endDay }) ∧
    (t = s.emptySlot k g →
      t.store = (s.dropRefOpt ((s.mb k).slotObj g)).store ∧
      t.mb k = { (s.mb k) with
        standard := if g = .standard then none else (s.mb k).standard
        busy := if g = .busy then none else (s.mb k).busy
        absence := if g = .absence then none else (s.mb k).absence
        name := if g = .name then none else (s.mb k).name
        endDay := if g = .absence then none else (s.mb k).endDay }) ∧
    (t = s.acceptSlot k g n d ∨ t = s.emptySlot k g ∨ (t = s.setEndDay k d ∧ (s.mb k).endDay ≠ d) →
      .mailbox k ∈ t.writer.dirtyOthers ∧ t.chans = s.chans ∧ t.deliv = s.deliv ∧
        ∀ i, i ≠ k → t.mb i = s.mb i) ∧
    (t = s.setEndDay k d →
      t.mb k = { (s.mb k) with endDay := d } ∧ t.store = s.store ∧ ((s.mb k).endDay = d → t = s))

/-- A NEW count told (R103, R104): while the lock is held, or when the desired state stays the same, nothing
happens; otherwise the desired state is set and, with an idle lamp queue and no command outstanding for the
extension, one LAMP record leaves (R106, R107). -/
def Obligations.LampFollowsTheNewCount : Prop :=
  ∀ (s : State) (k : Nat) (want : Bool),
    want = ((s.mbCfg k).usable && (s.cls k).lampEnabled && decide (1 ≤ (s.mb k).newCount)) →
    ((s.mb k).lock.isSome = true → s.tellLamp k = s) ∧
    ((s.lampRec k).desired = want → s.tellLamp k = s) ∧
    ((s.mb k).lock = none → (s.lampRec k).desired ≠ want → s.mode = .serving → s.lamp.queue = [] →
      s.lamp.outstanding.length < 4 →
      (∀ p ∈ s.lamp.outstanding, p.1.ext ≠ (s.mbCfg k).extension) →
      s.tellLamp k = { s with
        lamp := { s.lamp with
          recs := s.lamp.recs.modify k fun r => { r with desired := want, flag := false }
          outstanding := s.lamp.outstanding ++ [(⟨(s.mbCfg k).extension, k, want, 1⟩, some 2000)] }
        lineOut := s.lineOut ++ [.lamp (s.mbCfg k).extension want] })

/-! ### Starts -/

/-- The reset pin, in any mode (R172): the node is as State.reset, but that the index area, the pool's audio,
what the node has sent (log 4) and the queue of commands stay. That State.reset holds settings of node 0 with
empty lists (log 9), an empty store, Directory and lamp table and a pass position, day and time of 0 (log 10),
and that the pin gives up the held settings (log 34), is the model's choice. A page or header being written is
cut off and fails its check from now on; the rest of the index area stands, and all of it when nothing is
being written, in whichever step of a start the reset comes (R172, R179). -/
def Obligations.ResetPinStartsAfresh : Prop :=
  ∀ s : State,
    exec .resetPin s = .next { State.reset with
      index := s.cutIndex, audio := s.audio, lineOut := s.lineOut, linkOut := s.linkOut
      pending := s.pending } ∧
    (∀ p, s.startStep = .wipe p →
      s.cutIndex.header = s.index.header ∧
        s.cutIndex.page? (wipePage s.cfg.mailboxes.length p) = none ∧
        ∀ q, q ≠ wipePage s.cfg.mailboxes.length p → s.cutIndex.page? q = s.index.page? q) ∧
    (∀ w g, s.startStep = .headerWrite w g →
      s.cutIndex.header = none ∧ s.cutIndex.pages = s.index.pages) ∧
    (s.startStep = .none ∨ s.startStep = .configRead ∨ s.startStep = .headerRead ∨
        s.startStep = .rebuild →
      (∀ p c, s.writer.writing = some (p, c) →
        s.cutIndex.header = s.index.header ∧ s.cutIndex.page? p = none ∧
          ∀ q, q ≠ p → s.cutIndex.page? q = s.index.page? q) ∧
      (s.writer.writing = none → s.cutIndex = s.index))

/-- The image has been read (R176, R177): an unusable one halts the node with one CONFIG_BAD alarm, the
blocks not set up; a usable one is held as clamped and handed out, CONFIG_CLAMPED latched for its clamped
mark, and the header is read next. What the node holds in HALTED, the link, delivery, housekeeping
and lamp blocks at their reset values and no alarm latched, is the model's reading of "not set up" (log 21,
R136, R187), and that the presence entry of the node's own number is cleared is its choice (log 15), and so is that a range whose last
extension lies above 99,999 makes an image unusable (log 59). That the clock stays as it is through the hand-out, where it may have been set by a TIME taken in STARTING, is log
35, and that the discarded count stays, at the hand-out and in HALTED, is the model's reading of R185
(log 23). -/
def Obligations.ImageReadHaltsOrHandsOut : Prop :=
  ∀ (stream : List Byte) (s : State), s.mode = .starting → s.startStep = .configRead →
    (loadImage stream = none →
      exec (.configReadDone stream) s = .next ({ s with
        mode := .halted, startStep := .none, alarms := []
        link := { LinkCtl.fresh with joinTimer := none }, deliv := Delivery.fresh
        house := Housekeeping.fresh, lamp := LampUnit.blank
        lineOut := s.lineOut ++ [.alarmConfigBad] } : State).settle) ∧
    (∀ c, loadImage stream = some c →
      ∃ t, exec (.configReadDone stream) s = .next t ∧ t.cfg = c ∧ t.configured = true ∧
        t.startStep = .headerRead ∧ t.mode = .starting ∧
        t.alarms = (if c.clampedMark = true then (s.latch .configClamped).alarms else s.alarms) ∧
        t.lineOut = (if c.clampedMark = true then (s.latch .configClamped).lineOut else s.lineOut) ∧
        t.presence c.node = ⟨false, none, none⟩ ∧ (∀ n, n ≠ c.node → t.presence n = s.presence n) ∧
        t.store = s.store ∧ t.mailboxes = s.mailboxes ∧ t.chans = s.chans ∧ t.house = s.house ∧
        t.lamp = s.lamp ∧ t.index = s.index ∧ t.audio = s.audio ∧ t.discarded = s.discarded)

/-- The header page has been read (R179): a header whose digest is the configuration's makes the start warm,
and its next generation is written; otherwise the start is cold, COLD_START is latched and the first page of
the wipe is being written. The wipe writes each mailbox page, each object page and each queue page empty, in
that order, and then the header with generation 1 (R179). The header write settles the generation (R179); a
warm start goes on to the rebuild, and a cold start completes: the mode is SERVING, READY leaves and the
scan begins (R173). -/
def Obligations.StartGoesThroughItsSteps : Prop :=
  (∀ s : State, s.mode = .starting → s.startStep = .headerRead →
    (∀ h, s.index.header = some h → h.digest = s.cfg.digest →
      exec .headerReadDone s = .next ({ s with
        startStep := .headerWrite true (if 65535 ≤ h.generation then 1 else h.generation + 1)
        } : State).settle) ∧
    ((∀ h, s.index.header = some h → h.digest ≠ s.cfg.digest) →
      ∃ t, exec .headerReadDone s = .next t ∧ t.startStep = .wipe 0 ∧ t.mode = .starting ∧
        .coldStart ∈ t.alarms ∧ t.store.ready = true ∧ t.lamp.queue = [] ∧ t.lamp.outstanding = [] ∧
        (∀ r ∈ t.lamp.recs, r = ⟨false, .unknown, false⟩) ∧ t.index = s.index ∧ t.cfg = s.cfg ∧
        t.generation = s.generation ∧ t.deliv = s.deliv ∧ t.house = s.house ∧ t.chans = s.chans)) ∧
  (∀ (s : State) (p m : Nat), s.startStep = .wipe p → m = s.cfg.mailboxes.length → p < m + 516 →
    ∃ a : IndexArea,
      exec .wipePageWriteDone s = .next ({ s with
        index := a
        startStep := if p + 1 < m + 516 then .wipe (p + 1) else .headerWrite false 1
        } : State).settle ∧
      a.header = s.index.header ∧
      (p < m → a.page? (.mailbox p) = some (.mailbox ⟨[], 1, none, none, none, none, none⟩) ∧
        ∀ q, q ≠ .mailbox p → a.page? q = s.index.page? q) ∧
      (m ≤ p → p < m + 512 → a.page? (.object (p - m)) = some (.objects []) ∧
        ∀ q, q ≠ .object (p - m) → a.page? q = s.index.page? q) ∧
      (m + 512 ≤ p → a.page? (.queue (p - m - 512)) = some (.queue []) ∧
        ∀ q, q ≠ .queue (p - m - 512) → a.page? q = s.index.page? q)) ∧
  (∀ (s : State) (g : Nat),
    (s.startStep = .headerWrite true g →
      exec .headerWriteDone s = .next ({ s with
        index := { s.index with header := some ⟨g, s.cfg.digest⟩ }, generation := some g
        startStep := .rebuild } : State).settle) ∧
    (s.startStep = .headerWrite false g → s.lamp.queue = [] → (∀ q ∈ s.deliv.queue, q = none) →
      s.house.clock = none →
      exec .headerWriteDone s = .next ({ s with
        index := { s.index with header := some ⟨g, s.cfg.digest⟩ }, generation := some g
        startStep := .none, mode := .serving, lineOut := s.lineOut ++ [.ready]
        lamp := { s.lamp with
          scanPos := s.cfg.scanStart, scanRunning := true, scanTimer := some 200 } } : State).settle))

/-- At a cold start the store is set up empty, and STORE_LOW is not latched by it (R23). -/
def Obligations.ColdStartEmptiesTheStore : Prop :=
  ∀ s : State, s.startStep = .headerRead → s.mode = .starting → s.cfg.lowPercent ≤ 50 →
    (∀ h, s.index.header = some h → h.digest ≠ s.cfg.digest) →
    ∃ t, exec .headerReadDone s = .next t ∧ t.store.free = List.range s.cfg.pool ∧
      t.store.free.length = s.cfg.pool ∧ t.store.objects = [] ∧ t.store.earmark = 0 ∧
      t.store.sharedUse = 0 ∧ (.storeLow ∈ t.alarms ↔ .storeLow ∈ s.alarms) ∧
      t.lineOut = (s.latch .coldStart).lineOut

/-- At a cold start every mailbox is set up empty, and every desired lamp state is OFF (R50). -/
def Obligations.ColdStartEmptiesTheDirectory : Prop :=
  ∀ s : State, s.startStep = .headerRead → s.mode = .starting →
    (∀ h, s.index.header = some h → h.digest ≠ s.cfg.digest) →
    ∃ t, exec .headerReadDone s = .next t ∧ t.mailboxes.length = s.cfg.mailboxes.length ∧
      t.cfg.classes = s.cfg.classes ∧ t.cfg.mailboxes = s.cfg.mailboxes ∧
      (∀ m ∈ t.mailboxes, m.entries = [] ∧ m.charged = 0 ∧ m.pending = 0 ∧ m.reserved = 0 ∧
        m.newCount = 0 ∧ m.nextNumber = 1 ∧ m.standard = none ∧ m.busy = none ∧ m.absence = none ∧
        m.name = none ∧ m.endDay = none ∧ m.lock = none ∧ m.erasePending = []) ∧
      ∀ r ∈ t.lamp.recs, r.desired = false

/-- The rebuild completes the start (R24, R51, R117, R159, R173, R180): the blocks hold what steps 1 to 5 give.
Every block in no chain is free in ascending order, E is 0 and U_b the blocks of the SHARED objects; damage
latches INDEX_DAMAGED and low store room STORE_LOW; a mailbox is charged with the chains of its VOICE entries
and holds no reservation, grant, lock or erase mark; every lamp record has the desired state of the restored
NEW count, is reported UNKNOWN and is not flagged; the queue and its groups are as restored, a group with the
mailbox and list of its entries, the entries waiting with their counts at 0, and the counter is the highest
sequence. The pages marked are those whose content differs from the content read. Then the mode is SERVING,
READY leaves, the scan begins, and a lamp dispatch, a dispatch of the queue and the check of the daily pass
follow. For pages that restore no queue entry and a clock not yet set, nothing is dispatched and no pass
begins. The model's choices: the counter is taken over the entries left after the budget trim of step 4, so 0
where the trim drops the last of them (log 49); of entries that disagree the lowest position gives the group
its mailbox and list (log 47); the pages are marked in this order (log 48), a page being the content it decodes
to (log 26). -/
def Obligations.RebuildEntersServing : Prop :=
  (∀ (s : State) (r : Rebuilt), s.startStep = .rebuild → r = rebuildIndex s.index s.cfg s.cls →
    ∃ u : State,
      exec .rebuildDone s = .next ((({ u with
        mode := .serving, startStep := .none, lineOut := u.lineOut ++ [.ready]
        lamp := { u.lamp with
          scanPos := s.cfg.scanStart, scanRunning := true, scanTimer := some 200 }
        } : State).lampDispatch.dispatch).checkPass).settle ∧
      u.store.objects = r.objects ∧ u.store.earmark = 0 ∧ u.store.ready = true ∧
      u.store.free = (List.range s.cfg.pool).filter (fun b => decide (b ∉ tableBlocks r.objects)) ∧
      u.store.sharedUse =
        ((r.objects.filter fun x => x.2.use == .shared).map fun x => x.2.chain.length).sum ∧
      u.mailboxes = r.mailboxes ∧
      (∀ m ∈ r.mailboxes, m.pending = 0 ∧ m.reserved = 0 ∧ m.lock = none ∧ m.erasePending = [] ∧
        m.charged = ((m.entries.filter fun e => e.kind == .voice).map fun e =>
          match e.object.bind fun n => tblGet n r.objects with
          | none => 0
          | some o => o.chain.length).sum) ∧
      u.deliv = { s.deliv with
        queue := r.queue, groups := u.deliv.groups, enqCounter := u.deliv.enqCounter } ∧
      (∀ e, some e ∈ r.queue → e.seq ≤ u.deliv.enqCounter) ∧
      (u.deliv.enqCounter = 0 ∨ ∃ e, some e ∈ r.queue ∧ e.seq = u.deliv.enqCounter) ∧
      (∀ e, some e ∈ r.queue → e.carried = false ∧ e.location = none ∧ e.relocated = false ∧
        e.hold = 0 ∧ e.retry = 0 ∧ e.notBefore = none) ∧
      (∀ g, g < 8 → (u.deliv.groups[g]? = some none ↔ ∀ e, some e ∈ r.queue → e.group ≠ some g)) ∧
      (∀ g x, u.deliv.groups[g]? = some (some x) → x.unreached = 0 ∧
        x.remaining = (r.queue.filter fun q => q.bind (·.group) == some g).length) ∧
      (∀ g a e b, g < 8 → r.queue = a ++ some e :: b → e.group = some g →
        (∀ f, some f ∈ a → f.group ≠ some g) →
        ∃ x, u.deliv.groups[g]? = some (some x) ∧ x.mailbox = e.mailbox ∧ x.list = e.target) ∧
      u.lamp.recs.length = s.cfg.mailboxes.length ∧
      (∀ (k : Nat) (m : Mailbox), r.mailboxes[k]? = some m → u.lamp.recs[k]? = some
        ⟨(s.mbCfg k).usable && (s.cls k).lampEnabled && decide (1 ≤ m.newCount), .unknown, false⟩) ∧
      u.lamp.queue = [] ∧ u.lamp.outstanding = [] ∧
      u.writer = {
        dirtyObjects := (List.range 512).filter fun j =>
          s.index.checked (.object j) != some (u.pageImage (.object j))
        dirtyOthers := ((List.range s.cfg.mailboxes.length).map PageId.mailbox ++
          (List.range 4).map PageId.queue).filter fun p => s.index.checked p != some (u.pageImage p)
        writing := s.writer.writing } ∧
      (r.damaged = true → .indexDamaged ∈ u.alarms) ∧
      (.storeLow ∈ u.alarms ↔ .storeLow ∈ s.alarms ∨ u.storeLow = true) ∧
      u.index = s.index ∧ u.cfg = s.cfg ∧ u.audio = s.audio ∧ u.generation = s.generation ∧
      u.discarded = s.discarded ∧ u.chans = s.chans ∧ u.house = s.house ∧ u.link = s.link) ∧
  ∀ (s : State) (r : Rebuilt), s.startStep = .rebuild → r = rebuildIndex s.index s.cfg s.cls →
    (∀ q ∈ r.queue, q = none) → s.house.clock = none →
    ∃ t, exec .rebuildDone s = .next t ∧ t.mode = .serving ∧ t.startStep = .none ∧
      t.store.objects = r.objects ∧ t.store.earmark = 0 ∧ t.store.ready = true ∧
      t.store.free = (List.range s.cfg.pool).filter (fun b => decide (b ∉ tableBlocks r.objects)) ∧
      t.mailboxes = r.mailboxes ∧ t.deliv.queue = r.queue ∧ t.deliv.enqCounter = 0 ∧
      t.lamp.queue = [] ∧ t.lamp.outstanding = [] ∧ (r.damaged = true → .indexDamaged ∈ t.alarms) ∧
      .ready ∈ t.lineOut ∧ t.index = s.index ∧ t.cfg = s.cfg ∧ t.chans = s.chans

/-- What the rebuild restores (R24): every object is COMPLETE with no earmark, holds the blocks its segments
need out of the pool and no block twice, and has one reference for each entry, slot and queue entry restored
that refers to it, at least one. Whatever it restores comes from its page, and names an object that it
restores. What it keeps (R24, R51, R65, R159): of an object that passes R24's tests, that no acceptable object
of a lower number overlaps, and that a SHARED one's budget has room for, each queue entry in range stays in
its position, each greeting and NAME of the right use stays in its slot, and each entry in range and agreeing
with its kind stays in its list, in its order, when the page repeats no number and holds no more than the
class's entries and quota allow; and a NOTICE stays in the same way. The object stays with all of them. Ranges
and agreement are as log 24 reads them, a page is the content it decodes to (log 26), and a slot whose old
object's page is free already comes up empty (log 40). -/
def Obligations.RebuildRestoresWholeObjects : Prop :=
  (∀ (a : IndexArea) (c : Settings) (clsOf : Nat → ClassRec) (r : Rebuilt), r = rebuildIndex a c clsOf →
    (tableBlocks r.objects).Nodup ∧
    ∀ x ∈ r.objects,
      x.2.refs =
        (r.mailboxes.map fun m => (m.entries.filter fun e => e.object == some x.1).length +
          [m.standard, m.busy, m.absence, m.name].count (some x.1)).sum +
        (r.queue.filter fun q => q.map (·.object) == some x.1).length ∧
      1 ≤ x.1 ∧ x.1 ≤ 8192 ∧ x.2.complete = true ∧ x.2.earmark = 0 ∧ 1 ≤ x.2.refs ∧
      16 ≤ x.2.segments ∧ x.2.segments ≤ 9600 ∧ x.2.chain.length = (x.2.segments + 7) / 8 ∧
      ∀ b ∈ x.2.chain, b < c.pool) ∧
  ∀ (a : IndexArea) (c : Settings) (clsOf : Nat → ClassRec) (r : Rebuilt)
    (tbl : List (Nat × ObjImage)) (good : Nat → ObjImage → Prop), r = rebuildIndex a c clsOf →
    tbl = (List.range 512).flatMap a.objectsOn →
    (∀ n o, good n o ↔ (n, o) ∈ tbl ∧ o.acceptable c.pool c.mailboxes.length = true ∧
      (∀ x ∈ tbl, x.1 < n → x.2.acceptable c.pool c.mailboxes.length = true →
        ∀ b ∈ x.2.chain, b ∉ o.chain) ∧
      (o.use = .shared → ((tbl.filter fun x => decide (x.1 ≤ n) && x.2.use == .shared).map fun x =>
        x.2.chain.length).sum ≤ c.budget)) →
    r.mailboxes.length = c.mailboxes.length ∧ r.queue.length = 64 ∧
    (∀ n o, good n o →
      (∃ m ∈ r.mailboxes, n ∈ m.holds) ∨ (∃ e, some e ∈ r.queue ∧ e.object = n) →
      ∃ x, (n, x) ∈ r.objects ∧ x.use = o.use ∧ x.chain = o.chain ∧ x.segments = o.segments ∧
        x.owner = o.owner) ∧
    (∀ m ∈ r.mailboxes, ∀ n ∈ m.holds, ∃ x, (n, x) ∈ r.objects) ∧
    (∀ e, some e ∈ r.queue → ∃ x, (e.object, x) ∈ r.objects) ∧
    (∀ (p : Nat) (q : QEntry), r.queue[p]? = some (some q) → ∃ es e,
      a.checked (.queue (p / 16)) = some (.queue es) ∧ (p, e) ∈ es ∧
      q = e.restored c.mailboxes.length) ∧
    (∀ (p n : Nat) (es : List (Nat × QImage)) (e : QImage) (o : ObjImage), p < 64 →
      a.checked (.queue (p / 16)) = some (.queue es) → (p, e) ∈ es → e.inRange = true →
      e.object = n → good n o → r.queue[p]? = some (some (e.restored c.mailboxes.length))) ∧
    ∀ (k : Nat) (m : Mailbox), r.mailboxes[k]? = some m →
      (a.checked (.mailbox k) = none → m.entries = [] ∧ m.nextNumber = 1 ∧ m.standard = none ∧
        m.busy = none ∧ m.absence = none ∧ m.name = none ∧ r.damaged = true) ∧
      ∀ g : MailboxImage, a.checked (.mailbox k) = some (.mailbox g) →
        m.entries.Sublist g.entries ∧
        (1 ≤ g.nextNumber → g.nextNumber ≤ 9999 → m.nextNumber = g.nextNumber) ∧
        (∀ n o, good n o → o.use = .greeting →
          (g.standard = some n → m.standard = some n) ∧ (g.busy = some n → m.busy = some n) ∧
          (g.absence = some n → m.absence = some n ∧
            ((∀ d, g.endDay = some d → d ≤ 65535) → m.endDay = g.endDay))) ∧
        (∀ n o, good n o → o.use = .name → g.name = some n → m.name = some n) ∧
        (∀ e : Entry, e ∈ g.entries → e.inRange = true →
          (e.kind = .notice ∧ e.object = none) ∨
            (∃ n o, e.object = some n ∧ good n o ∧
              ((e.kind = .voice ∧ (o.use = .message ∨ o.use = .shared)) ∨
                (e.kind = .shared ∧ o.use = .shared))) →
          (g.entries.map (·.number)).Nodup → g.entries.length ≤ (clsOf k).maxEntries →
          (((g.entries.filter fun x => x.kind == .voice).map fun x =>
            match x.object.bind fun n => tblGet n tbl with
            | none => 0
            | some o => o.chain.length).sum ≤ (clsOf k).quota) →
          e ∈ m.entries)

/-- SHUTDOWN in SERVING takes the node to DRAINING and stops the pass and its schedule (R170, R174), and
RESUME in STOPPED starts it with the held settings, the alarms emptied and CONFIG_CLAMPED latched again for
their clamped mark (R172, R175, R177); in every other mode each is discarded. What the blocks not yet set up
hold after RESUME, an empty store and pass fields of 0, is the model's choice (log 10), and that the discarded
count goes to 0 as RESUME begins is its reading of R185 (log 23). -/
def Obligations.ShutdownDrainsResumeStarts : Prop :=
  ∀ s : State,
    (s.mode = .serving →
      exec .shutdown s = .next ({ s with
        mode := .draining
        house := { s.house with sched := .idle, postponeTimer := none } } : State).settle) ∧
    (s.mode ≠ .serving → exec .shutdown s = .next s) ∧
    (s.mode = .stopped →
      ∃ t, exec .resume s = .next t ∧ t.mode = .starting ∧ t.startStep = .headerRead ∧
        t.cfg = s.cfg ∧ t.configured = true ∧ t.index = s.index ∧ t.audio = s.audio ∧
        t.alarms = (if s.cfg.clampedMark = true then [.configClamped] else []) ∧
        t.discarded = 0 ∧ t.generation = none ∧ t.chans = List.replicate 16 Channel.idle ∧
        t.store = Store.blank ∧ t.deliv = Delivery.fresh ∧ t.house = Housekeeping.fresh ∧
        t.link.state = .joining ∧ t.link.joinTimer = some 10000 ∧ t.link.sendList = [] ∧
        t.pending = s.pending) ∧
    (s.mode ≠ .stopped → exec .resume s = .next s)

/-! ### Calls -/

/-- A CALL or RETRIEVE for a busy channel is refused CHANNEL_BUSY and leaves the session as it stands; one
for a channel above 15 is discarded by the port and reaches no channel (R72). -/
def Obligations.BusyChannelRefusesCalls : Prop :=
  ∀ (s : State) (ch ext : Nat) (r : CallReason) (internal : Bool) (ids : List Nat),
    (ch ≤ 15 → 1000 ≤ ext → ext ≤ 99999 → ids.length ≤ 32 → (∀ d ∈ ids, d ≤ 9) →
      (s.ch ch).state ≠ .idle →
      ∃ t, exec (.call ch ext r internal ids) s = .next t ∧ exec (.retrieve ch ext) s = .next t ∧
        t.lineOut = s.lineOut ++ [.refuse ch .channelBusy] ∧ t.chans = s.chans ∧ t.store = s.store ∧
        t.mailboxes = s.mailboxes ∧ t.alarms = s.alarms ∧ t.deliv = s.deliv ∧ t.house = s.house ∧
        t.discarded = s.discarded) ∧
    (15 < ch →
      exec (.call ch ext r internal ids) s = .next s.countDiscard ∧
      exec (.retrieve ch ext) s = .next s.countDiscard ∧ s.countDiscard.chans = s.chans ∧
      s.countDiscard.lineOut = s.lineOut)

/-- A CALL or RETRIEVE on a free channel is refused UNAVAILABLE outside SERVING and NO_MAILBOX for an
extension the node does not home, and for a disabled mailbox it is answered, the session timer started, and
cleared with "mailbox not in service" (R48, R73, R85). -/
def Obligations.CallsTurnedAway : Prop :=
  ∀ (s : State) (ch ext : Nat) (r : CallReason) (internal : Bool) (ids : List Nat) (c : Instr),
    c = .call ch ext r internal ids ∨ c = .retrieve ch ext →
    ch ≤ 15 → 1000 ≤ ext → ext ≤ 99999 → ids.length ≤ 32 → (∀ d ∈ ids, d ≤ 9) →
    (s.ch ch).state = .idle →
    (s.mode ≠ .serving →
      exec c s = .next ({ s with lineOut := s.lineOut ++ [.refuse ch .unavailable] } : State).settle) ∧
    (s.mode = .serving → s.find ext = .inRange ∨ s.find ext = .foreign →
      exec c s = .next ({ s with lineOut := s.lineOut ++ [.refuse ch .noMailbox] } : State).settle) ∧
    (∀ k, s.mode = .serving → s.find ext = .disabled k →
      exec c s = .next (({ s with lineOut := s.lineOut ++ [.answer ch] } : State).onCh ch fun x => { x with
        state := .ending, sound := [.prompt .notInService], sessionTimer := some 1200000
        digitTimer := none, interDigitTimer := none }).settle)

/-- A CALL for a homed extension on an IDLE channel (R53, R54, R55, R73, R74): ANSWER leaves, the session
timer starts, the channel takes the mailbox, the reason, the first 16 identity digits and the internal flag,
and plays the greeting chosen, holding a reference to its object: a recorded one, or the system greeting with
the mailbox's NAME or, without one, its extension in the middle of its three parts. -/
def Obligations.CallOpensADeposit : Prop :=
  ∀ (s : State) (ch ext k : Nat) (r : CallReason) (internal : Bool) (ids : List Nat),
    ch ≤ 15 → 1000 ≤ ext → ext ≤ 99999 → ids.length ≤ 32 → (∀ d ∈ ids, d ≤ 9) →
    s.ch ch = Channel.idle → s.mode = .serving → s.find ext = .homed k →
    (s.chooseGreeting k r = .system none →
      exec (.call ch ext r internal ids) s =
        .next (({ s with lineOut := s.lineOut ++ [.answer ch] } : State).onCh ch fun _ =>
          { Channel.idle with
            state := .greeting, mailbox := some k, reason := some r
            identity := if ids = [] then none else some (ids.take 16), internal := internal
            sessionTimer := some 1200000
            sound := [.prompt .youHaveReached, .digits (decimalDigits (s.mbCfg k).extension),
              .prompt .recordAfterTone] }).settle) ∧
    (∀ o x, s.chooseGreeting k r = .system (some o) → s.obj? o = some x → x.complete = true →
      x.refs < 65535 →
      exec (.call ch ext r internal ids) s =
        .next (({ s with
          lineOut := s.lineOut ++ [.answer ch]
          store := { s.store with objects := tblSet o { x with refs := x.refs + 1 } s.store.objects }
          writer := { s.writer with
            dirtyObjects := joinSet s.writer.dirtyObjects ((o - 1) / 16) } } : State).onCh ch fun _ =>
          { Channel.idle with
            state := .greeting, mailbox := some k, reason := some r
            identity := if ids = [] then none else some (ids.take 16), internal := internal
            sessionTimer := some 1200000
            sound := [.prompt .youHaveReached, .object o, .prompt .recordAfterTone]
            playing := some o }).settle) ∧
    (∀ o a x, s.chooseGreeting k r = .recorded o a → s.obj? o = some x → x.complete = true →
      x.refs < 65535 →
      exec (.call ch ext r internal ids) s =
        .next (({ s with
          lineOut := s.lineOut ++ [.answer ch]
          store := { s.store with objects := tblSet o { x with refs := x.refs + 1 } s.store.objects }
          writer := { s.writer with
            dirtyObjects := joinSet s.writer.dirtyObjects ((o - 1) / 16) } } : State).onCh ch fun _ =>
          { Channel.idle with
            state := .greeting, mailbox := some k, reason := some r
            identity := if ids = [] then none else some (ids.take 16), internal := internal
            sessionTimer := some 1200000, sound := [.object o], playing := some o
            absenceChosen := a }).settle)

/-- A RETRIEVE for a homed extension on an IDLE channel (R41, R85, R86): ANSWER leaves; a free lock is
granted and SUMMARY is entered with the counts of the list, and a lock that is held clears the channel with
"mailbox in use", the session that holds it not disturbed. -/
def Obligations.RetrieveTakesTheLock : Prop :=
  ∀ (s : State) (ch ext k : Nat), ch ≤ 15 → 1000 ≤ ext → ext ≤ 99999 →
    s.ch ch = Channel.idle → s.mode = .serving → s.find ext = .homed k →
    ((s.mb k).lock = none → (∀ m ∈ s.mailboxes, m.lock ≠ some ch) →
      exec (.retrieve ch ext) s =
        .next (({ s with
          lineOut := s.lineOut ++ [.answer ch]
          mailboxes := s.mailboxes.modify k fun m => { m with lock := some ch, erasePending := [] }
          } : State).onCh ch fun _ => { Channel.idle with
            state := .summary, mailbox := some k, sessionTimer := some 1200000
            sound := (s.mb k).summary }).settle) ∧
    ((s.mb k).lock.isSome = true →
      exec (.retrieve ch ext) s =
        .next (({ s with lineOut := s.lineOut ++ [.answer ch] } : State).onCh ch fun _ =>
          { Channel.idle with
            state := .ending, sessionTimer := some 1200000
            sound := [.prompt .mailboxInUse] }).settle)

/-- A DIGIT joins the type-ahead of a channel whose state takes no digits, unless 8 wait, when it is the
newest that is discarded; on a channel in IDLE or CLEARING it is discarded (R67). Digits taken as they arrive
(R68, R74, R75, R78): key 0 in GREETING drops the reference of a greeting object (R55) and transfers to the
operator of the class, a digit with no meaning in GREETING lets it go on, another digit than # or * has no
meaning in RECORDING. On the channel that holds the mailbox's lock (R41, R52), key 9 in MESSAGE saves the
current entry (R91), key 7 marks it for erasure and leads on to the next (R44, R92), key 1 in REVIEW hands the
recording to the slot (R58, R59), key 7 in SLOT empties it (R60), and in END_DAY # and a valid fourth digit
write the end day of an occupied ABSENCE slot and hold it as pending for an empty one (R61, R62; one past day
65,535: log 58). Key 1 in
MAIN or SUMMARY plays the next entry under a reference (R87, R89), and the next entry is the first, by NEW and
urgent, then NEW, then the rest and within each in list order, of those neither marked for erasure nor yet
presented (R87). That a channel whose prompt only leads to the next state is in a state of its own, which
takes no digit, is the model's reading (log 11). -/
def Obligations.DigitsWaitOrAreTaken : Prop :=
  (∀ (s : State) (ch : Nat) (key : Key), ch ≤ 15 → wfKey key = true →
    ((s.ch ch).state ≠ .idle → (s.ch ch).state ≠ .clearing →
      (s.ch ch).state.takesDigits = false →
      exec (.digit ch key) s = .next (s.onCh ch fun c => { c with
        typeAhead := if c.typeAhead.length < 8 then c.typeAhead ++ [key] else c.typeAhead }).settle) ∧
    ((s.ch ch).state = .idle ∨ (s.ch ch).state = .clearing → exec (.digit ch key) s = .next s)) ∧
  (∀ (s : State) (ch k : Nat), ch ≤ 15 → (s.ch ch).typeAhead = [] → (s.ch ch).mailbox = some k →
    (∀ e u, (s.ch ch).state = .greeting → (s.cls k).operator = some e →
      ((s.ch ch).playing = none ∧ u = s) ∨ (∃ o, (s.ch ch).playing = some o ∧ u = s.dropRef o) →
      exec (.digit ch (.num 0)) s =
        .next (({ u with lineOut := u.lineOut ++ [.transfer ch e] } : State).onCh ch fun c => { c with
          state := .transferring, silentRepeats := 0, digitTimer := none, sound := []
          playing := none }).settle) ∧
    (∀ d, 1 ≤ d → d ≤ 9 → (s.ch ch).state = .greeting → (s.ch ch).digitTimer = none →
      exec (.digit ch (.num d)) s = .next s.settle) ∧
    (∀ d, d ≤ 9 → (s.ch ch).state = .recording → exec (.digit ch (.num d)) s = .next s.settle) ∧
    (∀ num e, (s.ch ch).state = .message → (s.ch ch).current = some num →
      (s.ch ch).currentGone = false → (s.mb k).lock = some ch → (s.mb k).entry? num = some e →
      exec (.digit ch (.num 9)) s = .next ((s.saveEntry k num).onCh ch fun c => { c with
        state := .prompting .message, silentRepeats := 0, sound := [.prompt .messageSaved]
        digitTimer := none, interDigitTimer := none }).settle ∧
      exec (.digit ch (.num 7)) s = .next ((s.onMb k fun m => { m with
        erasePending := if num ∈ m.erasePending then m.erasePending else m.erasePending ++ [num]
        }).onCh ch fun c => { c with
          state := .prompting .presentNext, silentRepeats := 0, sound := [.prompt .messageErased]
          digitTimer := none, interDigitTimer := none }).settle) ∧
    (∀ e o x, (s.ch ch).state = .main ∨ (s.ch ch).state = .summary → s.nextEntry ch = some e →
      e.kind ≠ .notice → e.object = some o → s.obj? o = some x → x.complete = true → x.refs < 65535 →
      exec (.digit ch (.num 1)) s = .next (({ s with
        store := { s.store with objects := tblSet o { x with refs := x.refs + 1 } s.store.objects }
        writer := { s.writer with
          dirtyObjects := joinSet s.writer.dirtyObjects ((o - 1) / 16) } } : State).onCh ch fun c =>
          { c with
            state := .playing, sound := s.envelope e ++ [.object o], playing := some o
            current := some e.number, currentGone := false
            presented := if e.number ∈ c.presented then c.presented else c.presented ++ [e.number]
            silentRepeats := 0, digitTimer := none, interDigitTimer := none }).settle)) ∧
  (∀ (s : State) (ch k : Nat) (g : GreetSlot), ch ≤ 15 → (s.ch ch).typeAhead = [] →
    (s.ch ch).mailbox = some k → (s.ch ch).slot = some g → (s.mb k).lock = some ch →
    (∀ n, (s.ch ch).state = .review → (s.ch ch).recording = some n →
      exec (.digit ch (.num 1)) s =
        .next ((s.acceptSlot k g n (s.ch ch).pendingEnd).onCh ch fun c => { c with
          state := .prompting .slot, sound := [.prompt .greetingSaved], recording := none, grant := 0
          pendingEnd := none, silentRepeats := 0, digitTimer := none
          interDigitTimer := none }).settle) ∧
    ((s.ch ch).state = .slot → (s.ch ch).playing = none → ((s.mb k).slotObj g).isSome = true →
      exec (.digit ch (.num 7)) s = .next ((s.emptySlot k g).onCh ch fun c => { c with
        state := .prompting .slot, sound := [.prompt .greetingDeleted], silentRepeats := 0
        digitTimer := none, interDigitTimer := none }).settle) ∧
    (∀ (key : Key) (d : Option Nat), (s.ch ch).state = .endDay →
      ((key = .hash ∧ (s.ch ch).endDigits = [] ∧ d = none) ∨
        ∃ a b c e today, key = .num e ∧ e ≤ 9 ∧ (s.ch ch).endDigits = [a, b, c] ∧
          validDate (10 * a + b) (10 * c + e) = true ∧ s.today = some today ∧
          a ≤ 9 ∧ b ≤ 9 ∧ c ≤ 9 ∧ d = nextOccurrence today (10 * a + b) (10 * c + e)) →
      ((s.mb k).absence.isSome = true →
        exec (.digit ch key) s = .next ((s.setEndDay k d).onCh ch fun c => { c with
          state := .slot, sound := (s.setEndDay k d).slotSounds k g, endDigits := []
          silentRepeats := 0, digitTimer := none, interDigitTimer := none }).settle) ∧
      ((s.mb k).absence = none →
        exec (.digit ch key) s = .next (s.onCh ch fun c => { c with
          state := .slot, sound := s.slotSounds k g, endDigits := [], pendingEnd := d
          silentRepeats := 0, digitTimer := none, interDigitTimer := none }).settle))) ∧
  ∀ (s : State) (ch k : Nat) (rank : Entry → Nat) (left : Entry → Prop), (s.ch ch).mailbox = some k →
    (∀ e, rank e = if e.state = .new then (if e.urgent = true then 0 else 1) else 2) →
    (∀ e, left e ↔ e.number ∉ (s.mb k).erasePending ∧ e.number ∉ (s.ch ch).presented) →
    (s.nextEntry ch = none ↔ ∀ e ∈ (s.mb k).entries, ¬ left e) ∧
    ∀ e, s.nextEntry ch = some e → ∃ a b, (s.mb k).entries = a ++ e :: b ∧ left e ∧
      (∀ f ∈ a, left f → rank e < rank f) ∧ ∀ f ∈ b, left f → rank e ≤ rank f

/-- A RELEASE for a busy channel returns it to IDLE, every field cleared, and touches no other channel (R66,
R71, R83, R102); in TRANSFERRING, ENDING and CLEARING that is all it does, and for an IDLE channel it is
discarded. In GREETING the greeting's reference is dropped; in TONE the empty object is discarded and the
reservation returned; in the "record after the tone" prompt the reservation is returned; in "time is up" and
OPTIONS the recording is sent with urgent clear (R82, R83). In RECORDING the partly captured segment it comes
with, completed with silence (log 5), is appended unless the earmark is spent, the object is closed with its
silent tail as the trim, and it is sent with urgent clear or, too short, the reservation is returned (R78, R82).
A retrieval session gives up what it plays and records, and the Directory ends it (R101, R102). -/
def Obligations.ReleaseReturnsTheChannel : Prop :=
  ∀ (s : State) (ch : Nat), ch ≤ 15 →
    (∀ g, wfGathered g = true → (s.ch ch).state ≠ .idle →
      ∃ t, exec (.release ch g) s = .next t ∧ t.ch ch = Channel.idle ∧
        ∀ j, j ≠ ch → t.ch j = s.ch j) ∧
    (∀ g, wfGathered g = true → (s.ch ch).playing = none → (s.ch ch).recording = none →
      (s.ch ch).state = .transferring ∨ (s.ch ch).state = .ending ∨ (s.ch ch).state = .clearing →
      exec (.release ch g) s = .next (s.onCh ch fun _ => Channel.idle).settle) ∧
    (∀ g n k, wfGathered g = true → (s.ch ch).state = .options ∨ (s.ch ch).state = .timeUp →
      (s.ch ch).recording = some n → (s.ch ch).playing = none → (s.ch ch).mailbox = some k →
      exec (.release ch g) s =
        .next ((s.commit k (Entry.ofObject .voice false (s.ch ch).origin (s.ch ch).identity n s.cfg.node)
          true (s.ch ch).grant).onCh ch fun _ => Channel.idle).settle) ∧
    (∀ g o, wfGathered g = true → (s.ch ch).state = .greeting → (s.ch ch).playing = some o →
      (s.ch ch).recording = none →
      exec (.release ch g) s = .next ((s.dropRef o).onCh ch fun _ => Channel.idle).settle) ∧
    (∀ g n k, wfGathered g = true → (s.ch ch).state = .tone → (s.ch ch).recording = some n →
      (s.ch ch).playing = none → (s.ch ch).mailbox = some k →
      exec (.release ch g) s = .next (((s.discardObj n).onMb k fun m => { m with
        reserved := m.reserved - 1, pending := m.pending - (s.ch ch).grant }).onCh ch fun _ =>
          Channel.idle).settle) ∧
    (∀ g k, wfGathered g = true → (s.ch ch).state = .recordPrompt → (s.ch ch).recording = none →
      (s.ch ch).playing = none → (s.ch ch).mailbox = some k →
      exec (.release ch g) s = .next ((s.onMb k fun m => { m with
        reserved := m.reserved - 1 }).onCh ch fun _ => Channel.idle).settle) ∧
    (∀ g n k u v, wfGathered g = true → (s.ch ch).state = .recording → (s.ch ch).recording = some n →
      (s.ch ch).playing = none → (s.ch ch).mailbox = some k →
      (u = s ∧ ∀ seg, g = some seg → s.append n seg = none) ∨
        (∃ seg, g = some seg ∧ s.append n seg = some u) →
      (u.closeObj n (u.silentTail n) 1 = (true, v) →
        exec (.release ch g) s = .next ((v.commit k (Entry.ofObject .voice false (s.ch ch).origin
          (s.ch ch).identity n s.cfg.node) true (s.ch ch).grant).onCh ch fun _ => Channel.idle).settle) ∧
      (u.closeObj n (u.silentTail n) 1 = (false, v) →
        exec (.release ch g) s = .next ((v.onMb k fun m => { m with
          reserved := m.reserved - 1, pending := m.pending - (s.ch ch).grant }).onCh ch fun _ =>
            Channel.idle).settle)) ∧
    (∀ g k a b, wfGathered g = true → (s.ch ch).mailbox = some k → (s.ch ch).state.deposit = false →
      (s.ch ch).state ≠ .idle → (s.ch ch).state ≠ .transferring → (s.ch ch).state ≠ .ending →
      (s.ch ch).state ≠ .clearing →
      ((s.ch ch).playing = none ∧ a = s) ∨ (∃ o, (s.ch ch).playing = some o ∧ a = s.dropRef o) →
      ((s.ch ch).recording = none ∧ b = a) ∨ (∃ n x, (s.ch ch).recording = some n ∧
        a.obj? n = some x ∧ b = if x.complete = true then a.dropRef n else a.discardObj n) →
      exec (.release ch g) s = .next (((b.onCh ch fun c => { c with
        playing := none, recording := none, grant := 0, pendingEnd := none, target := none
        endDigits := [], address := [] }).sessionEnd k ch).onCh ch fun _ => Channel.idle).settle) ∧
    (∀ g, wfGathered g = true → (s.ch ch).state = .idle → exec (.release ch g) s = .next s)

/-- The session timer's expiry (R70, R75, R83): in TRANSFERRING a CLEAR without prompt; in GREETING, "time is
up" and OPTIONS the state's own end, a greeting object's reference dropped (R55), and the farewell; in TONE and
the "record after the tone" prompt the reservation is returned, and the farewell; in RECORDING the partly
captured segment it comes with (log 5) is appended unless the earmark is spent, the object closed with its
silent tail as the trim and sent with urgent clear or, too short, the reservation returned, and the farewell
(R78, R82); and in ENDING and CLEARING nothing but the timer. In every state of a retrieval session the playback
ends as by a key (R42), an OPEN recording is discarded and a COMPLETE one loses its reference, the digits, a
pending end day and the send target are forgotten, the Directory ends the session, and the farewell plays (R101,
R102; a prompt that leads on is such a state: log 11). The end of the last final prompt sends CLEAR and
starts the 2 s clearing timer, and its expiry returns the channel to IDLE (R71). -/
def Obligations.CallsEndAndClear : Prop :=
  (∀ (s : State) (ch : Nat) (g : Option Segment), wfGathered g = true →
    (s.ch ch).sessionTimer.isSome = true →
    ((s.ch ch).state = .transferring →
      exec (.sessionTimerExpiry ch g) s =
        .next (({ s with lineOut := s.lineOut ++ [.clear ch] } : State).onCh ch fun c => { c with
          state := .clearing, sessionTimer := none, sound := [], clearingTimer := some 2000
          digitTimer := none, interDigitTimer := none }).settle) ∧
    (∀ u, (s.ch ch).state = .greeting →
      ((s.ch ch).playing = none ∧ u = s) ∨ (∃ o, (s.ch ch).playing = some o ∧ u = s.dropRef o) →
      exec (.sessionTimerExpiry ch g) s = .next (u.onCh ch fun c => { c with
        state := .ending, sessionTimer := none, sound := [.prompt .farewell], digitTimer := none
        interDigitTimer := none, playing := none }).settle) ∧
    (∀ n k, (s.ch ch).state = .options ∨ (s.ch ch).state = .timeUp → (s.ch ch).recording = some n →
      (s.ch ch).mailbox = some k →
      exec (.sessionTimerExpiry ch g) s =
        .next ((s.commit k (Entry.ofObject .voice false (s.ch ch).origin (s.ch ch).identity n s.cfg.node)
          true (s.ch ch).grant).onCh ch fun c => { c with
            state := .ending, sessionTimer := none, sound := [.prompt .farewell], recording := none
            grant := 0, reservation := false, urgent := false, digitTimer := none
            interDigitTimer := none }).settle) ∧
    (∀ k t, (s.ch ch).mailbox = some k →
      ((s.ch ch).state = .tone ∧ (∃ n, (s.ch ch).recording = some n ∧
        t = (s.discardObj n).onMb k fun m => { m with
          reserved := m.reserved - 1, pending := m.pending - (s.ch ch).grant })) ∨
      ((s.ch ch).state = .recordPrompt ∧ (s.ch ch).recording = none ∧
        t = s.onMb k fun m => { m with reserved := m.reserved - 1 }) →
      exec (.sessionTimerExpiry ch g) s = .next (t.onCh ch fun c => { c with
        state := .ending, sessionTimer := none, sound := [.prompt .farewell], recording := none
        grant := 0, reservation := false, digitTimer := none, interDigitTimer := none }).settle) ∧
    (∀ n k u v, (s.ch ch).state = .recording → (s.ch ch).recording = some n →
      (s.ch ch).mailbox = some k →
      (u = s ∧ ∀ seg, g = some seg → s.append n seg = none) ∨
        (∃ seg, g = some seg ∧ s.append n seg = some u) →
      (u.closeObj n (u.silentTail n) 1 = (true, v) →
        exec (.sessionTimerExpiry ch g) s = .next ((v.commit k (Entry.ofObject .voice false
          (s.ch ch).origin (s.ch ch).identity n s.cfg.node) true (s.ch ch).grant).onCh ch fun c => { c with
            state := .ending, sessionTimer := none, sound := [.prompt .farewell], recording := none
            grant := 0, reservation := false, urgent := false, digitTimer := none
            interDigitTimer := none }).settle) ∧
      (u.closeObj n (u.silentTail n) 1 = (false, v) →
        exec (.sessionTimerExpiry ch g) s = .next ((v.onMb k fun m => { m with
          reserved := m.reserved - 1, pending := m.pending - (s.ch ch).grant }).onCh ch fun c => { c with
            state := .ending, sessionTimer := none, sound := [.prompt .farewell], recording := none
            grant := 0, reservation := false, digitTimer := none, interDigitTimer := none }).settle)) ∧
    (∀ k u a b, (s.ch ch).mailbox = some k → (s.ch ch).state.deposit = false →
      (s.ch ch).state ≠ .idle → (s.ch ch).state ≠ .transferring → (s.ch ch).state ≠ .ending →
      (s.ch ch).state ≠ .clearing → u = s.onCh ch (fun c => { c with sessionTimer := none }) →
      ((s.ch ch).state = .playing ∧ a = u.endPlayback ch false) ∨
        ((s.ch ch).state ≠ .playing ∧ (s.ch ch).playing = none ∧ a = u) ∨
        (∃ o, (s.ch ch).state ≠ .playing ∧ (s.ch ch).playing = some o ∧ a = u.dropRef o) →
      ((s.ch ch).recording = none ∧ b = a) ∨ (∃ n x, (s.ch ch).recording = some n ∧
        a.obj? n = some x ∧ b = if x.complete = true then a.dropRef n else a.discardObj n) →
      exec (.sessionTimerExpiry ch g) s = .next (((b.onCh ch fun c => { c with
        playing := none, recording := none, grant := 0, pendingEnd := none, target := none
        endDigits := [], address := [] }).sessionEnd k ch).onCh ch fun c => { c with
          state := .ending, sound := [.prompt .farewell], digitTimer := none
          interDigitTimer := none }).settle) ∧
    ((s.ch ch).state = .ending ∨ (s.ch ch).state = .clearing →
      exec (.sessionTimerExpiry ch g) s =
        .next (s.onCh ch fun c => { c with sessionTimer := none }).settle)) ∧
  (∀ (s : State) (ch : Nat),
    ((s.ch ch).state = .ending →
      exec (.finalPromptEnd ch) s =
        .next (({ s with lineOut := s.lineOut ++ [.clear ch] } : State).onCh ch fun c => { c with
          state := .clearing, sound := [], clearingTimer := some 2000, digitTimer := none
          interDigitTimer := none }).settle) ∧
    ((s.ch ch).state = .clearing → (s.ch ch).clearingTimer.isSome = true →
      (s.ch ch).playing = none → (s.ch ch).recording = none →
      exec (.clearingTimerExpiry ch) s = .next (s.onCh ch fun _ => Channel.idle).settle))

/-! ### Menus, prompts and recordings -/

/-- A menu starts its 6 s digit timer when its prompt ends; MAIN plays its prompt again at the first two
expiries and ends the session at the third, the lock released; OPTIONS sends at the first (R46, R69, R81,
R82, R101). A digit joins an address or a list number and starts the 3 s inter-digit timer; * leads to the return
state; #, the timer, the fifth digit of an address and the second of a list number end the entry (R93). One that
is not valid counts, and the third leads to the return state. In a forward a valid address places the object in
the mailbox found with the entry's urgency, or offers it to the queue, and says what came of it; DISABLED and
IN_RANGE have their prompts, and MESSAGE follows (R94; a refused FOREIGN one: log 52). Otherwise the mailbox, the
extension abroad or the list is the target of a recording, and DISABLED and IN_RANGE count as not valid (R96; at
the third: log 41). A recording for sending is admitted by the class length and minimum room and F - E, plays
"record after the tone" and keeps object, grant and target, or leads to the return state (R10, R96). In
SEND_OPTIONS 1 and 2 send to the target, the channel's reference dropped, 3 frees the recording and starts it
again, 0 frees it and leads to the return state (R98; a list: ForwardsAndBroadcastCopies). In GREETINGS 1, 2 and 4
lead to their slot's menu, 3 to END_DAY, * to MAIN (R100). Other keys have no meaning and start a running digit
timer again (R69). That a prompt that leads on is a state of the channel is the model's reading (log 11). -/
def Obligations.MenuAndEntryTimersRun : Prop :=
  (∀ (s : State) (ch : Nat),
    ((s.ch ch).menuPrompt = true →
      exec (.menuPromptEnd ch) s =
        .next (s.onCh ch fun c => { c with sound := [], digitTimer := some 6000 }).settle) ∧
    ((s.ch ch).state = .main → (s.ch ch).digitTimer.isSome = true → (s.ch ch).typeAhead = [] →
      ((s.ch ch).silentRepeats < 2 →
        exec (.digitTimerExpiry ch) s = .next (s.onCh ch fun c => { c with
          silentRepeats := c.silentRepeats + 1, sound := [.prompt .mainMenu], digitTimer := none
          interDigitTimer := none }).settle) ∧
      (∀ k, 2 ≤ (s.ch ch).silentRepeats → (s.ch ch).mailbox = some k → (s.mb k).lock = some ch →
        k < s.mailboxes.length →
        ∃ t, exec (.digitTimerExpiry ch) s = .next t ∧ (t.ch ch).state = .ending ∧
          (t.ch ch).sound = [.prompt .farewell] ∧ (t.mb k).lock = none ∧
          (t.mb k).erasePending = [])) ∧
    (∀ n k, (s.ch ch).state = .options → (s.ch ch).digitTimer.isSome = true →
      (s.ch ch).recording = some n → (s.ch ch).mailbox = some k →
      exec (.digitTimerExpiry ch) s =
        .next ((s.commit k (Entry.ofObject .voice false (s.ch ch).origin (s.ch ch).identity n s.cfg.node)
          true (s.ch ch).grant).onCh ch fun c => { c with
            state := .ending, sound := [.prompt .messageSent, .prompt .farewell], recording := none
            grant := 0, reservation := false, urgent := false, digitTimer := none
            interDigitTimer := none }).settle)) ∧
  (∀ (s u : State) (ch : Nat) (i : Instr) (say : State → Prompt → After → State),
    (s.ch ch).typeAhead = [] →
    (∀ t p a, say t p a = t.onCh ch fun c => { c with
      state := .prompting a, sound := [.prompt p], digitTimer := none, interDigitTimer := none }) →
    (i = .interDigitTimerExpiry ch ∧ (s.ch ch).interDigitTimer.isSome = true ∧
        u = s.onCh ch fun c => { c with interDigitTimer := none }) ∨
      (ch ≤ 15 ∧ i = .digit ch .hash ∧ u = s.onCh ch fun c => { c with
        silentRepeats := 0, digitTimer := none, sound := [], interDigitTimer := none }) ∨
      (∃ d, ch ≤ 15 ∧ d ≤ 9 ∧ i = .digit ch (.num d) ∧
        (s.ch ch).address.length = (if (s.ch ch).state = .addressing then 4 else 1) ∧
        u = s.onCh ch fun c => { c with
          silentRepeats := 0, digitTimer := none, sound := [], address := c.address ++ [d]
          interDigitTimer := none }) →
    ((s.ch ch).state = .listNumber →
      (∀ l a b, (u.ch ch).address = [l] ∨ ((u.ch ch).address = [a, b] ∧ l = 10 * a + b) → l < 32 →
        exec i s = .next (u.startSend ch (.list l)).settle) ∧
      (((u.ch ch).address.length ≠ 1 ∧ (u.ch ch).address.length ≠ 2) ∨
          32 ≤ digitsValue (u.ch ch).address →
        exec i s = .next (say (u.onCh ch fun c => { c with address := [], invalid := c.invalid + 1 })
          .listNotValid (if 2 ≤ (s.ch ch).invalid then .returnState else .listNumber)).settle)) ∧
    ((s.ch ch).state = .addressing →
      (((u.ch ch).address.length ≠ 4 ∧ (u.ch ch).address.length ≠ 5) ∨
          (u.ch ch).address.head? = some 0 →
        exec i s = .next (say (u.onCh ch fun c => { c with address := [], invalid := c.invalid + 1 })
          .extensionNotValid (if 2 ≤ (s.ch ch).invalid then .returnState else .addressing)).settle) ∧
      ∀ ext, ext = digitsValue (u.ch ch).address →
        (u.ch ch).address.length = 4 ∨ (u.ch ch).address.length = 5 →
        (u.ch ch).address.head? ≠ some 0 →
        ((s.ch ch).returnState ≠ some .message →
          (∀ t, s.find ext = .homed t →
            exec i s = .next (u.startSend ch (.homed ext t)).settle) ∧
          (s.find ext = .foreign → exec i s = .next (u.startSend ch (.foreign ext)).settle) ∧
          ∀ p, ((∃ t, s.find ext = .disabled t) ∧ p = .cannotAccept) ∨
              (s.find ext = .inRange ∧ p = .noSuchMailbox) →
            exec i s = .next (say (u.onCh ch fun c => { c with
              address := [], invalid := c.invalid + 1 }) p
                (if 2 ≤ (s.ch ch).invalid then .returnState else .addressing)).settle) ∧
        ∀ k num e o, (s.ch ch).returnState = some .message → (s.ch ch).mailbox = some k →
          (s.ch ch).current = some num → (s.ch ch).currentGone = false → (s.mb k).entry? num = some e → e.object = some o →
          (∀ t a w, s.find ext = .homed t → u.forward o t k e.urgent = (a, w) →
            exec i s =
              .next (say w (if a = .done then .messageForwarded else .cannotAccept) .message).settle) ∧
          (∀ a w, s.find ext = .foreign → u.offerDirect ext o k (some e.number) e.urgent = (a, w) →
            exec i s = .next (say w (if a = true then .willBeDelivered else .cannotBeSentNow)
              .message).settle) ∧
          ∀ p, ((∃ t, s.find ext = .disabled t) ∧ p = .cannotAccept) ∨
              (s.find ext = .inRange ∧ p = .noSuchMailbox) →
            exec i s = .next (say u p .message).settle)) ∧
  (∀ (s : State) (ch d : Nat), (s.ch ch).typeAhead = [] → ch ≤ 15 → d ≤ 9 →
    ((s.ch ch).state = .addressing ∧ (s.ch ch).address.length < 4) ∨
      ((s.ch ch).state = .listNumber ∧ (s.ch ch).address = []) →
    exec (.digit ch (.num d)) s = .next (s.onCh ch fun c => { c with
      address := c.address ++ [d], interDigitTimer := some 3000, silentRepeats := 0
      digitTimer := none, sound := [] }).settle) ∧
  (∀ (s : State) (ch : Nat), (s.ch ch).typeAhead = [] → ch ≤ 15 →
    (s.ch ch).state = .addressing ∨ (s.ch ch).state = .listNumber →
    exec (.digit ch .star) s = .next (s.onCh ch fun c => { c with
      target := none, address := [], silentRepeats := 0, digitTimer := none, interDigitTimer := none
      state := if c.returnState = some .message then .message else .main
      sound := [.prompt (if c.returnState = some .message then .messageMenu else .mainMenu)] }).settle) ∧
  (∀ (s : State) (ch k b : Nat) (t : SendTarget), (s.ch ch).mailbox = some k →
    b = min (((s.cls k).maxSeconds * 16 + 7) / 8) (s.store.free.length - s.store.earmark) →
    (∀ u, (8 * b < (s.cls k).minRoom * 16 ∧ u = s) ∨
        ((s.cls k).minRoom * 16 ≤ 8 * b ∧ 8192 < lowestFree 1 s.store.objects ∧
          u = s.latch .objectsFull) →
      s.startSend ch t = u.onCh ch fun c => { c with
        state := .prompting .returnState, sound := [.prompt .cannotRecordNow], digitTimer := none
        interDigitTimer := none }) ∧
    ((s.cls k).minRoom * 16 ≤ 8 * b → lowestFree 1 s.store.objects ≤ 8192 →
      ∃ n u, s.admitSend k = (.granted n b, u) ∧ n = lowestFree 1 s.store.objects ∧
        u.store = { s.store with
          objects := tblSet n ⟨false, .message, [], 0, 0, some k, b, 0⟩ s.store.objects
          earmark := s.store.earmark + b } ∧
        u.mailboxes = s.mailboxes ∧ u.chans = s.chans ∧ u.deliv = s.deliv ∧ u.writer = s.writer ∧
        s.startSend ch t = u.onCh ch fun c => { c with
          state := .sendPrompt, target := some t, recording := some n, grant := b
          sound := [.prompt .recordAfterTone], digitTimer := none, interDigitTimer := none })) ∧
  (∀ (s u : State) (ch k n : Nat) (x : Obj) (t : SendTarget) (say : State → Prompt → After → State),
    (s.ch ch).typeAhead = [] → (s.ch ch).mailbox = some k → ch ≤ 15 →
    (∀ v p a, say v p a = v.onCh ch fun c => { c with
      state := .prompting a, sound := [.prompt p], digitTimer := none, interDigitTimer := none
      recording := none, grant := 0 }) →
    (s.ch ch).state = .sendOptions → (s.ch ch).recording = some n → (s.ch ch).target = some t →
    s.obj? n = some x → x.complete = true →
    u = s.onCh ch (fun c => { c with silentRepeats := 0, digitTimer := none, sound := [] }) →
    (∀ d b v, (d = 1 ∧ b = false) ∨ (d = 2 ∧ b = true) →
      v = u.onCh ch (fun c => { c with urgent := b }) →
      (∀ ext k' a w, t = .homed ext k' → v.forward n k' k b = (a, w) →
        exec (.digit ch (.num d)) s = .next (say (w.dropRef n)
          (if a = .done then .messageSent else .cannotAccept) .returnState).settle) ∧
      (∀ ext a w, t = .foreign ext → v.offerDirect ext n k none b = (a, w) →
        exec (.digit ch (.num d)) s = .next (say (w.dropRef n)
          (if a = true then .willBeDelivered else .cannotBeSentNow) .returnState).settle) ∧
      ∀ l, t = .list l → exec (.digit ch (.num d)) s = .next (v.sendList ch n l b).settle) ∧
    exec (.digit ch (.num 3)) s = .next (((u.dropRef n).onCh ch fun c => { c with
      recording := none, grant := 0 }).startSend ch t).settle ∧
    exec (.digit ch (.num 0)) s =
      .next (say (u.dropRef n) .messageCancelled .returnState).settle ∧
    ∀ key, wfKey key = true → key ≠ .num 0 → key ≠ .num 1 → key ≠ .num 2 → key ≠ .num 3 →
      exec (.digit ch key) s = .next (s.onCh ch fun c => { c with
        digitTimer := c.digitTimer.map fun _ => 6000 }).settle) ∧
  (∀ (s : State) (ch k : Nat), (s.ch ch).typeAhead = [] → (s.ch ch).mailbox = some k → ch ≤ 15 →
    (s.ch ch).state = .greetings →
    (∀ (d : Nat) (g : GreetSlot), (d = 1 ∧ g = .standard) ∨ (d = 2 ∧ g = .busy) ∨ (d = 4 ∧ g = .name) →
      exec (.digit ch (.num d)) s = .next (s.onCh ch fun c => { c with
        slot := some g, state := .slot, sound := s.slotSounds k g, silentRepeats := 0
        digitTimer := none, interDigitTimer := none }).settle) ∧
    exec (.digit ch (.num 3)) s = .next (s.onCh ch fun c => { c with
      slot := some .absence, state := .endDay, endDigits := [], endInvalid := 0
      sound := [.prompt .enterEndDay], silentRepeats := 0, digitTimer := none
      interDigitTimer := none }).settle ∧
    exec (.digit ch .star) s = .next (s.onCh ch fun c => { c with
      slot := none, pendingEnd := none, state := .main, sound := [.prompt .mainMenu]
      silentRepeats := 0, digitTimer := none, interDigitTimer := none }).settle ∧
    ∀ key, wfKey key = true → key ≠ .num 1 → key ≠ .num 2 → key ≠ .num 3 → key ≠ .num 4 →
      key ≠ .star → exec (.digit ch key) s = .next (s.onCh ch fun c => { c with
        digitTimer := c.digitTimer.map fun _ => 6000 }).settle) ∧
  digitsValue [] = 0 ∧ ∀ ds d, digitsValue (ds ++ [d]) = 10 * digitsValue ds + d

/-- At the end of the tone the channel captures (R77, R56, R96), and each captured segment joins the object
of the recording (R78, R97, R57): below 112 silent segments a deposit or a recording for sending goes on,
and a greeting goes on whatever its silent tail. An append the spent earmark refuses closes the recording
untrimmed and nothing of the segment is kept; "time is up" plays, in a deposit, a recording for sending and a
greeting. At 112 silent segments a deposit and a recording for sending are closed with those 112 trimmed and
their menu follows. Key # closes a recording untrimmed and leads to OPTIONS, to the send menu or to the review;
key * discards it, and then a deposit gives its grant back and is asked for again, a recording for sending
leads to the return state and a greeting to its slot (R57, R79, R80, R97). A recording the close discards is
too short: a deposit returns its reservation and clears, a recording for sending leads to the return state and
a greeting to its slot. In OPTIONS 1 and 2 send, 3 frees the recording and asks for it again, 0 frees it and
clears, and any other key plays the prompt again (R81, R82; its timer: log 25). That a channel whose prompt only
leads to the next state is in a state of its own is the model's reading (log 11). -/
def Obligations.CaptureAppendsSegments : Prop :=
  (∀ (s : State) (ch : Nat), (s.ch ch).typeAhead = [] →
    ((s.ch ch).state = .tone →
      exec (.toneEnd ch) s = .next (s.onCh ch fun c => { c with
        state := .recording, sound := [] }).settle) ∧
    ((s.ch ch).state = .sendTone →
      exec (.toneEnd ch) s = .next (s.onCh ch fun c => { c with
        state := .sendCapture, sound := [] }).settle) ∧
    ((s.ch ch).state = .greetTone →
      exec (.toneEnd ch) s = .next (s.onCh ch fun c => { c with
        state := .greetCapture, sound := [] }).settle) ∧
    (∀ seg n t, wfSegment seg = true → (s.ch ch).recording = some n → s.append n seg = some t →
      (s.ch ch).state = .greetCapture ∨
        (((s.ch ch).state = .recording ∨ (s.ch ch).state = .sendCapture) ∧ t.silentTail n < 112) →
      exec (.segmentCaptured ch seg) s = .next t.settle) ∧
    (∀ seg n o, wfSegment seg = true → (s.ch ch).recording = some n → (s.ch ch).state = .recording →
      s.obj? n = some o → o.segments % 8 = 0 → o.earmark = 0 → 16 ≤ o.segments →
      ∃ t, exec (.segmentCaptured ch seg) s = .next t ∧ (t.ch ch).state = .timeUp ∧
        (t.ch ch).sound = [.prompt .timeIsUp] ∧ (t.ch ch).recording = some n ∧ t.audio = s.audio ∧
        t.obj? n = some { o with
          complete := true, chain := o.chain.take ((o.segments + 7) / 8), refs := 1, earmark := 0
          silentTail := 0 }) ∧
    (∀ seg n t v trim spent, wfSegment seg = true → (s.ch ch).recording = some n →
      (s.append n seg = none ∧ t = s ∧ trim = 0 ∧ spent = true) ∨
        (s.append n seg = some t ∧ 112 ≤ t.silentTail n ∧ trim = 112 ∧ spent = false) →
      (∀ k, (s.ch ch).state = .recording → (s.ch ch).mailbox = some k →
        (t.closeObj n trim 1 = (true, v) →
          (spent = true → exec (.segmentCaptured ch seg) s = .next (v.onCh ch fun c => { c with
            state := .timeUp, sound := [.prompt .timeIsUp] }).settle) ∧
          (spent = false → exec (.segmentCaptured ch seg) s = .next (v.onCh ch fun c => { c with
            state := .options, silentRepeats := 0, sound := [.prompt .options], digitTimer := none
            interDigitTimer := none }).settle)) ∧
        (t.closeObj n trim 1 = (false, v) →
          exec (.segmentCaptured ch seg) s = .next ((v.onMb k fun m => { m with
            reserved := m.reserved - 1, pending := m.pending - (s.ch ch).grant }).onCh ch fun c =>
              { c with
                state := .ending, sound := [.prompt .tooShort, .prompt .farewell], recording := none
                grant := 0, reservation := false, digitTimer := none
                interDigitTimer := none }).settle)) ∧
      ((s.ch ch).state = .sendCapture →
        (t.closeObj n trim 1 = (true, v) →
          (spent = true → exec (.segmentCaptured ch seg) s = .next (v.onCh ch fun c => { c with
            state := .sendTimeUp, sound := [.prompt .timeIsUp] }).settle) ∧
          (spent = false → exec (.segmentCaptured ch seg) s = .next (v.onCh ch fun c => { c with
            state := .sendOptions, silentRepeats := 0, sound := [.prompt .sendMenu]
            digitTimer := none, interDigitTimer := none }).settle)) ∧
        (t.closeObj n trim 1 = (false, v) →
          exec (.segmentCaptured ch seg) s = .next (v.onCh ch fun c => { c with
            state := .prompting .returnState, sound := [.prompt .tooShort], recording := none
            grant := 0, digitTimer := none, interDigitTimer := none }).settle)) ∧
      ((s.ch ch).state = .greetCapture → spent = true →
        (t.closeObj n trim 1 = (true, v) →
          exec (.segmentCaptured ch seg) s = .next (v.onCh ch fun c => { c with
            state := .greetTimeUp, sound := [.prompt .timeIsUp] }).settle) ∧
        (t.closeObj n trim 1 = (false, v) →
          exec (.segmentCaptured ch seg) s = .next (v.onCh ch fun c => { c with
            state := .prompting .slot, sound := [.prompt .tooShort], recording := none
            grant := 0, digitTimer := none, interDigitTimer := none }).settle)))) ∧
  ∀ (s v : State) (ch k n : Nat), ch ≤ 15 → (s.ch ch).typeAhead = [] → (s.ch ch).mailbox = some k →
    (s.ch ch).recording = some n →
    ((s.ch ch).state = .recording →
      (s.closeObj n 0 1 = (true, v) →
        exec (.digit ch .hash) s = .next (v.onCh ch fun c => { c with
          state := .options, silentRepeats := 0, sound := [.prompt .options], digitTimer := none
          interDigitTimer := none }).settle) ∧
      (s.closeObj n 0 1 = (false, v) →
        exec (.digit ch .hash) s = .next ((v.onMb k fun m => { m with
          reserved := m.reserved - 1, pending := m.pending - (s.ch ch).grant }).onCh ch fun c => { c with
            state := .ending, sound := [.prompt .tooShort, .prompt .farewell], recording := none
            grant := 0, reservation := false, digitTimer := none, interDigitTimer := none }).settle) ∧
      exec (.digit ch .star) s = .next (((s.discardObj n).onMb k fun m => { m with
        pending := m.pending - (s.ch ch).grant }).onCh ch fun c => { c with
          state := .recordPrompt, sound := [.prompt .recordAfterTone], recording := none, grant := 0
          digitTimer := none }).settle) ∧
    ((s.ch ch).state = .sendCapture →
      (s.closeObj n 0 1 = (true, v) →
        exec (.digit ch .hash) s = .next (v.onCh ch fun c => { c with
          state := .sendOptions, silentRepeats := 0, sound := [.prompt .sendMenu], digitTimer := none
          interDigitTimer := none }).settle) ∧
      (s.closeObj n 0 1 = (false, v) →
        exec (.digit ch .hash) s = .next (v.onCh ch fun c => { c with
          state := .prompting .returnState, sound := [.prompt .tooShort], recording := none, grant := 0
          digitTimer := none, interDigitTimer := none }).settle) ∧
      (∀ o, s.obj? n = some o → o.complete = false →
        exec (.digit ch .star) s = .next ((s.discardObj n).onCh ch fun c => { c with
          state := .prompting .returnState, sound := [.prompt .messageCancelled], recording := none
          grant := 0, digitTimer := none, interDigitTimer := none }).settle)) ∧
    ((s.ch ch).state = .greetCapture →
      (s.closeObj n 0 1 = (true, v) →
        exec (.digit ch .hash) s = .next (v.onCh ch fun c => { c with
          state := .review, silentRepeats := 0, sound := [.object n], digitTimer := none }).settle) ∧
      (s.closeObj n 0 1 = (false, v) →
        exec (.digit ch .hash) s = .next (v.onCh ch fun c => { c with
          state := .prompting .slot, sound := [.prompt .tooShort], recording := none, grant := 0
          digitTimer := none, interDigitTimer := none }).settle) ∧
      (∀ o g, s.obj? n = some o → o.complete = false → (s.ch ch).slot = some g →
        exec (.digit ch .star) s = .next ((s.discardObj n).onCh ch fun c => { c with
          state := .slot, silentRepeats := 0, sound := s.slotSounds k g, recording := none, grant := 0
          digitTimer := none, interDigitTimer := none }).settle)) ∧
    ((s.ch ch).state = .options →
      (∀ (d : Nat) (urgent : Bool), (d = 1 ∧ urgent = false) ∨ (d = 2 ∧ urgent = true) →
        exec (.digit ch (.num d)) s = .next ((s.commit k (Entry.ofObject .voice urgent (s.ch ch).origin
          (s.ch ch).identity n s.cfg.node) true (s.ch ch).grant).onCh ch fun c => { c with
            state := .ending, silentRepeats := 0
            sound := [.prompt .messageSent, .prompt .farewell], recording := none, grant := 0
            reservation := false, urgent := urgent, digitTimer := none
            interDigitTimer := none }).settle) ∧
      exec (.digit ch (.num 3)) s = .next (((s.dropRef n).onMb k fun m => { m with
        pending := m.pending - (s.ch ch).grant }).onCh ch fun c => { c with
          state := .recordPrompt, silentRepeats := 0, sound := [.prompt .recordAfterTone]
          recording := none, grant := 0, digitTimer := none }).settle ∧
      exec (.digit ch (.num 0)) s = .next (((s.dropRef n).onMb k fun m => { m with
        reserved := m.reserved - 1, pending := m.pending - (s.ch ch).grant }).onCh ch fun c => { c with
          state := .ending, silentRepeats := 0, sound := [.prompt .farewell], recording := none
          grant := 0, reservation := false, digitTimer := none, interDigitTimer := none }).settle ∧
      ∀ key, wfKey key = true → key ≠ .num 0 → key ≠ .num 1 → key ≠ .num 2 → key ≠ .num 3 →
        exec (.digit ch key) s = .next (s.onCh ch fun c => { c with
          sound := [.prompt .options], digitTimer := none, interDigitTimer := none }).settle)

/-- A greeting that has ended (R55, R74, R76, R77), the reference of its object, where it played one, dropped
first: an ABSENCE greeting in a class that blocks deposits clears
with "not accepting messages"; a list without room clears with "mailbox full"; otherwise a slot is reserved,
and a granted admission leads to the tone. After a cancel the "record after the tone" prompt ends in a new
admission, whose refusal returns the reservation (R80). -/
def Obligations.GreetingLeadsToTheTone : Prop :=
  ∀ (s : State) (ch k : Nat), (s.ch ch).typeAhead = [] → (s.ch ch).mailbox = some k →
    (∀ u : State, (s.ch ch).state = .greeting →
      ((s.ch ch).playing = none ∧ u = s) ∨
        (∃ o, (s.ch ch).playing = some o ∧
          u = (s.dropRef o).onCh ch fun c => { c with playing := none }) →
      ((s.ch ch).absenceChosen = true → (s.cls k).absenceBlocks = true →
        exec (.greetingEnd ch) s = .next (u.onCh ch fun c => { c with
          state := .ending, sound := [.prompt .notAccepting], digitTimer := none
          interDigitTimer := none }).settle) ∧
      ((s.ch ch).absenceChosen = false ∨ (s.cls k).absenceBlocks = false → s.inService k = true →
        ((s.cls k).maxEntries ≤ (s.mb k).entries.length + (s.mb k).reserved →
          exec (.greetingEnd ch) s = .next (u.onCh ch fun c => { c with
            state := .ending, sound := [.prompt .mailboxFull], digitTimer := none
            interDigitTimer := none }).settle) ∧
        (∀ n b t, (s.mb k).entries.length + (s.mb k).reserved < (s.cls k).maxEntries →
          ((u.onMb k fun m => { m with reserved := m.reserved + 1 }).onCh ch fun c => { c with
            reservation := true }).admitDeposit k = (.granted n b, t) →
          exec (.greetingEnd ch) s = .next (t.onCh ch fun c => { c with
            state := .tone, sound := [.tone], recording := some n, grant := b }).settle))) ∧
    ((s.ch ch).state = .recordPrompt →
      (∀ n b t, s.admitDeposit k = (.granted n b, t) →
        exec (.recordPromptEnd ch) s = .next (t.onCh ch fun c => { c with
          state := .tone, sound := [.tone], recording := some n, grant := b }).settle) ∧
      (s.admitDeposit k = (.full, s) →
        exec (.recordPromptEnd ch) s =
          .next ((s.onMb k fun m => { m with reserved := m.reserved - 1 }).onCh ch fun c => { c with
            reservation := false, state := .ending, sound := [.prompt .mailboxFull]
            digitTimer := none, interDigitTimer := none }).settle))

/-- Prompts and what follows them. A prompt that only leads on, whose state is the model's reading (log 11), ends
in what its rule names, one PROMPT_END ending all it plays (log 19): MAIN, MESSAGE, ADDRESSING, LIST_NUMBER or
END_DAY with its menu prompt, the return state with the send target absent (R93, R97 to R99), the slot's menu,
which says the slot's name, whether it is recorded and for ABSENCE the end day (R100), or the next entry (R88,
R92). The next entry in order is presented; with none left "no more messages" plays and MAIN follows, also where
a gone entry or a refused playback asked for it (R87; log 42). An entry presented becomes current, joins the
presented set and plays its envelope and then its content: a NOTICE its prompts, any other its object under a
reference, and one whose reference is refused "message no longer available", at whose end the next entry is
presented (R89). The tone follows "record after the tone" (R56, R96), a menu "time is up" and the summary (R79,
R97, R57, R58, R86), and the review menu the playback of a new greeting (R58). In every other state PROMPT_END
ends the first of two or more parts and the next follows (log 19). -/
def Obligations.PromptsLeadOn : Prop :=
  ∀ (s : State) (ch : Nat), (s.ch ch).typeAhead = [] →
    ((s.ch ch).state = .sendPrompt →
      exec (.promptEnd ch) s = .next (s.onCh ch fun c => { c with
        state := .sendTone, sound := [.tone] }).settle) ∧
    ((s.ch ch).state = .greetPrompt →
      exec (.promptEnd ch) s = .next (s.onCh ch fun c => { c with
        state := .greetTone, sound := [.tone] }).settle) ∧
    (∀ (a : After) (st : ChanState) (p : Prompt), (s.ch ch).state = .prompting a →
      (a = .main ∧ st = .main ∧ p = .mainMenu) ∨ (a = .message ∧ st = .message ∧ p = .messageMenu) ∨
        (a = .addressing ∧ st = .addressing ∧ p = .enterExtension) ∨
        (a = .listNumber ∧ st = .listNumber ∧ p = .enterList) ∨
        (a = .endDay ∧ st = .endDay ∧ p = .enterEndDay) →
      exec (.promptEnd ch) s = .next (s.onCh ch fun c => { c with
        state := st, silentRepeats := 0, sound := [.prompt p], digitTimer := none
        interDigitTimer := none }).settle) ∧
    ((s.ch ch).state = .prompting .returnState →
      exec (.promptEnd ch) s = .next (s.onCh ch fun c => { c with
        target := none, address := [], silentRepeats := 0, digitTimer := none
        interDigitTimer := none
        state := if c.returnState = some .message then .message else .main
        sound := [.prompt (if c.returnState = some .message then .messageMenu else .mainMenu)]
        }).settle) ∧
    (∀ k g, (s.ch ch).state = .prompting .slot → (s.ch ch).mailbox = some k →
      (s.ch ch).slot = some g →
      exec (.promptEnd ch) s = .next (s.onCh ch fun c => { c with
        state := .slot, silentRepeats := 0, digitTimer := none, interDigitTimer := none
        sound := [.prompt (.slotName g),
            .prompt (if ((s.mb k).slotObj g).isSome = true then .recorded else .notRecorded)] ++
          (if g = .absence then (match (s.mb k).endDay with
            | none => [.prompt .noEndDate]
            | some d => [.date d]) else []) ++ [.prompt .slotMenu] }).settle) ∧
    ((s.ch ch).state = .prompting .presentNext →
      exec (.promptEnd ch) s = .next (s.presentNext ch).settle) ∧
    ((s.ch ch).state = .playing → (s.ch ch).playing = none →
      (∃ x, (s.ch ch).sound = [x]) → (s.ch ch).sound.getLast? = some (.prompt .unavailable) →
      exec (.promptEnd ch) s = .next (s.presentNext ch).settle) ∧
    (s.nextEntry ch = none → s.presentNext ch = s.onCh ch fun c => { c with
      current := none, currentGone := false, state := .prompting .main, sound := [.prompt .noMore]
      digitTimer := none, interDigitTimer := none }) ∧
    (∀ e, s.nextEntry ch = some e → s.presentNext ch = s.present ch e) ∧
    (∀ (e : Entry) (play : State → List Sound → State),
      (∀ t l, play t l = t.onCh ch fun c => { c with
        state := .playing, current := some e.number, currentGone := false, sound := s.envelope e ++ l
        presented := if e.number ∈ c.presented then c.presented else c.presented ++ [e.number]
        silentRepeats := 0, digitTimer := none, interDigitTimer := none }) →
      (e.kind = .notice → s.present ch e = play s e.noticeSounds) ∧
      ∀ o x, e.kind ≠ .notice → e.object = some o → s.obj? o = some x → x.complete = true →
        (65535 ≤ x.refs → s.present ch e = play s [.prompt .unavailable]) ∧
        (x.refs < 65535 → s.present ch e = (play { s with
          store := { s.store with objects := tblSet o { x with refs := x.refs + 1 } s.store.objects }
          writer := { s.writer with
            dirtyObjects := joinSet s.writer.dirtyObjects ((o - 1) / 16) } } [.object o]).onCh ch
          fun c => { c with playing := some o })) ∧
    (∀ x y rest, (s.ch ch).sound = x :: y :: rest → (s.ch ch).state ≠ .sendPrompt →
      (s.ch ch).state ≠ .greetPrompt → (∀ a, (s.ch ch).state ≠ .prompting a) →
      exec (.promptEnd ch) s = .next (s.onCh ch fun c => { c with sound := y :: rest }).settle) ∧
    ((s.ch ch).state = .summary →
      exec (.summaryEnd ch) s = .next (s.onCh ch fun c => { c with
        state := .main, silentRepeats := 0, sound := [.prompt .mainMenu], digitTimer := none
        interDigitTimer := none }).settle) ∧
    ((s.ch ch).state = .timeUp →
      exec (.timeIsUpPromptEnd ch) s = .next (s.onCh ch fun c => { c with
        state := .options, silentRepeats := 0, sound := [.prompt .options], digitTimer := none
        interDigitTimer := none }).settle) ∧
    ((s.ch ch).state = .sendTimeUp →
      exec (.timeIsUpPromptEnd ch) s = .next (s.onCh ch fun c => { c with
        state := .sendOptions, silentRepeats := 0, sound := [.prompt .sendMenu], digitTimer := none
        interDigitTimer := none }).settle) ∧
    (∀ n, (s.ch ch).state = .greetTimeUp → (s.ch ch).recording = some n →
      exec (.timeIsUpPromptEnd ch) s = .next (s.onCh ch fun c => { c with
        state := .review, silentRepeats := 0, sound := [.object n], digitTimer := none }).settle) ∧
    ((s.ch ch).state = .review → (s.ch ch).playsObject = true →
      exec (.reviewPlaybackEnd ch) s = .next (s.onCh ch fun c => { c with
        sound := [.prompt .reviewMenu], digitTimer := none, interDigitTimer := none }).settle)

/-- The end of an entry's playback, a message's or a NOTICE's, drops the playing reference where there is one
(a NOTICE has none) and offers the message menu (R89); on the channel that holds the mailbox's lock (R41) it
makes a NEW entry HEARD as of today and leaves any other as it is (R42). The end of a gone entry's playback
changes no entry, in the list or no longer in it (R47, R88), and that of a playback whose reference was refused
leads to the next entry (R89). A key with a meaning in PLAYING first ends the playback so and then acts as in
MESSAGE; 0 to 3 have none (R90). In MESSAGE # plays the menu prompt again, * leads to MAIN with no current
entry, 6 presents the next entry, and 4, 5, 7, 8 and 9 on a gone entry say so and present the next (R88; none
left: log 42). 4 presents the current entry again, 5 goes to ADDRESSING or says that a NOTICE cannot be
forwarded (R90), and 8 records a reply to the origin, or says that there is none, that its mailbox cannot accept
or that there is no such mailbox (R96); 7 and 9 are in DigitsWaitOrAreTaken, a recording's start in
MenuAndEntryTimersRun, a presentation in PromptsLeadOn. A channel in a prompt's state is log 11. The end of a
slot's playback drops the reference and offers the slot's menu again (R55, R60). What a channel plays leaves in
its own slot of the highway: an object its segments in chain order, as many as it counts, and silence while it
plays nothing; and a channel that is not recording captures nothing (R183). -/
def Obligations.PlaybacksEnd : Prop :=
  (∀ (s : State) (ch k : Nat), (s.ch ch).typeAhead = [] → (s.ch ch).mailbox = some k →
    k < s.mailboxes.length →
    (∀ (num : Nat) (e : Entry) (u : State), (s.ch ch).state = .playing →
      (s.ch ch).current = some num → (s.mb k).lock = some ch → (s.mb k).entry? num = some e →
      (∃ n, (s.ch ch).playing = some n ∧ u = s.dropRef n) ∨
        ((s.ch ch).playing = none ∧ e.kind = .notice ∧ u = s ∧
          (s.ch ch).sound.getLast? ≠ some (.prompt .unavailable)) →
      ∃ t, exec (.playbackEnd ch) s = .next t ∧ (t.ch ch).state = .message ∧
        (t.ch ch).playing = none ∧ (t.ch ch).current = some num ∧
        (t.ch ch).sound = [.prompt .messageMenu] ∧
        (t.mb k).entries = (if (s.ch ch).currentGone = false ∧ e.state = .new then
          (s.mb k).entries.map (fun x =>
            if x.number = num then { x with state := .heard, changeDay := s.today } else x)
          else (s.mb k).entries) ∧
        t.store = u.store ∧ ∀ j, j ≠ ch → t.ch j = s.ch j) ∧
    (∀ (u : State), (s.ch ch).state = .playing → (s.ch ch).currentGone = true →
      (∃ n, (s.ch ch).playing = some n ∧ u = s.dropRef n) ∨
        ((s.ch ch).playing = none ∧ u = s ∧
          (s.ch ch).sound.getLast? ≠ some (.prompt .unavailable)) →
      exec (.playbackEnd ch) s = .next (u.onCh ch fun c => { c with
        playing := none, state := .message, silentRepeats := 0, sound := [.prompt .messageMenu]
        digitTimer := none, interDigitTimer := none }).settle) ∧
    ((s.ch ch).state = .playing → (s.ch ch).playing = none →
      (s.ch ch).sound.getLast? = some (.prompt .unavailable) →
      exec (.playbackEnd ch) s = .next (s.presentNext ch).settle) ∧
    (∀ n g, (s.ch ch).playing = some n → (s.ch ch).state = .slot → (s.ch ch).playsObject = true →
      (s.ch ch).slot = some g →
      exec (.slotPlaybackEnd ch) s = .next ((s.dropRef n).onCh ch fun c => { c with
        playing := none, silentRepeats := 0, sound := s.slotSounds k g, digitTimer := none
        interDigitTimer := none }).settle)) ∧
  (∀ (s : State) (ch : Nat), (s.ch ch).typeAhead = [] → ch ≤ 15 →
    ((s.ch ch).state = .playing →
      ((s.ch ch).playing.isSome = true ∨ (s.ch ch).sound.getLast? ≠ some (.prompt .unavailable) →
        exec (.playbackEnd ch) s = .next ((s.endPlayback ch false).onCh ch fun c => { c with
          state := .message, silentRepeats := 0, sound := [.prompt .messageMenu], digitTimer := none
          interDigitTimer := none }).settle) ∧
      ∀ key, key = .hash ∨ key = .star ∨ (∃ n, key = .num n ∧ 4 ≤ n ∧ n ≤ 9) →
        exec (.digit ch key) s = exec (.digit ch key)
          ((s.endPlayback ch false).onCh ch fun c => { c with state := .message })) ∧
    ((s.ch ch).state = .playing ∨ (s.ch ch).state = .message → ∀ d, d ≤ 3 →
      exec (.digit ch (.num d)) s = .next (s.onCh ch fun c => { c with
        digitTimer := c.digitTimer.map fun _ => 6000 }).settle)) ∧
  (∀ (s u : State) (ch k : Nat) (say : State → Prompt → After → State),
    (s.ch ch).typeAhead = [] → (s.ch ch).mailbox = some k → ch ≤ 15 →
    (∀ t p a, say t p a = t.onCh ch fun c => { c with
      state := .prompting a, sound := [.prompt p], digitTimer := none, interDigitTimer := none }) →
    (s.ch ch).state = .message →
    u = s.onCh ch (fun c => { c with silentRepeats := 0, digitTimer := none, sound := [] }) →
    exec (.digit ch .hash) s = .next (u.onCh ch fun c => { c with
      sound := [.prompt .messageMenu], interDigitTimer := none }).settle ∧
    exec (.digit ch .star) s = .next (u.onCh ch fun c => { c with
      state := .main, current := none, currentGone := false, sound := [.prompt .mainMenu]
      interDigitTimer := none }).settle ∧
    exec (.digit ch (.num 6)) s = .next (u.presentNext ch).settle ∧
    ((s.ch ch).currentGone = true → ∀ d, d = 4 ∨ d = 5 ∨ d = 7 ∨ d = 8 ∨ d = 9 →
      exec (.digit ch (.num d)) s = .next (say u .unavailable .presentNext).settle) ∧
    ∀ num e, (s.ch ch).current = some num → (s.ch ch).currentGone = false →
      (s.mb k).entry? num = some e →
      exec (.digit ch (.num 4)) s = .next (u.present ch e).settle ∧
      (e.kind = .notice →
        exec (.digit ch (.num 5)) s = .next (say u .cannotForward .message).settle) ∧
      (e.kind ≠ .notice → exec (.digit ch (.num 5)) s = .next (u.onCh ch fun c => { c with
        state := .addressing, returnState := some .message, address := [], invalid := 0
        sound := [.prompt .enterExtension], interDigitTimer := none }).settle) ∧
      (e.origin = none →
        exec (.digit ch (.num 8)) s = .next (say u .cannotReply .message).settle) ∧
      ∀ ext v, e.origin = some ext →
        v = u.onCh ch (fun c => { c with returnState := some .message }) →
        (∀ t, s.find ext = .homed t →
          exec (.digit ch (.num 8)) s = .next (v.startSend ch (.homed ext t)).settle) ∧
        (s.find ext = .foreign →
          exec (.digit ch (.num 8)) s = .next (v.startSend ch (.foreign ext)).settle) ∧
        ∀ p, ((∃ t, s.find ext = .disabled t) ∧ p = .cannotAccept) ∨
            (s.find ext = .inRange ∧ p = .noSuchMailbox) →
          exec (.digit ch (.num 8)) s = .next (say v p .message).settle) ∧
  (∀ (s : State) (i : Nat), i ≤ 15 →
    ((s.ch i).sound = [] → s.highway[i]? = some [.silence]) ∧
    ((s.ch i).sound ≠ [] → s.highway[i]? = some ((s.ch i).sound.flatMap fun x => match x with
      | .object n => (s.objectAudio n).map .segment
      | y => [.part y]))) ∧
  (∀ (s : State) (n : Nat) (o : Obj), s.obj? n = some o →
    (s.objectAudio n).length = o.segments ∧
    ∀ j b, j < o.segments → o.chain[j / 8]? = some b →
      (s.objectAudio n)[j]? = some (audioRead s.audio (8 * b + j % 8))) ∧
  ∀ (s : State) (ch : Nat) (seg : Segment), (s.ch ch).state ≠ .recording →
    (s.ch ch).state ≠ .sendCapture → (s.ch ch).state ≠ .greetCapture →
    exec (.segmentCaptured ch seg) s = .next s

/-! ### Lamps, the port and status -/

/-- A LAMP_RESULT for an outstanding command (R105, R107, R108, R110): the command is outstanding no more, the
reported state is what the result says, LAMP_FAULTS is latched when the fault count passes from 0 to 1, and a
dispatch follows; one with no outstanding command is discarded. A result timer's expiry (R106, R109): a first
attempt joins the queue again with attempt number 2, is dropped when a command for its extension is queued,
and sets the scan flag when the queue is full, which begins a pass where none runs; a second attempt is
dropped and the reported state is UNKNOWN; a dispatch follows each. A dispatch (R107, R116): nothing is sent
outside SERVING and DRAINING, with 4 commands outstanding or none eligible; otherwise the first eligible
command in queue order is sent and the dispatch goes on. -/
def Obligations.LampCommandsEnd : Prop :=
  (∀ (s : State) (ext : Nat) (r : LampResult), 1000 ≤ ext → ext ≤ 99999 → s.mode ≠ .halted →
    (∀ c, s.lamp.outFor ext = some c → c.mailbox < s.lamp.recs.length →
      ∃ t, exec (.lampResult ext r) s = .next (if s.lamp.faultCount = 0 ∧ r ≠ LampResult.ok then
          t.latch .lampFaults else t).lampDispatch.settle ∧
        t = { s with lamp := { s.lamp with
          recs := s.lamp.recs.modify c.mailbox fun x => { x with
            reported := if r = LampResult.ok then (if c.on = true then .on else .off) else .fault }
          outstanding := s.lamp.outstanding.filter fun p => p.1.ext != ext } }) ∧
    (s.lamp.outFor ext = none → exec (.lampResult ext r) s = .next s)) ∧
  (∀ (s t : State) (ext : Nat) (c : LampCmd), s.lamp.outFor ext = some c → s.mode ≠ .halted →
    t = { s with lamp := { s.lamp with
      outstanding := s.lamp.outstanding.filter fun p => p.1.ext != ext } } →
    (c.attempt = 1 → c.ext = ext →
      ((∃ q ∈ s.lamp.queue, q.ext = ext) →
        exec (.lampResultTimeout ext) s = .next t.lampDispatch.settle) ∧
      ((∀ q ∈ s.lamp.queue, q.ext ≠ ext) → s.lamp.queue.length < 32 →
        exec (.lampResultTimeout ext) s = .next ({ t with lamp := { t.lamp with
          queue := t.lamp.queue ++ [{ c with attempt := 2 }]
          recs := t.lamp.recs.modify c.mailbox fun x => { x with flag := false }
          } } : State).lampDispatch.settle) ∧
      ((∀ q ∈ s.lamp.queue, q.ext ≠ ext) → s.lamp.queue.length = 32 →
        (s.lamp.scanRunning = true ∨ s.cfg.scanContinuous = true ∨ c.mailbox < s.cfg.scanStart ∨
            s.cfg.scanEnd < c.mailbox ∨ (s.mode ≠ .serving ∧ s.mode ≠ .draining) →
          exec (.lampResultTimeout ext) s = .next ({ t with lamp := { t.lamp with
            recs := t.lamp.recs.modify c.mailbox fun x => { x with flag := true }
            } } : State).lampDispatch.settle) ∧
        (s.lamp.scanRunning = false → s.cfg.scanContinuous = false → s.cfg.scanStart ≤ c.mailbox →
          c.mailbox ≤ s.cfg.scanEnd → s.mode = .serving ∨ s.mode = .draining →
          exec (.lampResultTimeout ext) s = .next ({ t with lamp := { t.lamp with
            recs := t.lamp.recs.modify c.mailbox fun x => { x with flag := true }
            scanPos := s.cfg.scanStart, scanRunning := true, scanTimer := some 200
            } } : State).lampDispatch.settle))) ∧
    (c.attempt = 2 →
      exec (.lampResultTimeout ext) s = .next ({ t with lamp := { t.lamp with
        recs := t.lamp.recs.modify c.mailbox fun x => { x with reported := .unknown }
        } } : State).lampDispatch.settle)) ∧
  ∀ s : State,
    ((s.mode ≠ .serving ∧ s.mode ≠ .draining) ∨ 4 ≤ s.lamp.outstanding.length ∨
        (∀ q ∈ s.lamp.queue, ∃ p ∈ s.lamp.outstanding, p.1.ext = q.ext) →
      s.lampDispatch = s) ∧
    ∀ a c b, s.mode = .serving ∨ s.mode = .draining → s.lamp.outstanding.length < 4 →
      s.lamp.queue = a ++ c :: b → (∀ q ∈ a, ∃ p ∈ s.lamp.outstanding, p.1.ext = q.ext) →
      (∀ p ∈ s.lamp.outstanding, p.1.ext ≠ c.ext) →
      s.lampDispatch = ({ s with
        lamp := { s.lamp with
          queue := a ++ b, outstanding := s.lamp.outstanding ++ [(c, some 2000)] }
        lineOut := s.lineOut ++ [.lamp c.ext c.on] } : State).lampDispatch

/-- A step of the refresh scan (R112 to R114): an unusable record and a mailbox that wants no command are
passed, a full queue holds the scan where it stands, and otherwise the mailbox's command, with an idle queue,
is sent, its scan flag cleared. Before the scan end the scan then advances. At the scan end the pass finishes:
in CONTINUOUS mode, or while the scan flag of a mailbox in the range is set, the next pass begins at the scan
start, and otherwise the scan stops. That the position then stays at the scan end is the model's choice
(log 20). -/
def Obligations.ScanStepExaminesOneMailbox : Prop :=
  ∀ (s : State) (k : Nat), s.mode = .serving ∨ s.mode = .draining → s.lamp.scanRunning = true →
    s.lamp.scanTimer.isSome = true → s.lamp.scanPos = k →
    (∀ (l : LampUnit) (out : List OutRecord),
      (((s.mbCfg k).usable = false ∨
          ((s.lampRec k).reported = (if (s.lampRec k).desired = true then .on else .off) ∧
            (s.lampRec k).flag = false ∧ s.cfg.refreshAll = false)) ∧
        l = s.lamp ∧ out = []) ∨
      ((s.mbCfg k).usable = true ∧
        ((s.lampRec k).reported ≠ (if (s.lampRec k).desired = true then .on else .off) ∨
          (s.lampRec k).flag = true ∨ s.cfg.refreshAll = true) ∧
        s.lamp.queue = [] ∧ s.lamp.outstanding = [] ∧
        l = { s.lamp with
          recs := s.lamp.recs.modify k fun x => { x with flag := false }
          outstanding := [(⟨(s.mbCfg k).extension, k, (s.lampRec k).desired, 1⟩, some 2000)] } ∧
        out = [.lamp (s.mbCfg k).extension (s.lampRec k).desired]) →
      (k < s.cfg.scanEnd →
        exec .scanStepTimerExpiry s = .next ({ s with
          lamp := { l with scanPos := k + 1, scanTimer := some 200 }
          lineOut := s.lineOut ++ out } : State).settle) ∧
      (s.cfg.scanEnd ≤ k →
        s.cfg.scanContinuous = true ∨ (∃ j r, s.cfg.scanStart ≤ j ∧ j ≤ s.cfg.scanEnd ∧
          l.recs[j]? = some r ∧ r.flag = true) →
        exec .scanStepTimerExpiry s = .next ({ s with
          lamp := { l with
            scanPos := s.cfg.scanStart, scanRunning := true, scanTimer := some 200 }
          lineOut := s.lineOut ++ out } : State).settle) ∧
      (s.cfg.scanEnd ≤ k → s.cfg.scanContinuous = false →
        (∀ j r, s.cfg.scanStart ≤ j → j ≤ s.cfg.scanEnd → l.recs[j]? = some r → r.flag = false) →
        exec .scanStepTimerExpiry s = .next ({ s with
          lamp := { l with scanRunning := false, scanTimer := none }
          lineOut := s.lineOut ++ out } : State).settle)) ∧
    ((s.mbCfg k).usable = true →
      (s.lampRec k).reported ≠ (if (s.lampRec k).desired = true then .on else .off) ∨
        (s.lampRec k).flag = true ∨ s.cfg.refreshAll = true →
      s.lamp.queue.length = 32 → (∀ q ∈ s.lamp.queue, q.ext ≠ (s.mbCfg k).extension) →
      exec .scanStepTimerExpiry s =
        .next ({ s with lamp := { s.lamp with scanTimer := some 200 } } : State).settle)

/-- LINE_RESET, with whatever partly captured segments of the channels it comes with (R115, R184, R186, log
5): every reported state becomes UNKNOWN, so the fault count 0, and the outstanding commands go; queued
commands stay with their places, and scan flags. In STARTING and STOPPED that is all. In SERVING and DRAINING
the scan begins afresh at the scan start and a dispatch follows, and then every busy channel, in ascending
number, acts as if a RELEASE for it had arrived with its segment; every channel is IDLE after it. That the
Lamp Unit's act and its dispatch come before the channels' releases, which R186 leaves open, is the model's
choice (log 12). In HALTED it is discarded. -/
def Obligations.LineResetClearsLampsAndChannels : Prop :=
  ∀ (s : State) (g : List (Nat × Segment)), (∀ p ∈ g, p.1 ≤ 15 ∧ wfSegment p.2 = true) →
    (s.mode = .starting ∨ s.mode = .stopped →
      exec (.lineReset g) s = .next ({ s with lamp := { s.lamp with
        recs := s.lamp.recs.map fun r => { r with reported := .unknown }
        outstanding := [] } } : State).settle) ∧
    (s.mode = .serving ∨ s.mode = .draining →
      (∃ u, u = ({ s with lamp := { s.lamp with
          recs := s.lamp.recs.map fun r => { r with reported := .unknown }
          outstanding := [], scanPos := s.cfg.scanStart, scanRunning := true
          scanTimer := some 200 } } : State).lampDispatch ∧
        u.lamp.recs = s.lamp.recs.map (fun r => { r with reported := .unknown }) ∧
        u.lamp.queue.Sublist s.lamp.queue ∧
        (u.lamp.queue ++ u.lamp.outstanding.map (·.1)).Perm s.lamp.queue ∧
        u.lamp.scanPos = s.cfg.scanStart ∧ u.lamp.scanRunning = true ∧
        u.lamp.scanTimer = some 200 ∧ u.chans = s.chans ∧
        exec (.lineReset g) s = .next ((List.range 16).foldl (fun t i =>
          t.releaseChannel i ((g.find? fun p => p.1 == i).map (·.2))) u).settle) ∧
      (∀ i x, i ≤ 15 → wfGathered x = true → (s.ch i).state ≠ .idle →
        exec (.release i x) s = .next (s.releaseChannel i x).settle) ∧
      ∃ t, exec (.lineReset g) s = .next t ∧
        (∀ r ∈ t.lamp.recs, r.reported = .unknown) ∧ t.lamp.faultCount = 0 ∧
        (s.chans.length = 16 → (∀ c ∈ t.chans, c.state = .idle) ∧
          ∀ i, (s.ch i).state ≠ .idle → t.ch i = Channel.idle)) ∧
    (s.mode = .halted → exec (.lineReset g) s = .next s)

/-- Latching a kind that is not in the set adds it and sends one ALARM record; a kind already there changes
nothing (R187). STATUS_QUERY is answered in every mode with one reply as the state stands, and the kind it
reports, the lowest-numbered in the set, leaves the set (R188). The store-low condition holds while F - E is
below the configured percentage of the pool, and an evaluation that finds it latches STORE_LOW (R22); that it
does not hold before the store has been set up is the model's choice (log 10). -/
def Obligations.AlarmsLatchAndAreReported : Prop :=
  (∀ s : State, ∃ (r : StatusReply) (t : State), exec .statusQuery s = .next t ∧
    t.lineOut = s.lineOut ++ [.statusReply r] ∧ r.mode = s.mode ∧ r.link = s.link.state ∧
    r.freeRoom = (if s.store.ready = true then s.store.free.length - s.store.earmark else 0) ∧
    r.active = (s.chans.filter fun c => c.state != .idle).length ∧
    r.present = (s.link.presence.filter fun p => p.present).length ∧
    r.discarded = s.discarded ∧ r.causes = s.house.lastCauses ∧
    (r.alarm = none ↔ s.alarms = []) ∧
    (∀ a, r.alarm = some a → a ∈ s.alarms ∧ ∀ b ∈ s.alarms, a.number ≤ b.number) ∧
    (∀ b, b ∈ t.alarms ↔ b ∈ s.alarms ∧ r.alarm ≠ some b) ∧
    t.discarded = s.discarded ∧ t.store = s.store ∧ t.mailboxes = s.mailboxes ∧ t.chans = s.chans) ∧
  (∀ (s : State) (a : Alarm),
    (a ∈ s.alarms → s.latch a = s) ∧
    (a ∉ s.alarms →
      ∃ l, s.latch a = { s with alarms := l, lineOut := s.lineOut ++ [.alarm a] } ∧
        ∀ b, b ∈ l ↔ b = a ∨ b ∈ s.alarms) ∧
    (s.storeLow = true ↔ s.store.ready = true ∧
      s.store.free.length < s.cfg.pool * s.cfg.lowPercent / 100 + s.store.earmark) ∧
    s.evalLow = (if s.storeLow = true then s.latch .storeLow else s))

/-- A record that fails the port's check is counted, to 65,535 at most, and changes nothing else (R185,
R191); one that passes acts as its command, which is the model's reading of this row (log 28). -/
def Obligations.PortCountsWhatItDiscards : Prop :=
  ∀ (s : State) (r : RawRecord),
    (decodeRecord r = none →
      exec (.recordDiscarded r) s =
        .next { s with discarded := if s.discarded < 65535 then s.discarded + 1 else s.discarded }) ∧
    ∀ c, decodeRecord r = some c → exec (.recordDiscarded r) s = exec c s

/-! ### The clock and the daily pass -/

/-- A TIME record sets the clock and starts the minute timer, outside SERVING and while no pass waits as all
it does; a minute above 1,439 and a node in HALTED discard it (R160, R170). At each expiry of the minute
timer the set clock advances by one minute and the timer is started again; at minute 1,439 of day 65,535 the
clock holds and the timer is not started again; an unset clock does not advance (R161). A TIME that sets today
to a day not above the last pass day ends a wait; after any other TIME, each advance of the clock and the entry
to SERVING the pass is checked (R162). It falls due in SERVING, with the schedule IDLE, the clock set, the last
pass day absent or below today and the pass hour reached; the first attempt is made at once: with no cause the
pass begins, with a cause it is postponed for 10 minutes, and with 6 postponements behind it it is forced and
HOUSEKEEPING_FORCED is latched (R163 to R165). Otherwise the check changes nothing. -/
def Obligations.ClockIsSetAndAdvances : Prop :=
  (∀ (s : State) (day minute : Nat), day ≤ 65535 → minute ≤ 65535 →
    (s.mode ≠ .halted → s.mode ≠ .serving → s.house.sched ≠ .waiting → minute ≤ 1439 →
      exec (.time day minute) s = .next ({ s with house := { s.house with
        clock := some (day, minute), minuteTimer := some 60000 } } : State).settle) ∧
    (s.mode ≠ .halted → minute ≤ 1439 →
      ∃ t, exec (.time day minute) s = .next t ∧ t.house.clock = some (day, minute) ∧
        t.house.minuteTimer = some 60000) ∧
    (1439 < minute ∨ s.mode = .halted → exec (.time day minute) s = .next s)) ∧
  (∀ (s : State),
    (∀ d m x, s.house.clock = some (d, m) → s.house.minuteTimer = some x → m ≤ 1439 → d ≤ 65535 →
      ∃ t, exec .minuteTimerExpiry s = .next t ∧
        (m < 1439 → t.house.clock = some (d, m + 1) ∧ t.house.minuteTimer = some 60000) ∧
        (m = 1439 → d < 65535 → t.house.clock = some (d + 1, 0) ∧
          t.house.minuteTimer = some 60000) ∧
        (m = 1439 → d = 65535 → t.house.clock = some (d, m) ∧ t.house.minuteTimer = none) ∧
        (m = 1439 → d = 65535 → t.store = s.store ∧ t.mailboxes = s.mailboxes)) ∧
    (s.house.clock = none → exec .minuteTimerExpiry s = .next s)) ∧
  (∀ (s u : State) (day minute : Nat), u = ({ s with house := { s.house with
      clock := some (day, minute), minuteTimer := some 60000 } } : State) →
    (day ≤ 65535 → minute ≤ 1439 → s.mode ≠ .halted →
      (∀ l, s.house.sched = .waiting → s.house.lastPassDay = some l → day ≤ l →
        exec (.time day minute) s = .next ({ u with house := { u.house with
          sched := .idle, postponements := 0, postponeTimer := none } } : State).settle) ∧
      (s.house.sched ≠ .waiting ∨ s.house.lastPassDay = none ∨
          (∃ l, s.house.lastPassDay = some l ∧ l < day) →
        exec (.time day minute) s = .next u.checkPass.settle)) ∧
    (∀ d m, s.house.clock = some (d, m) → s.house.minuteTimer.isSome = true →
      (m < 1439 ∧ day = d ∧ minute = m + 1) ∨ (m = 1439 ∧ d < 65535 ∧ day = d + 1 ∧ minute = 0) →
      exec .minuteTimerExpiry s = .next u.checkPass.settle)) ∧
  (∀ (s : State) (g : Nat), s.startStep = .headerWrite false g →
    exec .headerWriteDone s = .next ((({ s with
      index := { s.index with header := some ⟨g, s.cfg.digest⟩ }, generation := some g
      startStep := .none, mode := .serving, lineOut := s.lineOut ++ [.ready]
      lamp := { s.lamp with
        scanPos := s.cfg.scanStart, scanRunning := true, scanTimer := some 200 }
      } : State).lampDispatch.dispatch).checkPass).settle) ∧
  ∀ (s : State) (day minute : Nat) (c : Causes),
    c.channels = decide (s.cfg.chanThreshold < s.busyCount) →
    c.inbound = (s.deliv.inSlots.any fun x => x.state != .free) →
    c.index = decide (256 < s.dirtyCount) →
    (s.mode = .serving → s.house.sched = .idle → s.house.clock = some (day, minute) →
      s.house.lastPassDay = none ∨ (∃ l, s.house.lastPassDay = some l ∧ l < day) →
      s.cfg.passHour * 60 ≤ minute →
      (c = ⟨false, false, false⟩ →
        s.checkPass = { s with house := { s.house with
          passDay := day, passTime := day * 1440 + minute, lastPassDay := some day
          postponements := 0, postponeTimer := none, passPos := 0, sched := .running } }) ∧
      (c ≠ ⟨false, false, false⟩ → s.house.postponements < 6 →
        s.checkPass = { s with house := { s.house with
          postponements := s.house.postponements + 1, lastCauses := c
          postponeTimer := some 600000, sched := .waiting } }) ∧
      (c ≠ ⟨false, false, false⟩ → 6 ≤ s.house.postponements →
        s.checkPass = ({ s with house := { s.house with
          passDay := day, passTime := day * 1440 + minute, lastPassDay := some day
          postponements := 0, postponeTimer := none, passPos := 0, sched := .running
          lastCauses := c } } : State).latch .housekeepingForced)) ∧
    (s.mode ≠ .serving ∨ s.house.sched ≠ .idle ∨ s.house.clock = none ∨
        (s.house.clock = some (day, minute) ∧
          (minute < s.cfg.passHour * 60 ∨ ∃ l, s.house.lastPassDay = some l ∧ day ≤ l)) →
      s.checkPass = s)

/-- An attempt at the pass when the postponement timer expires (R163, R164, R165): with no cause the pass
begins, with a cause it is postponed for 10 minutes, and at the seventh attempt it is forced and
HOUSEKEEPING_FORCED is latched. -/
def Obligations.PostponedPassIsTriedAgain : Prop :=
  ∀ (s : State) (day minute : Nat) (c : Causes), s.house.sched = .waiting →
    s.house.postponeTimer.isSome = true → s.house.clock = some (day, minute) →
    c.channels = decide (s.cfg.chanThreshold < s.busyCount) →
    c.inbound = (s.deliv.inSlots.any fun x => x.state != .free) →
    c.index = decide (256 < s.dirtyCount) →
    (c = ⟨false, false, false⟩ →
      exec .postponementTimerExpiry s = .next ({ s with house := { s.house with
        passDay := day, passTime := day * 1440 + minute, lastPassDay := some day
        postponements := 0, postponeTimer := none, passPos := 0, sched := .running
        } } : State).settle) ∧
    (c ≠ ⟨false, false, false⟩ → s.house.postponements < 6 →
      exec .postponementTimerExpiry s = .next ({ s with house := { s.house with
        postponements := s.house.postponements + 1, lastCauses := c
        postponeTimer := some 600000, sched := .waiting } } : State).settle) ∧
    (c ≠ ⟨false, false, false⟩ → s.house.postponements = 6 →
      ∃ t, exec .postponementTimerExpiry s = .next t ∧ t.house = { s.house with
        passDay := day, passTime := day * 1440 + minute, lastPassDay := some day
        postponements := 0, postponeTimer := none, passPos := 0, sched := .running
        lastCauses := c } ∧ .housekeepingForced ∈ t.alarms ∧ t.mailboxes = s.mailboxes)

/-- A visit of the pass (R64, R166 to R169): a locked mailbox is skipped and nothing in it changes; in any other
the entries are stamped and then those whose time has run out are removed, the rest keeping their places;
then the ABSENCE slot is emptied when its end day is before the pass day, and otherwise every slot and the end
day stay; every other mailbox is left alone, and the position moves on or the pass ends. What a visit stamps and
removes (R167, R168): absent stamps become the pass's, a NEW voice message stays however old, a HEARD one
goes at the heard retention and a SAVED one at the saved retention, a broadcast copy at its expiry day and a
NOTICE after 7 days. -/
def Obligations.PassVisitsAndExpires : Prop :=
  (∀ (s : State) (k : Nat), s.house.sched = .running → s.house.passPos = k →
    k < s.mailboxes.length → ((s.mb k).entries.map (·.number)).Nodup →
    ∃ t, exec .passVisit s = .next t ∧
      ((s.mb k).lock.isSome = true → t.mailboxes = s.mailboxes) ∧
      ((s.mb k).lock = none → (t.mb k).entries =
        ((s.mb k).entries.map fun e =>
          e.stamped s.house.passDay s.house.passTime (s.cls k).broadcastLife).filter fun e =>
            !e.expired s.house.passDay (s.cls k)) ∧
      ((s.mb k).lock = none → (t.mb k).standard = (s.mb k).standard ∧
        (t.mb k).busy = (s.mb k).busy ∧ (t.mb k).name = (s.mb k).name ∧
        (∀ o d, (s.mb k).absence = some o → (s.mb k).endDay = some d → d < s.house.passDay →
          (t.mb k).absence = none ∧ (t.mb k).endDay = none ∧
            ((s.mb k).entries = [] → t.store = (s.dropRef o).store)) ∧
        ((s.mb k).absence = none ∨ (s.mb k).endDay = none ∨
            (∃ d, (s.mb k).endDay = some d ∧ s.house.passDay ≤ d) →
          (t.mb k).absence = (s.mb k).absence ∧ (t.mb k).endDay = (s.mb k).endDay ∧
            ((s.mb k).entries = [] → t.store = s.store))) ∧
      (∀ j, j ≠ k → t.mb j = s.mb j) ∧
      (k + 1 < s.cfg.mailboxes.length → t.house.passPos = k + 1 ∧ t.house.sched = .running) ∧
      (s.cfg.mailboxes.length ≤ k + 1 → t.house.sched = .idle) ∧ t.chans = s.chans) ∧
  (∀ (e : Entry) (day time : Nat) (c : ClassRec),
    (e.stamped day time c.broadcastLife).arrival = some (e.arrival.getD time) ∧
    (e.stamped day time c.broadcastLife).changeDay = some (e.changeDay.getD day) ∧
    (e.kind = .shared → e.expiry = none → (e.stamped day time c.broadcastLife).expiry =
      some (e.arrival.getD time / 1440 + c.broadcastLife)) ∧
    (e.kind = .voice → e.state = .new → e.expired day c = false) ∧
    (∀ d, e.kind ≠ .notice → e.state = .heard → e.changeDay = some d → d + c.heardDays ≤ day →
      e.expired day c = true) ∧
    (∀ d, e.kind = .voice → e.state = .heard → e.changeDay = some d → day < d + c.heardDays →
      e.expired day c = false) ∧
    (∀ d, e.kind ≠ .notice → e.state = .saved → e.changeDay = some d → d + c.savedDays ≤ day →
      e.expired day c = true) ∧
    (∀ d, e.kind = .voice → e.state = .saved → e.changeDay = some d → day < d + c.savedDays →
      e.expired day c = false) ∧
    (∀ d, e.kind = .shared → e.expiry = some d → d ≤ day → e.expired day c = true) ∧
    (∀ m, e.kind = .notice → e.arrival = some m →
      (e.expired day c = true ↔ m / 1440 + 7 ≤ day)))

/-! ### The campus relay link -/

/-- The Controller's timers: a HAIL is handed when one is due, the generation is settled and none waits
(R129); the link is alone at each expiry of the alone timer (R132); JOINING ends in ACTIVE with the HAIL timer
started (for 10 s before the configuration is handed out, which is the model's choice, log 56) and, with no
node present, the alone timer (R133); and a node not heard for 30 s is absent, its generation kept and its
routes purged (R131, R140). A medium dominant for more than 10 ms faults the link from JOINING or ACTIVE and
latches LINK_FAULT, its timers stopped and the presence table and buffer kept; one recessive for 1 s brings it
to JOINING (R133, R134). The send list is emptied, and each frame in it ends LOST (R124), in the order in
which they joined it, which is the model's choice (log 43). A LOST HAIL and a LOST frame of an inbound slot
change nothing (R124, R153). A LOST answer empties the answer queue, of which each next answer is LOST at once
(R120, R142). Of a LOST frame of an outbound slot the transfer ends for a retry, or, when a frame was called
for meanwhile, ends so when that frame is handed; a slot that has finished becomes free; and a dispatch
follows (R120, R144). -/
def Obligations.LinkTimersAndMediumFaults : Prop :=
  (∀ s : State,
    (∀ g, s.link.hailTimer.isSome = true → s.generation = some g → s.link.state = .active →
      s.mode = .serving → (∀ x ∈ s.link.sendList, x.req ≠ .hail) →
      exec .hailTimerExpiry s = .next ({ s with link := { s.link with
        hailTimer := some 8000
        sendList := s.link.sendList ++
          [⟨.hail, ⟨s.cfg.node, 31, 0, .hail g⟩, 6, s.link.moment, 0, 0, none⟩] } } : State).settle) ∧
    (s.link.aloneTimer.isSome = true →
      exec .aloneTimerExpiry s = .next (({ s with link := { s.link with
        alone := true, aloneTimer := some 30000 } } : State).latch .linkAlone).settle) ∧
    (s.link.state = .joining → s.link.joinTimer.isSome = true →
      exec .joinTimerExpiry s = .next ({ s with link := { s.link with
        state := .active, joinTimer := none, hailTimer := some (10000 + s.cfg.node * 250)
        aloneTimer := if s.presentCount = 0 then some 30000 else none } } : State).settle) ∧
    (∀ n g, 1 ≤ n → n ≤ 30 → s.presence n = ⟨true, g, some 30000⟩ → s.mode = .serving →
      ∃ t, exec (.presenceTimeout n) s = .next t ∧ t.presence n = ⟨false, g, none⟩ ∧
        (∀ m, m ≠ n → t.presence m = s.presence m) ∧
        t.deliv.routes = s.deliv.routes.filter (fun r => r.2 != n) ∧
        (∀ p e, t.qEntry? p = some e → e.carried = false → e.location ≠ some n) ∧
        t.link.sendList = s.link.sendList ∧ t.chans = s.chans ∧ t.store = s.store)) ∧
  (∀ s : State, s.mode ≠ .stopped → s.mode ≠ .halted →
    (s.link.state = .joining ∨ s.link.state = .active →
      exec .mediumDominantFault s = .next (s.link.sendList.foldl (fun t x => t.txBack x.req .lost)
        ((s.latch .linkFault).onLink fun l => { l with
          state := .faulted, joinTimer := none, hailTimer := none, aloneTimer := none, alone := false
          sendList := [], transmitting := none })).settle) ∧
    (s.link.state = .faulted →
      exec .mediumRecessiveRecovery s = .next ({ s with link := { s.link with
        state := .joining, joinTimer := some 10000, muteCount := 0 } } : State).settle)) ∧
  ∀ s : State, s.link.state = .muted ∨ s.link.state = .faulted → s.link.sendList = [] →
    s.txBack .hail .lost = s ∧ (∀ j, s.txBack (.inSlot j) .lost = s) ∧
    (s.deliv.answers.length ≤ 8 →
      s.txBack .answers .lost = { s with deliv := { s.deliv with answers := [] } }) ∧
    ∀ i,
      (∀ f, (s.outSlot i).wants = some f → s.txBack (.outSlot i) .lost =
        ((s.onOut i fun o => { o with wants := none }).endTransfer i .retry).dispatch) ∧
      ((s.outSlot i).wants = none →
        ((s.outSlot i).state = .free → s.txBack (.outSlot i) .lost = s.dispatch) ∧
        ((s.outSlot i).state = .finishing →
          s.txBack (.outSlot i) .lost = (s.onOut i fun _ => OutSlot.blank).dispatch) ∧
        ((s.outSlot i).state ≠ .free → (s.outSlot i).state ≠ .finishing →
          s.txBack (.outSlot i) .lost = (s.endTransfer i .retry).dispatch))

/-- The frame begun is eligible, and no eligible frame of the list comes before it: the lower priority value
comes first, then the one handed earlier, then outbound slots 0 and 1, inbound slots 0 to 3, the answer queue
and the HAIL in that order (R120). The entry dispatched is eligible, and no eligible entry of the queue comes
before it: urgent ones come first, and within each class the lower enqueue sequence (R137, R139). A dispatch (R139, R144): only in SERVING, only with a free slot and an
eligible entry; a LIST entry whose node is absent fails at once, and any other is taken into the slot under a
new tag of 1-255, the next that is not that of the other slot in use. The entry keeps its position, carried
(R139). A LIST entry and a DIRECT one located at a present node are offered there; any other (one located at
an absent node, which R131 rules out, among them) looks up its extension in the route cache (R140, R141): on a
hit the route becomes the most recently used, the entry is located at its node and offered there, and on a
miss the slot locates under the next seek number, with a SEEK to all nodes. An OFFER carries the entry's kind,
target, urgency and originating extension and its object's segment count (R145). That slot 0 is taken where
both are free is the model's choice (log 45). -/
def Obligations.FirstInOrderIsTaken : Prop :=
  ((∀ (l : List SendItem) (x : SendItem), nextFrame l = some x →
    x ∈ l ∧ x.wait = none ∧ ∀ y ∈ l, y.wait = none → y.before x = false) ∧
  (∀ l : List SendItem, nextFrame l = none → ∀ x ∈ l, x.wait.isSome = true) ∧
  (∀ (l : List (Option QEntry)) (p : Nat) (e : QEntry), firstEligible 0 l = some (p, e) →
    l[p]? = some (some e) ∧ e.carried = false ∧ e.notBefore = none ∧
      ∀ x, some x ∈ l → x.carried = false → x.notBefore = none → x.before e = false) ∧
  ∀ l : List (Option QEntry), firstEligible 0 l = none →
    ∀ x, some x ∈ l → x.carried = true ∨ x.notBefore.isSome = true) ∧
  (∀ rank : Requester → Nat, (∀ i, rank (.outSlot i) = i) → (∀ j, rank (.inSlot j) = 2 + j) →
    rank .answers = 6 → rank .hail = 7 →
    ∀ x y : SendItem, x.before y = true ↔ x.priority < y.priority ∨ (x.priority = y.priority ∧
      (x.handed < y.handed ∨ (x.handed = y.handed ∧ rank x.req < rank y.req)))) ∧
  (∀ x y : QEntry, x.before y = true ↔
    (x.urgent = true ∧ y.urgent = false) ∨ (x.urgent = y.urgent ∧ x.seq < y.seq)) ∧
  (∀ s : State,
    (s.mode ≠ .serving → s.dispatch = s) ∧
    (s.mode = .serving → s.freeOut = none ∨ firstEligible 0 s.deliv.queue = none →
      s.dispatch = s) ∧
    (∀ i pos e, s.mode = .serving → s.freeOut = some i →
      firstEligible 0 s.deliv.queue = some (pos, e) →
      (e.list = true → s.isPresent (e.node.getD 0) = false →
        s.dispatch = State.dispatchLoop 63 (s.failEntry pos e .unreachable)) ∧
      (e.list = false ∨ s.isPresent (e.node.getD 0) = true →
        s.dispatch = State.dispatchLoop 63 (s.takeEntry i pos e) ∧
        1 ≤ s.newTag i ∧ s.newTag i ≤ 255 ∧
        ((s.outSlot (1 - i)).state ≠ .free → s.newTag i ≠ (s.outSlot (1 - i)).tag)))) ∧
  (∀ (s : State) (i next : Nat), next = (if 255 ≤ s.deliv.tagCounter then 1 else s.deliv.tagCounter + 1) →
    (s.freeOut = some i ↔ (∃ o, s.deliv.outSlots[i]? = some o ∧ o.state = .free) ∧
      ∀ j, j < i → ∃ o, s.deliv.outSlots[j]? = some o ∧ o.state ≠ .free) ∧
    ((s.outSlot (1 - i)).state = .free ∨ (s.outSlot (1 - i)).tag ≠ next → s.newTag i = next) ∧
    ((s.outSlot (1 - i)).state ≠ .free → (s.outSlot (1 - i)).tag = next →
      s.newTag i = if 255 ≤ next then 1 else next + 1)) ∧
  (∀ (s : State) (i n : Nat) (e : QEntry) (x : Obj), i < s.deliv.outSlots.length →
    s.qEntry? (s.outSlot i).pos = some e → s.obj? e.object = some x →
    s.beginOffer i n = (s.onOut i fun o => { o with
        state := .offering, dest := some n, offerCount := 1, timer := none, wants := none }).callFrame i
      ⟨s.cfg.node, n, (s.outSlot i).tag, .offer
        { list := e.list, urgent := e.urgent, target := e.target, segments := x.segments
          origin := e.mailbox.map fun k => (s.mbCfg k).extension, identity := none }⟩) ∧
  ∀ (s u : State) (i pos q : Nat) (e : QEntry), i < s.deliv.outSlots.length →
    s.qEntry? pos = some e →
    u = { s with deliv := { s.deliv with
      queue := s.deliv.queue.set pos (some { e with carried := true })
      tagCounter := s.newTag i
      outSlots := s.deliv.outSlots.set i { OutSlot.blank with
        state := .locating, pos := pos, tag := s.newTag i } } } →
    q = (if 65535 ≤ s.deliv.seekCounter then 1 else s.deliv.seekCounter + 1) →
    (∀ n, e.list = true → e.node = some n → s.takeEntry i pos e = u.beginOffer i n) ∧
    (∀ n, e.list = false → e.location = some n → s.isPresent n = true →
      s.takeEntry i pos e = u.beginOffer i n) ∧
    (e.list = false → e.location = none ∨ (∃ n, e.location = some n ∧ s.isPresent n = false) →
      (∀ a n b, s.deliv.routes = a ++ (e.target, n) :: b → (∀ y ∈ a ++ b, y.1 ≠ e.target) →
        s.takeEntry i pos e = ({ u with deliv := { u.deliv with
          queue := s.deliv.queue.set pos (some { e with carried := true, location := some n })
          routes := ((e.target, n) :: (a ++ b)).take 256 } } : State).beginOffer i n) ∧
      ((∀ y ∈ s.deliv.routes, y.1 ≠ e.target) →
        s.takeEntry i pos e = ({ u with deliv := { u.deliv with
          seekCounter := q
          outSlots := s.deliv.outSlots.set i { OutSlot.blank with
            state := .locating, pos := pos, tag := s.newTag i, seek := some ⟨q, e.target, none⟩
            seekCount := 1 } } } : State).callFrame i
          ⟨s.cfg.node, 31, s.newTag i, .seek q e.target⟩))

/-- Sending (R120 to R123): at an idle the first frame in order is begun; a lost arbitration leaves the list
as it is; a first or second bit error raises the mute count, and the third mutes the link, with DUPLICATE_NODE
latched, its timers stopped and every frame of the send list LOST (R124, R135; their order: log 43, what LOST
does: LinkTimersAndMediumFaults); after a good transmission BUSY puts the frame off by 5 ms and silence leaves
it eligible, each counted, and the wait ends. An ACCEPT, REFUSE or BUSY refreshes the destination before the
outcome is handed back (log 44): an absent one becomes present, its routes are purged and the alone condition
ends (R128, R132, R140). Outcomes of the Controller's HAIL and of answers of an inbound slot, which no
requester acts on (R123, R124, R129, R153): a HAIL sent to its end leaves the list; an answer read as ACCEPT,
REFUSE or a 33rd BUSY leaves it; and at the fourth silence the destination is absent. A frame that an outbound
slot calls for waits for the outcome of the slot's previous frame, joins the send list under the priority of
its kind (R121), or, with the link MUTED or FAULTED or the node STOPPED or HALTED, ends the transfer as LOST.
Outcomes of its frames (R141, R144, R145, R147, R148): a frame called for meanwhile is handed; a slot that has
finished becomes free; SENT starts the claim, answer or receipt timer, or leads to the next CARRY, in order,
and after the last to the CLOSE; and REFUSED, the fourth silence and the 33rd BUSY end the transfer for a
retry. A dispatch follows each. That a slot with its outcome and a frame still in the send list waits,
finishing, is the model's (log 33). -/
def Obligations.FramesAreSentToTheirOutcome : Prop :=
  (∀ (s : State) (x : SendItem),
    (s.link.state = .active → s.mode = .serving → s.link.transmitting = none →
      nextFrame s.link.sendList = some x →
      exec .mediumIdle s = .next ({ s with
        link := { s.link with transmitting := some x.req }
        linkOut := s.linkOut ++ [.frame x.frame x.priority] } : State).settle) ∧
    (s.link.transmitting.isSome = true →
      exec .arbitrationLost s =
        .next ({ s with link := { s.link with transmitting := none } } : State).settle) ∧
    (s.link.transmitting.isSome = true → s.link.muteCount < 2 →
      exec .bitError s = .next ({ s with link := { s.link with
        transmitting := none, muteCount := s.link.muteCount + 1 } } : State).settle) ∧
    (s.link.transmitting.isSome = true → 2 ≤ s.link.muteCount →
      exec .bitError s = .next (s.link.sendList.foldl (fun t y => t.txBack y.req .lost)
        ((s.latch .duplicateNode).onLink fun l => { l with
          state := .muted, joinTimer := none, hailTimer := none, aloneTimer := none, alone := false
          muteCount := l.muteCount + 1, sendList := [], transmitting := none })).settle) ∧
    (s.link.transmitting = some x.req → s.link.itemOf x.req = some x → x.frame.dest ≠ 31 →
      (x.silence < 3 →
        exec (.transmissionEnd .silence) s = .next ({ s with link := { s.link with
          transmitting := none, muteCount := 0
          sendList := s.link.sendList.map fun y =>
            if y.req = x.req then { y with silence := y.silence + 1 } else y } } : State).settle) ∧
      (∀ v : State, x.busy < 32 → ({ s with link := { s.link with
          transmitting := none, muteCount := 0
          sendList := s.link.sendList.map fun y =>
            if y.req = x.req then { y with busy := y.busy + 1, wait := some 5 } else y
          } } : State).RefreshedTo x.frame.dest v →
        exec (.transmissionEnd .busy) s = .next v.settle)) ∧
    (s.link.itemOf x.req = some x → x.wait.isSome = true →
      exec (.busyWaitExpiry x.req) s = .next ({ s with link := { s.link with
        sendList := s.link.sendList.map fun y =>
          if y.req = x.req then { y with wait := none } else y } } : State).settle)) ∧
  (∀ (s : State) (x : SendItem), s.link.transmitting = some x.req → s.link.itemOf x.req = some x →
    (∀ r, x.req = .hail → x.frame.dest = 31 →
      exec (.transmissionEnd r) s = .next ({ s with link := { s.link with
        transmitting := none, muteCount := 0
        sendList := s.link.sendList.filter fun y => y.req != .hail } } : State).settle) ∧
    (∀ j r v, x.req = .inSlot j → x.frame.dest ≠ 31 →
      r = .accept ∨ r = .refuse ∨ (r = .busy ∧ 32 ≤ x.busy) →
      ({ s with link := { s.link with
        transmitting := none, muteCount := 0
        sendList := s.link.sendList.filter fun y => y.req != .inSlot j } } : State).RefreshedTo
          x.frame.dest v →
      exec (.transmissionEnd r) s = .next v.settle) ∧
    (∀ j, x.req = .inSlot j → 1 ≤ x.frame.dest → x.frame.dest ≤ 30 → x.silence = 3 →
      s.mode = .serving →
      ∃ t, exec (.transmissionEnd .silence) s = .next t ∧
        t.isPresent x.frame.dest = false ∧ t.link.muteCount = 0 ∧
        t.link.sendList = s.link.sendList.filter (fun y => y.req != .inSlot j) ∧
        t.deliv.inSlots = s.deliv.inSlots ∧ t.chans = s.chans ∧ t.store = s.store)) ∧
  (∀ (s : State) (i : Nat) (f : Frame) (urgent : Bool),
    urgent = (match s.qEntry? (s.outSlot i).pos with
      | none => false
      | some e => e.urgent) →
    ((∃ y ∈ s.link.sendList, y.req = .outSlot i) →
      s.callFrame i f = s.onOut i fun o => { o with wants := some f }) ∧
    ((∀ y ∈ s.link.sendList, y.req ≠ .outSlot i) →
      (s.link.state = .muted ∨ s.link.state = .faulted ∨ s.mode = .stopped ∨ s.mode = .halted →
        s.callFrame i f = s.endTransfer i .retry) ∧
      (s.link.state = .joining ∨ s.link.state = .active → s.mode ≠ .stopped → s.mode ≠ .halted →
        ∃ prio, s.callFrame i f = { s with link := { s.link with
            sendList := s.link.sendList ++ [⟨.outSlot i, f, prio, s.link.moment, 0, 0, none⟩] } } ∧
          (∀ num ext, f.body = .seek num ext → prio = 3) ∧ (∀ o, f.body = .offer o → prio = 4) ∧
          (∀ idx seg, f.body = .carry idx seg → prio = if urgent = true then 4 else 5) ∧
          ∀ count, f.body = .close count → prio = 3))) ∧
  (∀ (s : State) (i n : Nat) (e : QEntry) (x : Obj), s.qEntry? (s.outSlot i).pos = some e →
    s.obj? e.object = some x → (s.outSlot i).dest = some n →
    (∀ b, (s.outSlot i).nextIndex < x.segments → x.chain[(s.outSlot i).nextIndex / 8]? = some b →
      s.carryOn i = s.callFrame i ⟨s.cfg.node, n, (s.outSlot i).tag, .carry (s.outSlot i).nextIndex
        (audioRead s.audio (8 * b + (s.outSlot i).nextIndex % 8))⟩) ∧
    (x.segments ≤ (s.outSlot i).nextIndex →
      s.carryOn i = (s.onOut i fun o => { o with
        state := .closing, closeCount := 1, timer := none }).callFrame i
          ⟨s.cfg.node, n, (s.outSlot i).tag, .close x.segments⟩)) ∧
  ∀ (s u v : State) (x : SendItem) (i : Nat) (r : SlotReading), s.link.transmitting = some x.req →
    s.link.itemOf x.req = some x → x.req = .outSlot i →
    u = ({ s with link := { s.link with
      transmitting := none, muteCount := 0
      sendList := s.link.sendList.filter fun y => y.req != .outSlot i } } : State) →
    (x.frame.dest = 31 ∧ v = u) ∨ (x.frame.dest ≠ 31 ∧ u.RefreshedTo x.frame.dest v) →
    (x.frame.dest = 31 ∨ r = .accept →
      (∀ f, (s.outSlot i).wants = some f → exec (.transmissionEnd r) s =
        .next (((v.onOut i fun o => { o with wants := none }).callFrame i f).dispatch).settle) ∧
      ((s.outSlot i).wants = none →
        ((s.outSlot i).state = .finishing → exec (.transmissionEnd r) s =
          .next ((v.onOut i fun _ => OutSlot.blank).dispatch).settle) ∧
        ((s.outSlot i).state = .locating → exec (.transmissionEnd r) s =
          .next ((v.onOut i fun o => { o with timer := some 400 }).dispatch).settle) ∧
        ((s.outSlot i).state = .offering ∨ (s.outSlot i).state = .closing →
          exec (.transmissionEnd r) s =
            .next ((v.onOut i fun o => { o with timer := some 1000 }).dispatch).settle) ∧
        ((s.outSlot i).state = .carrying → exec (.transmissionEnd r) s =
          .next (((v.onOut i fun o => { o with nextIndex := o.nextIndex + 1 }).carryOn
            i).dispatch).settle))) ∧
    (x.frame.dest ≠ 31 → (s.outSlot i).wants = none →
      (s.outSlot i).state ≠ .free → (s.outSlot i).state ≠ .finishing →
      (r = .refuse ∨ (r = .busy ∧ x.busy = 32) →
        exec (.transmissionEnd r) s = .next ((v.endTransfer i .retry).dispatch).settle) ∧
      (r = .silence → x.silence = 3 →
        exec (.transmissionEnd r) s =
          .next (((u.markAbsent x.frame.dest).endTransfer i .retry).dispatch).settle))

/-- An intact frame that the node hears (R119, R125 to R128, R135, R140): its source is refreshed, for 30 s;
one that was absent becomes present, every route to it is purged and the alone timer and condition end (R132).
A HAIL then joins a buffer with room, and in ACTIVE a SEEK to all nodes; a frame to another node is not taken.
A frame to this node in ACTIVE meets BUSY when the buffer holds 8, and otherwise the verdict (R126): it joins the
buffer with ACCEPT, or is not taken, with REFUSE. An OFFER is accepted (R149); a CLAIM whose number and extension
are a slot's seek record's (R143); a TAKE, BALK or RECEIPT under the tag and from the destination of an outbound
slot in use (R146); a CLOSE and a CARRY by the inbound slot in use with their key: a CLOSE in either state, a
CARRY in FILLING at the accept index below the offered count, which rises by 1, or below that index, and in
COMMITTED below the received count; an ACCEPT of a FILLING slot restarts its 3 s idle timer (R152, R153). In
JOINING and MUTED a frame to this node is neither answered nor taken. One whose body is malformed is answered
REFUSE in ACTIVE, or BUSY when the buffer holds 8, and is not taken; one to other nodes is dropped (R190). A frame
with this node's own number mutes the link, with every frame of the send list LOST (R124; their order: log 43,
what LOST does: LinkTimersAndMediumFaults); and a frame that is not intact changes nothing. -/
def Obligations.HeardFramesAreTaken : Prop :=
  (∀ (s : State) (f : RawFrame), f.intact = false → exec (.frameReceived f) s = .next s) ∧
  (∀ (s v : State) (f : RawFrame), f.intact = true → s.mode ≠ .stopped → s.mode ≠ .halted →
    s.link.state ≠ .faulted → f.source.toNat ≠ s.cfg.node → s.RefreshedTo f.source.toNat v →
    (∀ g, decodeFrame f = some ⟨f.source.toNat, 31, f.tag.toNat, .hail g⟩ →
      (s.link.buffer.length < 8 →
        exec (.frameReceived f) s = .next ({ v with link := { v.link with
          buffer := s.link.buffer ++ [⟨f.source.toNat, 31, f.tag.toNat, .hail g⟩] } } : State).settle) ∧
      (8 ≤ s.link.buffer.length → exec (.frameReceived f) s = .next v.settle)) ∧
    (∀ dst b, decodeFrame f = some ⟨f.source.toNat, dst, f.tag.toNat, b⟩ → dst ≠ 31 →
      f.dest.toNat ≠ s.cfg.node → exec (.frameReceived f) s = .next v.settle) ∧
    (∀ num ext, decodeFrame f = some ⟨f.source.toNat, 31, f.tag.toNat, .seek num ext⟩ →
      (s.link.state = .active → s.link.buffer.length < 8 →
        exec (.frameReceived f) s = .next ({ v with link := { v.link with
          buffer := s.link.buffer ++ [⟨f.source.toNat, 31, f.tag.toNat, .seek num ext⟩] } } : State).settle) ∧
      (s.link.state ≠ .active ∨ 8 ≤ s.link.buffer.length → exec (.frameReceived f) s = .next v.settle)) ∧
    (decodeFrame f = none →
      (f.dest.toNat = s.cfg.node → s.link.state = .active →
        exec (.frameReceived f) s = .next ({ v with linkOut := s.linkOut ++ [.answer f.source.toNat
          (if 8 ≤ s.link.buffer.length then .busy else .refuse)] } : State).settle) ∧
      (f.dest.toNat ≠ s.cfg.node ∨ s.link.state ≠ .active →
        exec (.frameReceived f) s = .next v.settle)) ∧
    (∀ b, decodeFrame f = some ⟨f.source.toNat, s.cfg.node, f.tag.toNat, b⟩ →
      f.dest.toNat = s.cfg.node → s.cfg.node ≠ 31 →
      (s.link.state ≠ .active → exec (.frameReceived f) s = .next v.settle) ∧
      (s.link.state = .active → 8 ≤ s.link.buffer.length →
        exec (.frameReceived f) s = .next ({ v with
          linkOut := s.linkOut ++ [.answer f.source.toNat .busy] } : State).settle) ∧
      ∀ w : Option State, s.link.state = .active → s.link.buffer.length < 8 →
        ((∃ o, b = .offer o ∧ w = some v) ∨
          (∃ num ext, b = .claim num ext ∧
            (((∃ o ∈ s.deliv.outSlots, ∃ c, o.seek = some ⟨num, ext, c⟩) ∧ w = some v) ∨
              ((∀ o ∈ s.deliv.outSlots, ∀ c, o.seek ≠ some ⟨num, ext, c⟩) ∧ w = none))) ∨
          ((b = .take ∨ (∃ r, b = .balk r) ∨ ∃ r, b = .receipt r) ∧
            (((∃ o ∈ s.deliv.outSlots, o.state ≠ .free ∧ o.tag = f.tag.toNat ∧
                o.dest = some f.source.toNat) ∧ w = some v) ∨
              ((∀ o ∈ s.deliv.outSlots, o.state = .free ∨ o.tag ≠ f.tag.toNat ∨
                o.dest ≠ some f.source.toNat) ∧ w = none))) ∨
          (((∃ n, b = .close n) ∨ ∃ idx seg, b = .carry idx seg) ∧
            s.inByKey f.source.toNat f.tag.toNat = none ∧ w = none) ∨
          ∃ j x, s.inByKey f.source.toNat f.tag.toNat = some j ∧ x = s.inSlot j ∧
            ((∃ n, b = .close n ∧ w = some (if x.state = .filling then
                v.onIn j fun y => { y with idleTimer := some 3000 } else v)) ∨
              ∃ idx seg, b = .carry idx seg ∧
                ((x.state = .filling ∧ idx = x.accept ∧ idx < x.offered ∧
                    w = some (v.onIn j fun y => { y with
                      accept := y.accept + 1, idleTimer := some 3000 })) ∨
                  (x.state = .filling ∧ idx < x.accept ∧
                    w = some (v.onIn j fun y => { y with idleTimer := some 3000 })) ∨
                  (x.state = .filling ∧ (x.accept < idx ∨ (idx = x.accept ∧ x.offered ≤ idx)) ∧
                    w = none) ∨
                  (x.state = .committed ∧ idx < x.received ∧ w = some v) ∨
                  (x.state = .committed ∧ x.received ≤ idx ∧ w = none)))) →
        (∀ t, w = some t → exec (.frameReceived f) s = .next ({ t with
          link := { t.link with
            buffer := s.link.buffer ++ [⟨f.source.toNat, s.cfg.node, f.tag.toNat, b⟩] }
          linkOut := s.linkOut ++ [.answer f.source.toNat .accept] } : State).settle) ∧
        (w = none → exec (.frameReceived f) s = .next ({ v with
          linkOut := s.linkOut ++ [.answer f.source.toNat .refuse] } : State).settle))) ∧
  (∀ (s : State) (src tag : Nat),
    (∀ j, s.inByKey src tag = some j → ∃ x, s.deliv.inSlots[j]? = some x ∧ x.state ≠ .free ∧
      x.source = src ∧ x.tag = tag) ∧
    (s.inByKey src tag = none →
      ∀ x ∈ s.deliv.inSlots, x.state = .free ∨ x.source ≠ src ∨ x.tag ≠ tag)) ∧
  ∀ (s : State) (f : RawFrame), f.intact = true → s.mode ≠ .stopped → s.mode ≠ .halted →
    s.link.state = .joining ∨ s.link.state = .active → f.source.toNat = s.cfg.node →
    exec (.frameReceived f) s = .next (s.link.sendList.foldl (fun t x => t.txBack x.req .lost)
      ((s.latch .duplicateNode).onLink fun l => { l with
        state := .muted, joinTimer := none, hailTimer := none, aloneTimer := none, alone := false
        sendList := [], transmitting := none })).settle

/-! ### Campus delivery -/

/-- Frames of inbound transfers at the head of the buffer (R130, R142, R150, R152, R153): a HAIL's
generation is recorded and purges the routes of its source; a SEEK for a homed extension puts a CLAIM in the
answer queue; a new OFFER in STARTING or DRAINING is balked BUSY (R150, R158); a repeat for a FILLING slot, in
any mode, restarts its idle timer and hands its TAKE again unless a frame of the slot waits (R149); a CARRY in
order joins the object; and a CLOSE whose counts agree commits, answers RECEIPT OK and lingers 5 s. A CLOSE of
a LIST transfer commits to every member with room, in index order, or discards the object where none has
(R151, R153); one whose counts disagree gives up what the slot holds and is answered RECEIPT FAILED (R153).
An OFFER in SERVING for a homed mailbox with room, quota and store room takes a free slot, with the mailbox's
place reserved and the blocks earmarked and charged as pending, and hands a TAKE (R14, R33, R150); a LIST
OFFER reserves no place (R15, R151). Otherwise it is balked, a DIRECT one NOT_HOME for an extension without a
mailbox here, NO_BOX for a disabled one, BUSY without a free slot, FULL without a place or the quota and STORE
without the store's room or an object entry, OBJECTS_FULL then latched; a LIST one NO_MEMBERS where the list has
no member here, BUSY without a free slot, and STORE without room, budget or object entry; nothing is left
reserved. That the slot taken is the lowest-numbered free one (log 45), that the CLAIM carries the SEEK's tag
(log 50) and that an unusable record is looked up as no record (log 55) are the model's choices. -/
def Obligations.InboundFramesAreHanded : Prop :=
  (∀ (s : State) (src tag : Nat) (rest : List Frame),
    (∀ g dst, s.link.buffer = ⟨src, dst, tag, .hail g⟩ :: rest →
      (s.presence src).generation ≠ some g → 1 ≤ src → src ≤ 30 → s.link.presence.length = 30 →
      exec .hailHanded s = .next (({ s with
        link := { s.link with buffer := rest }
        deliv := { s.deliv with routes := s.deliv.routes.filter fun r => r.2 != src } } : State).onPresence
          src fun p => { p with generation := some g }).settle) ∧
    (∀ num ext dst k, s.link.buffer = ⟨src, dst, tag, .seek num ext⟩ :: rest →
      s.find ext = .homed k → s.deliv.answers = [] → s.link.state = .active → s.mode = .serving →
      (∀ y ∈ s.link.sendList, y.req ≠ .answers) →
      exec .seekHanded s = .next ({ s with
        link := { s.link with
          buffer := rest
          sendList := s.link.sendList ++ [⟨.answers, ⟨s.cfg.node, src, tag, .claim num ext⟩, 2,
            s.link.moment, 0, 0, none⟩] }
        deliv := { s.deliv with
          answers := [⟨s.cfg.node, src, tag, .claim num ext⟩] } } : State).settle) ∧
    (∀ o dst b, s.link.buffer = ⟨src, dst, tag, .offer o⟩ :: rest → s.inByKey src tag = none →
      (((s.mode = .starting ∨ s.mode = .draining) ∧ b = .busy) ∨
        (s.mode = .serving ∧ o.list = true ∧ b = .noMembers ∧ ∀ k, k < s.cfg.mailboxes.length →
          s.inService k = false ∨ (s.mbCfg k).lists.getLsbD o.target = false)) →
      s.deliv.answers = [] → s.link.state = .active →
      (∀ y ∈ s.link.sendList, y.req ≠ .answers) →
      exec .offerHanded s = .next ({ s with
        link := { s.link with
          buffer := rest
          sendList := s.link.sendList ++ [⟨.answers, ⟨s.cfg.node, src, tag, .balk b⟩, 1,
            s.link.moment, 0, 0, none⟩] }
        deliv := { s.deliv with
          answers := [⟨s.cfg.node, src, tag, .balk b⟩] } } : State).settle) ∧
    (∀ o dst j t, s.link.buffer = ⟨src, dst, tag, .offer o⟩ :: rest → s.inByKey src tag = some j →
      (s.inSlot j).state = .filling →
      t = ({ s with link := { s.link with buffer := rest } } : State).onIn j
        (fun x => { x with idleTimer := some 3000 }) →
      ((∃ y ∈ s.link.sendList, y.req = .inSlot j) → exec .offerHanded s = .next t.settle) ∧
      ((∀ y ∈ s.link.sendList, y.req ≠ .inSlot j) →
        exec .offerHanded s = .next (t.handTake j).settle)) ∧
    (∀ idx seg dst j t, s.link.buffer = ⟨src, dst, tag, .carry idx seg⟩ :: rest →
      s.inByKey src tag = some j → (s.inSlot j).state = .filling → (s.inSlot j).received = idx →
      ({ s with link := { s.link with buffer := rest } } : State).append (s.inSlot j).object seg
        = some t →
      exec .carryHanded s =
        .next (t.onIn j fun x => { x with received := x.received + 1 }).settle) ∧
    (∀ count dst j t, s.link.buffer = ⟨src, dst, tag, .close count⟩ :: rest →
      s.inByKey src tag = some j → (s.inSlot j).state = .filling → (s.inSlot j).list = false →
      (s.inSlot j).offered = count → (s.inSlot j).received = count →
      ({ s with link := { s.link with buffer := rest } } : State).closeObj (s.inSlot j).object 0 1
        = (true, t) →
      exec .closeHanded s = .next ((((t.commit (s.inSlot j).target
        (Entry.ofObject .voice (s.inSlot j).urgent (s.inSlot j).origin (s.inSlot j).identity
          (s.inSlot j).object (s.inSlot j).source) true (s.inSlot j).grant).onIn j fun x => { x with
            state := .committed, reservation := false, idleTimer := none
            lingerTimer := some 5000 })).handReceipt j).settle) ∧
    (∀ count dst j ks t u, s.link.buffer = ⟨src, dst, tag, .close count⟩ :: rest →
      s.inByKey src tag = some j → (s.inSlot j).state = .filling → (s.inSlot j).list = true →
      (s.inSlot j).offered = count → (s.inSlot j).received = count →
      u = ({ s with link := { s.link with buffer := rest } } : State) →
      ks = s.membersWithRoom (s.inSlot j).target →
      (ks = [] ∧ t = u.discardObj (s.inSlot j).object) ∨
        (ks ≠ [] ∧ ∃ v, u.closeObj (s.inSlot j).object 0 ks.length = (true, v) ∧
          t = ks.foldl (fun w k => w.commit k (Entry.ofObject .shared (s.inSlot j).urgent
            (s.inSlot j).origin (s.inSlot j).identity (s.inSlot j).object (s.inSlot j).source) false
            0) v) →
      exec .closeHanded s = .next (((t.onIn j fun x => { x with
        state := .committed, reservation := false, idleTimer := none
        lingerTimer := some 5000 })).handReceipt j).settle ∧
      ks.Pairwise (· < ·) ∧
      ∀ k, k ∈ ks ↔ k < s.cfg.mailboxes.length ∧ s.inService k = true ∧
        (s.mbCfg k).lists.getLsbD (s.inSlot j).target = true ∧
        (s.mb k).entries.length + (s.mb k).reserved < (s.cls k).maxEntries) ∧
    (∀ count dst j t, s.link.buffer = ⟨src, dst, tag, .close count⟩ :: rest →
      s.inByKey src tag = some j → (s.inSlot j).state = .filling →
      (s.inSlot j).offered ≠ count ∨ (s.inSlot j).received ≠ count →
      t = ({ s with link := { s.link with buffer := rest } } : State).discardObj (s.inSlot j).object →
      exec .closeHanded s = .next ((((if (s.inSlot j).reservation = true then
          t.onMb (s.inSlot j).target fun m => { m with
            reserved := m.reserved - 1, pending := m.pending - (s.inSlot j).grant }
        else t).onIn j fun _ => InSlot.blank).answer
          ⟨s.cfg.node, src, tag, .receipt false⟩)).settle)) ∧
  (∀ (s : State) (src tag dst j n obj : Nat) (o : OfferBody) (rest : List Frame) (t : State),
    s.link.buffer = ⟨src, dst, tag, .offer o⟩ :: rest → s.inByKey src tag = none →
    s.mode = .serving → o.list = true → s.freeIn = some j →
    (∃ k, k < s.cfg.mailboxes.length ∧ s.inService k = true ∧
      (s.mbCfg k).lists.getLsbD o.target = true) →
    ({ s with link := { s.link with buffer := rest } } : State).admitList o.segments =
      (.granted obj n, t) →
    n = (o.segments + 7) / 8 ∧
    exec .offerHanded s = .next ((t.onIn j fun _ => { InSlot.blank with
      state := .filling, source := src, tag := tag, list := true, target := o.target
      offered := o.segments, grant := n, object := obj, urgent := o.urgent, origin := o.origin
      identity := o.identity, reservation := false, idleTimer := some 3000 }).handTake j).settle) ∧
  (∀ (s : State) (src tag dst j k n obj : Nat) (o : OfferBody) (rest : List Frame) (t : State),
    s.link.buffer = ⟨src, dst, tag, .offer o⟩ :: rest → s.inByKey src tag = none →
    s.mode = .serving → o.list = false → s.find o.target = .homed k → s.freeIn = some j →
    (s.mb k).entries.length + (s.mb k).reserved < (s.cls k).maxEntries →
    (({ s with link := { s.link with buffer := rest } } : State).onMb k fun m => { m with
      reserved := m.reserved + 1 }).admitDirect k o.segments = (.granted obj n, t) →
    n = (o.segments + 7) / 8 ∧
    exec .offerHanded s = .next ((t.onIn j fun _ => { InSlot.blank with
      state := .filling, source := src, tag := tag, list := false, target := k
      offered := o.segments, grant := n, object := obj, urgent := o.urgent, origin := o.origin
      identity := o.identity, reservation := true, idleTimer := some 3000 }).handTake j).settle) ∧
  ∀ (s u : State) (src tag dst n : Nat) (o : OfferBody) (rest : List Frame) (b : BalkReason),
    s.link.buffer = ⟨src, dst, tag, .offer o⟩ :: rest → s.inByKey src tag = none →
    s.mode = .serving → u = { s with link := { s.link with buffer := rest } } →
    n = (o.segments + 7) / 8 →
    ((o.list = false ∧
        (((s.find o.target = .inRange ∨ s.find o.target = .foreign) ∧ b = .notHome) ∨
          ((∃ k, s.find o.target = .disabled k) ∧ b = .noBox) ∨
          ∃ k, s.find o.target = .homed k ∧
            ((s.freeIn = none ∧ b = .busy) ∨
              (s.freeIn.isSome = true ∧ b = .full ∧
                ((s.cls k).maxEntries ≤ (s.mb k).entries.length + (s.mb k).reserved ∨
                  (s.cls k).quota - (s.mb k).charged - (s.mb k).pending < n)) ∨
              (s.freeIn.isSome = true ∧ b = .store ∧
                (s.mb k).entries.length + (s.mb k).reserved < (s.cls k).maxEntries ∧
                n ≤ (s.cls k).quota - (s.mb k).charged - (s.mb k).pending ∧
                s.store.free.length - s.store.earmark - s.cfg.guard < n)))) ∨
      (o.list = true ∧
        (∃ k, k < s.cfg.mailboxes.length ∧ s.inService k = true ∧
          (s.mbCfg k).lists.getLsbD o.target = true) ∧
        ((s.freeIn = none ∧ b = .busy) ∨
          (s.freeIn.isSome = true ∧ b = .store ∧
            (s.store.free.length - s.store.earmark - s.cfg.guard < n ∨
              s.cfg.budget < s.store.sharedUse + n)))) →
      exec .offerHanded s = .next (u.answer ⟨s.cfg.node, src, tag, .balk b⟩).settle) ∧
    (s.freeIn.isSome = true → 8192 < lowestFree 1 s.store.objects →
      n ≤ s.store.free.length - s.store.earmark - s.cfg.guard →
      (o.list = false ∧ ∃ k, s.find o.target = .homed k ∧
          (s.mb k).entries.length + (s.mb k).reserved < (s.cls k).maxEntries ∧
          n ≤ (s.cls k).quota - (s.mb k).charged - (s.mb k).pending) ∨
        (o.list = true ∧ s.store.sharedUse + n ≤ s.cfg.budget ∧
          ∃ k, k < s.cfg.mailboxes.length ∧ s.inService k = true ∧
            (s.mbCfg k).lists.getLsbD o.target = true) →
      exec .offerHanded s =
        .next ((u.latch .objectsFull).answer ⟨s.cfg.node, src, tag, .balk .store⟩).settle)

/-- Answers to outbound transfers at the head of the buffer (R143, R145, R146, R148, R155): a CLAIM of
another node than the claimant latches DUPLICATE_HOME, and the first one fills the route and takes the slot
to OFFERING; a TAKE takes it to CARRYING; a BALK FULL ends a DIRECT transfer as FULL and a BALK NO_BOX as UNKNOWN;
a BALK NO_MEMBERS ends a LIST transfer in success; a BALK STORE or BUSY ends either for a hold, and a reason that
does not belong to the entry's kind for a retry. A BALK NOT_HOME of a DIRECT entry purges the route to the
balking node (R140); the first marks the entry relocated and begins a new locate in its slot under the same tag,
and a second ends it as UNKNOWN. A locate looks up its extension in the route cache: on a hit the entry is
located at the node and offered there, and on a miss a SEEK under the next seek number leaves (R140, R141). That
the slot has no destination meanwhile is the model's choice (log 46). A RECEIPT OK ends the transfer in success,
a RECEIPT FAILED for a retry. -/
def Obligations.OutboundAnswersAreHanded : Prop :=
  (∀ (s u : State) (src tag dst i : Nat) (rest : List Frame),
    u = { s with link := { s.link with buffer := rest } } →
    (∀ num ext n, s.link.buffer = ⟨src, dst, tag, .claim num ext⟩ :: rest →
      s.outBySeek num ext = some i → (s.outSlot i).seek = some ⟨num, ext, some n⟩ → n ≠ src →
      exec .claimHanded s = .next (u.latch .duplicateHome).settle) ∧
    (∀ num ext, s.link.buffer = ⟨src, dst, tag, .claim num ext⟩ :: rest →
      s.outBySeek num ext = some i → (s.outSlot i).seek = some ⟨num, ext, none⟩ →
      (s.outSlot i).state = .locating → s.isPresent src = true →
      exec .claimHanded s = .next ((((u.onOut i fun o => { o with
        seek := some ⟨num, ext, some src⟩ }).useRoute ext src).beginOffer i src).dispatch).settle) ∧
    (s.link.buffer = ⟨src, dst, tag, .take⟩ :: rest → s.outByTag src tag = some i →
      (s.outSlot i).state = .offering →
      exec .takeHanded s = .next (((u.onOut i fun o => { o with
        state := .carrying, nextIndex := 0, timer := none }).carryOn i).dispatch).settle) ∧
    (∀ e, s.link.buffer = ⟨src, dst, tag, .balk .full⟩ :: rest → s.outByTag src tag = some i →
      (s.outSlot i).state = .offering → s.qEntry? (s.outSlot i).pos = some e → e.list = false →
      exec .balkHanded s =
        .next (((u.failEntry (s.outSlot i).pos e .full).finishSlot i).dispatch).settle) ∧
    (∀ e b, s.link.buffer = ⟨src, dst, tag, .balk b⟩ :: rest → b = .store ∨ b = .busy →
      s.outByTag src tag = some i → (s.outSlot i).state = .offering →
      s.qEntry? (s.outSlot i).pos = some e →
      exec .balkHanded s = .next ((u.endTransfer i .hold).dispatch).settle) ∧
    (s.link.buffer = ⟨src, dst, tag, .receipt false⟩ :: rest → s.outByTag src tag = some i →
      (s.outSlot i).state = .closing →
      exec .receiptHanded s = .next ((u.endTransfer i .retry).dispatch).settle) ∧
    (∀ e, s.link.buffer = ⟨src, dst, tag, .receipt true⟩ :: rest → s.outByTag src tag = some i →
      (s.outSlot i).state = .closing → s.qEntry? (s.outSlot i).pos = some e →
      exec .receiptHanded s =
        .next (((u.succeedEntry (s.outSlot i).pos e).finishSlot i).dispatch).settle) ∧
    (∀ e b, s.link.buffer = ⟨src, dst, tag, .balk b⟩ :: rest → s.outByTag src tag = some i →
      (s.outSlot i).state = .offering → s.qEntry? (s.outSlot i).pos = some e →
      (e.list = false → b = .noBox →
        exec .balkHanded s =
          .next (((u.failEntry (s.outSlot i).pos e .unknown).finishSlot i).dispatch).settle) ∧
      (e.list = true → b = .noMembers →
        exec .balkHanded s =
          .next (((u.succeedEntry (s.outSlot i).pos e).finishSlot i).dispatch).settle) ∧
      ((e.list = true ∧ (b = .notHome ∨ b = .noBox ∨ b = .full)) ∨
          (e.list = false ∧ b = .noMembers) →
        exec .balkHanded s = .next ((u.endTransfer i .retry).dispatch).settle) ∧
      ∀ v : State, e.list = false → b = .notHome →
        v = { u with deliv := { s.deliv with
          routes := s.deliv.routes.filter fun r => r ≠ (e.target, src) } } →
        (e.relocated = false →
          exec .balkHanded s = .next (((v.onQ (s.outSlot i).pos fun q => { q with
            relocated := true }).beginLocate i e.target).dispatch).settle) ∧
        (e.relocated = true →
          exec .balkHanded s =
            .next (((v.failEntry (s.outSlot i).pos e .unknown).finishSlot i).dispatch).settle))) ∧
  ∀ (s v : State) (i q ext : Nat), i < s.deliv.outSlots.length →
    q = (if 65535 ≤ s.deliv.seekCounter then 1 else s.deliv.seekCounter + 1) →
    v = s.onOut i (fun o => { o with
      state := .locating, dest := none, seek := none, timer := none, wants := none }) →
    (∀ a n b, s.deliv.routes = a ++ (ext, n) :: b → (∀ y ∈ a ++ b, y.1 ≠ ext) →
      s.beginLocate i ext = (({ v with deliv := { v.deliv with
        routes := ((ext, n) :: (a ++ b)).take 256 } } : State).onQ (s.outSlot i).pos fun e => { e with
          location := some n }).beginOffer i n) ∧
    ((∀ y ∈ s.deliv.routes, y.1 ≠ ext) →
      s.beginLocate i ext = (({ v with deliv := { v.deliv with seekCounter := q } } : State).onOut i
        fun o => { o with seek := some ⟨q, ext, none⟩, seekCount := 1 }).callFrame i
          ⟨s.cfg.node, 31, (s.outSlot i).tag, .seek q ext⟩)

/-- How an entry ends (R155 to R157): it leaves its position, which marks its queue page, and drops its
reference. A DIRECT entry that fails asks for a NOTICE in its originating mailbox with the reason, its target
and its message number, and one that succeeds asks for none. A LIST entry lowers the remaining count of its
group, and raises the unreached count if it fails; the last one frees the group, which asks for a LIST_PARTIAL
notice with the unreached count if that is above 0. An entry that is held or retried below its limit waits
again in its position under its own sequence, 30 s or 60 s ahead, a DIRECT one located at the slot's node
while that is present; at 10 holds or 3 retries it fails UNREACHABLE. The slot becomes free once no frame of
it is in the send list (R144). A NOTICE for a mailbox in service (R47):
with room it is committed; in a full list with a NOTICE it takes the place of the oldest, of which the channel
that holds the lock is told (R88); in a full list without one it is dropped; and a disabled mailbox drops
it. -/
def Obligations.QueueEntriesEndWithNotices : Prop :=
  (∀ (s b : State) (pos : Nat) (e : QEntry) (r : Reason),
    b = { (s.dropRef e.object) with
      deliv := { (s.dropRef e.object).deliv with
        queue := (s.dropRef e.object).deliv.queue.set pos none }
      writer := { (s.dropRef e.object).writer with
        dirtyOthers := joinSet (s.dropRef e.object).writer.dirtyOthers (.queue (pos / 16)) } } →
    (e.list = false →
      s.succeedEntry pos e = b ∧
      (e.mailbox = none → s.failEntry pos e r = b) ∧
      (∀ k, e.mailbox = some k → s.failEntry pos e r = b.addNotice k r e.target e.number none)) ∧
    (e.list = true →
      (e.group = none → s.succeedEntry pos e = b ∧ s.failEntry pos e r = b) ∧
      (∀ g x, e.group = some g → s.deliv.groups[g]? = some (some x) →
        (2 ≤ x.remaining →
          s.succeedEntry pos e = b.onDeliv (fun d => { d with
            groups := d.groups.set g (some { x with remaining := x.remaining - 1 }) }) ∧
          s.failEntry pos e r = b.onDeliv (fun d => { d with
            groups := d.groups.set g (some { x with
              remaining := x.remaining - 1, unreached := x.unreached + 1 }) })) ∧
        (∀ f, x.remaining = 1 → f = b.onDeliv (fun d => { d with groups := d.groups.set g none }) →
          (x.mailbox = none → s.succeedEntry pos e = f ∧ s.failEntry pos e r = f) ∧
          (∀ k, x.mailbox = some k →
            s.succeedEntry pos e = (if x.unreached = 0 then f
              else f.addNotice k .listPartial x.list none (some x.unreached)) ∧
            s.failEntry pos e r =
              f.addNotice k .listPartial x.list none (some (x.unreached + 1))))))) ∧
  (∀ (s : State) (i : Nat) (e : QEntry) (loc : Option Nat), s.qEntry? (s.outSlot i).pos = some e →
    (e.list = true → loc = none) →
    (e.list = false → (∀ n, (s.outSlot i).dest = some n →
        loc = if s.isPresent n = true then some n else none) ∧
      ((s.outSlot i).dest = none → loc = none)) →
    (e.hold < 10 → s.endTransfer i .hold = ({ s with deliv := { s.deliv with
      queue := s.deliv.queue.set (s.outSlot i).pos (some { e with
        hold := e.hold + 1, carried := false, notBefore := some 30000, location := loc }) }
      } : State).finishSlot i) ∧
    (10 ≤ e.hold → s.endTransfer i .hold =
      (s.failEntry (s.outSlot i).pos e .unreachable).finishSlot i) ∧
    (e.retry < 3 → s.endTransfer i .retry = ({ s with deliv := { s.deliv with
      queue := s.deliv.queue.set (s.outSlot i).pos (some { e with
        retry := e.retry + 1, carried := false, notBefore := some 60000, location := loc }) }
      } : State).finishSlot i) ∧
    (3 ≤ e.retry → s.endTransfer i .retry =
      (s.failEntry (s.outSlot i).pos e .unreachable).finishSlot i) ∧
    ((∃ y ∈ s.link.sendList, y.req = .outSlot i) → s.finishSlot i = s.onOut i fun o => { o with
      state := .finishing, timer := none, wants := none }) ∧
    ((∀ y ∈ s.link.sendList, y.req ≠ .outSlot i) →
      s.finishSlot i = s.onOut i fun _ => OutSlot.blank)) ∧
  (∀ (s : State) (k target : Nat) (r : Reason) (subject unreached : Option Nat),
    (s.inService k = false → s.addNotice k r target subject unreached = s) ∧
    (s.inService k = true → s.hasRoom k = true →
      s.addNotice k r target subject unreached =
        s.commit k (Entry.ofNotice s.cfg.node r target subject unreached) false 0) ∧
    (s.inService k = true → s.hasRoom k = false → (∀ e ∈ (s.mb k).entries, e.kind ≠ .notice) →
      s.addNotice k r target subject unreached = s) ∧
    (∀ a old b, s.inService k = true → s.hasRoom k = false → k < s.mailboxes.length →
      (s.mb k).entries = a ++ old :: b → old.kind = .notice →
      (∀ e ∈ a, e.kind ≠ .notice ∧ e.number ≠ old.number ∧ e ≠ old) →
      ∃ t e, s.addNotice k r target subject unreached = t ∧ (t.mb k).entries = a ++ b ++ [e] ∧
        e.kind = .notice ∧ e.state = .new ∧ e.reason = some r ∧ e.target = some target ∧
        e.subject = subject ∧ e.unreached = unreached ∧ (t.mb k).lock = (s.mb k).lock ∧
        (t.mb k).erasePending = (s.mb k).erasePending.erase old.number ∧
        ((s.mb k).lock = none → t.chans = s.chans) ∧
        ∀ i, (s.mb k).lock = some i → i < s.chans.length →
          t.ch i = { s.ch i with
            presented := (s.ch i).presented.erase old.number
            currentGone := (s.ch i).currentGone || (s.ch i).current == some old.number } ∧
          ∀ j, j ≠ i → t.ch j = s.ch j))

/-- The timers of the slots and of the queue (R139, R141, R145, R148, R153, R154): a SEEK, an OFFER or a
CLOSE is sent again below three sendings, and after the third the transfer ends; a silent inbound transfer
is abandoned, its object discarded and its reservation returned; a lingering slot becomes free; and an entry
whose not-before time is reached is dispatched. -/
def Obligations.SlotTimersRun : Prop :=
  ∀ (s : State) (i : Nat),
    (∀ r, (s.outSlot i).state = .locating → (s.outSlot i).timer.isSome = true →
      (s.outSlot i).seek = some r →
      ((s.outSlot i).seekCount < 3 → ∃ u, u = s.onOut i (fun o => { o with
          seekCount := o.seekCount + 1, timer := none }) ∧
        exec (.claimTimerExpiry i) s = .next ((u.callFrame i ⟨s.cfg.node, 31, (s.outSlot i).tag,
          .seek r.number r.ext⟩).dispatch).settle) ∧
      ((s.outSlot i).seekCount = 3 →
        exec (.claimTimerExpiry i) s = .next ((s.endTransfer i .unknown).dispatch).settle)) ∧
    (∀ e, (s.outSlot i).state = .offering → (s.outSlot i).timer.isSome = true →
      s.qEntry? (s.outSlot i).pos = some e →
      ((s.outSlot i).offerCount < 3 → ∃ u, u = s.onOut i (fun o => { o with
          offerCount := o.offerCount + 1, timer := none }) ∧
        exec (.answerTimerExpiry i) s =
          .next ((u.callFrame i (u.offerFrame i e)).dispatch).settle) ∧
      ((s.outSlot i).offerCount = 3 →
        exec (.answerTimerExpiry i) s = .next ((s.endTransfer i .retry).dispatch).settle)) ∧
    (∀ e x dest, (s.outSlot i).state = .closing → (s.outSlot i).timer.isSome = true →
      s.qEntry? (s.outSlot i).pos = some e → s.obj? e.object = some x →
      (s.outSlot i).dest = some dest →
      ((s.outSlot i).closeCount < 3 → ∃ u, u = s.onOut i (fun o => { o with
          closeCount := o.closeCount + 1, timer := none }) ∧
        exec (.receiptTimerExpiry i) s = .next ((u.callFrame i ⟨s.cfg.node, dest, (s.outSlot i).tag,
          .close x.segments⟩).dispatch).settle) ∧
      ((s.outSlot i).closeCount = 3 →
        exec (.receiptTimerExpiry i) s = .next ((s.endTransfer i .retry).dispatch).settle)) ∧
    ((s.inSlot i).state = .filling → (s.inSlot i).idleTimer.isSome = true →
      ((s.inSlot i).reservation = true →
        exec (.idleTimerExpiry i) s = .next (((s.discardObj (s.inSlot i).object).onMb
          (s.inSlot i).target fun m => { m with
            reserved := m.reserved - 1, pending := m.pending - (s.inSlot i).grant }).onIn i fun _ =>
              InSlot.blank).settle) ∧
      ((s.inSlot i).reservation = false →
        exec (.idleTimerExpiry i) s =
          .next ((s.discardObj (s.inSlot i).object).onIn i fun _ => InSlot.blank).settle)) ∧
    ((s.inSlot i).state = .committed → (s.inSlot i).lingerTimer.isSome = true →
      exec (.lingerTimerExpiry i) s = .next (s.onIn i fun _ => InSlot.blank).settle) ∧
    (∀ e x, s.qEntry? i = some e → e.carried = false → e.notBefore = some x →
      exec (.notBeforeReached i) s =
        .next ((s.onQ i fun q => { q with notBefore := none }).dispatch).settle)
end

