-- ==== Sys2Proof/Laws/State.lean ====
section
/-! SUPPORT. One lemma per field per update of one part of the node, true by rfl. -/

namespace Sys2Proof.Machine

variable (s : State)

@[simp] theorem State.onStore_mode (f : Store → Store) : (s.onStore f).mode = s.mode := rfl
@[simp] theorem State.onStore_startStep (f : Store → Store) : (s.onStore f).startStep = s.startStep := rfl
@[simp] theorem State.onStore_cfg (f : Store → Store) : (s.onStore f).cfg = s.cfg := rfl
@[simp] theorem State.onStore_configured (f : Store → Store) : (s.onStore f).configured = s.configured := rfl
@[simp] theorem State.onStore_generation (f : Store → Store) : (s.onStore f).generation = s.generation := rfl
@[simp] theorem State.onStore_store (f : Store → Store) : (s.onStore f).store = f s.store := rfl
@[simp] theorem State.onStore_mailboxes (f : Store → Store) : (s.onStore f).mailboxes = s.mailboxes := rfl
@[simp] theorem State.onStore_chans (f : Store → Store) : (s.onStore f).chans = s.chans := rfl
@[simp] theorem State.onStore_lamp (f : Store → Store) : (s.onStore f).lamp = s.lamp := rfl
@[simp] theorem State.onStore_link (f : Store → Store) : (s.onStore f).link = s.link := rfl
@[simp] theorem State.onStore_deliv (f : Store → Store) : (s.onStore f).deliv = s.deliv := rfl
@[simp] theorem State.onStore_house (f : Store → Store) : (s.onStore f).house = s.house := rfl
@[simp] theorem State.onStore_writer (f : Store → Store) : (s.onStore f).writer = s.writer := rfl
@[simp] theorem State.onStore_index (f : Store → Store) : (s.onStore f).index = s.index := rfl
@[simp] theorem State.onStore_audio (f : Store → Store) : (s.onStore f).audio = s.audio := rfl
@[simp] theorem State.onStore_alarms (f : Store → Store) : (s.onStore f).alarms = s.alarms := rfl
@[simp] theorem State.onStore_discarded (f : Store → Store) : (s.onStore f).discarded = s.discarded := rfl
@[simp] theorem State.onStore_lines (f : Store → Store) : (s.onStore f).lines = s.lines := rfl
@[simp] theorem State.onStore_lineOut (f : Store → Store) : (s.onStore f).lineOut = s.lineOut := rfl
@[simp] theorem State.onStore_linkOut (f : Store → Store) : (s.onStore f).linkOut = s.linkOut := rfl
@[simp] theorem State.onStore_pending (f : Store → Store) : (s.onStore f).pending = s.pending := rfl

@[simp] theorem State.onMailboxes_mode (f : List Mailbox → List Mailbox) : (s.onMailboxes f).mode = s.mode := rfl
@[simp] theorem State.onMailboxes_startStep (f : List Mailbox → List Mailbox) : (s.onMailboxes f).startStep = s.startStep := rfl
@[simp] theorem State.onMailboxes_cfg (f : List Mailbox → List Mailbox) : (s.onMailboxes f).cfg = s.cfg := rfl
@[simp] theorem State.onMailboxes_configured (f : List Mailbox → List Mailbox) : (s.onMailboxes f).configured = s.configured := rfl
@[simp] theorem State.onMailboxes_generation (f : List Mailbox → List Mailbox) : (s.onMailboxes f).generation = s.generation := rfl
@[simp] theorem State.onMailboxes_store (f : List Mailbox → List Mailbox) : (s.onMailboxes f).store = s.store := rfl
@[simp] theorem State.onMailboxes_mailboxes (f : List Mailbox → List Mailbox) : (s.onMailboxes f).mailboxes = f s.mailboxes := rfl
@[simp] theorem State.onMailboxes_chans (f : List Mailbox → List Mailbox) : (s.onMailboxes f).chans = s.chans := rfl
@[simp] theorem State.onMailboxes_lamp (f : List Mailbox → List Mailbox) : (s.onMailboxes f).lamp = s.lamp := rfl
@[simp] theorem State.onMailboxes_link (f : List Mailbox → List Mailbox) : (s.onMailboxes f).link = s.link := rfl
@[simp] theorem State.onMailboxes_deliv (f : List Mailbox → List Mailbox) : (s.onMailboxes f).deliv = s.deliv := rfl
@[simp] theorem State.onMailboxes_house (f : List Mailbox → List Mailbox) : (s.onMailboxes f).house = s.house := rfl
@[simp] theorem State.onMailboxes_writer (f : List Mailbox → List Mailbox) : (s.onMailboxes f).writer = s.writer := rfl
@[simp] theorem State.onMailboxes_index (f : List Mailbox → List Mailbox) : (s.onMailboxes f).index = s.index := rfl
@[simp] theorem State.onMailboxes_audio (f : List Mailbox → List Mailbox) : (s.onMailboxes f).audio = s.audio := rfl
@[simp] theorem State.onMailboxes_alarms (f : List Mailbox → List Mailbox) : (s.onMailboxes f).alarms = s.alarms := rfl
@[simp] theorem State.onMailboxes_discarded (f : List Mailbox → List Mailbox) : (s.onMailboxes f).discarded = s.discarded := rfl
@[simp] theorem State.onMailboxes_lines (f : List Mailbox → List Mailbox) : (s.onMailboxes f).lines = s.lines := rfl
@[simp] theorem State.onMailboxes_lineOut (f : List Mailbox → List Mailbox) : (s.onMailboxes f).lineOut = s.lineOut := rfl
@[simp] theorem State.onMailboxes_linkOut (f : List Mailbox → List Mailbox) : (s.onMailboxes f).linkOut = s.linkOut := rfl
@[simp] theorem State.onMailboxes_pending (f : List Mailbox → List Mailbox) : (s.onMailboxes f).pending = s.pending := rfl

@[simp] theorem State.onChans_mode (f : List Channel → List Channel) : (s.onChans f).mode = s.mode := rfl
@[simp] theorem State.onChans_startStep (f : List Channel → List Channel) : (s.onChans f).startStep = s.startStep := rfl
@[simp] theorem State.onChans_cfg (f : List Channel → List Channel) : (s.onChans f).cfg = s.cfg := rfl
@[simp] theorem State.onChans_configured (f : List Channel → List Channel) : (s.onChans f).configured = s.configured := rfl
@[simp] theorem State.onChans_generation (f : List Channel → List Channel) : (s.onChans f).generation = s.generation := rfl
@[simp] theorem State.onChans_store (f : List Channel → List Channel) : (s.onChans f).store = s.store := rfl
@[simp] theorem State.onChans_mailboxes (f : List Channel → List Channel) : (s.onChans f).mailboxes = s.mailboxes := rfl
@[simp] theorem State.onChans_chans (f : List Channel → List Channel) : (s.onChans f).chans = f s.chans := rfl
@[simp] theorem State.onChans_lamp (f : List Channel → List Channel) : (s.onChans f).lamp = s.lamp := rfl
@[simp] theorem State.onChans_link (f : List Channel → List Channel) : (s.onChans f).link = s.link := rfl
@[simp] theorem State.onChans_deliv (f : List Channel → List Channel) : (s.onChans f).deliv = s.deliv := rfl
@[simp] theorem State.onChans_house (f : List Channel → List Channel) : (s.onChans f).house = s.house := rfl
@[simp] theorem State.onChans_writer (f : List Channel → List Channel) : (s.onChans f).writer = s.writer := rfl
@[simp] theorem State.onChans_index (f : List Channel → List Channel) : (s.onChans f).index = s.index := rfl
@[simp] theorem State.onChans_audio (f : List Channel → List Channel) : (s.onChans f).audio = s.audio := rfl
@[simp] theorem State.onChans_alarms (f : List Channel → List Channel) : (s.onChans f).alarms = s.alarms := rfl
@[simp] theorem State.onChans_discarded (f : List Channel → List Channel) : (s.onChans f).discarded = s.discarded := rfl
@[simp] theorem State.onChans_lines (f : List Channel → List Channel) : (s.onChans f).lines = s.lines := rfl
@[simp] theorem State.onChans_lineOut (f : List Channel → List Channel) : (s.onChans f).lineOut = s.lineOut := rfl
@[simp] theorem State.onChans_linkOut (f : List Channel → List Channel) : (s.onChans f).linkOut = s.linkOut := rfl
@[simp] theorem State.onChans_pending (f : List Channel → List Channel) : (s.onChans f).pending = s.pending := rfl

@[simp] theorem State.onLamp_mode (f : LampUnit → LampUnit) : (s.onLamp f).mode = s.mode := rfl
@[simp] theorem State.onLamp_startStep (f : LampUnit → LampUnit) : (s.onLamp f).startStep = s.startStep := rfl
@[simp] theorem State.onLamp_cfg (f : LampUnit → LampUnit) : (s.onLamp f).cfg = s.cfg := rfl
@[simp] theorem State.onLamp_configured (f : LampUnit → LampUnit) : (s.onLamp f).configured = s.configured := rfl
@[simp] theorem State.onLamp_generation (f : LampUnit → LampUnit) : (s.onLamp f).generation = s.generation := rfl
@[simp] theorem State.onLamp_store (f : LampUnit → LampUnit) : (s.onLamp f).store = s.store := rfl
@[simp] theorem State.onLamp_mailboxes (f : LampUnit → LampUnit) : (s.onLamp f).mailboxes = s.mailboxes := rfl
@[simp] theorem State.onLamp_chans (f : LampUnit → LampUnit) : (s.onLamp f).chans = s.chans := rfl
@[simp] theorem State.onLamp_lamp (f : LampUnit → LampUnit) : (s.onLamp f).lamp = f s.lamp := rfl
@[simp] theorem State.onLamp_link (f : LampUnit → LampUnit) : (s.onLamp f).link = s.link := rfl
@[simp] theorem State.onLamp_deliv (f : LampUnit → LampUnit) : (s.onLamp f).deliv = s.deliv := rfl
@[simp] theorem State.onLamp_house (f : LampUnit → LampUnit) : (s.onLamp f).house = s.house := rfl
@[simp] theorem State.onLamp_writer (f : LampUnit → LampUnit) : (s.onLamp f).writer = s.writer := rfl
@[simp] theorem State.onLamp_index (f : LampUnit → LampUnit) : (s.onLamp f).index = s.index := rfl
@[simp] theorem State.onLamp_audio (f : LampUnit → LampUnit) : (s.onLamp f).audio = s.audio := rfl
@[simp] theorem State.onLamp_alarms (f : LampUnit → LampUnit) : (s.onLamp f).alarms = s.alarms := rfl
@[simp] theorem State.onLamp_discarded (f : LampUnit → LampUnit) : (s.onLamp f).discarded = s.discarded := rfl
@[simp] theorem State.onLamp_lines (f : LampUnit → LampUnit) : (s.onLamp f).lines = s.lines := rfl
@[simp] theorem State.onLamp_lineOut (f : LampUnit → LampUnit) : (s.onLamp f).lineOut = s.lineOut := rfl
@[simp] theorem State.onLamp_linkOut (f : LampUnit → LampUnit) : (s.onLamp f).linkOut = s.linkOut := rfl
@[simp] theorem State.onLamp_pending (f : LampUnit → LampUnit) : (s.onLamp f).pending = s.pending := rfl

@[simp] theorem State.onLink_mode (f : LinkCtl → LinkCtl) : (s.onLink f).mode = s.mode := rfl
@[simp] theorem State.onLink_startStep (f : LinkCtl → LinkCtl) : (s.onLink f).startStep = s.startStep := rfl
@[simp] theorem State.onLink_cfg (f : LinkCtl → LinkCtl) : (s.onLink f).cfg = s.cfg := rfl
@[simp] theorem State.onLink_configured (f : LinkCtl → LinkCtl) : (s.onLink f).configured = s.configured := rfl
@[simp] theorem State.onLink_generation (f : LinkCtl → LinkCtl) : (s.onLink f).generation = s.generation := rfl
@[simp] theorem State.onLink_store (f : LinkCtl → LinkCtl) : (s.onLink f).store = s.store := rfl
@[simp] theorem State.onLink_mailboxes (f : LinkCtl → LinkCtl) : (s.onLink f).mailboxes = s.mailboxes := rfl
@[simp] theorem State.onLink_chans (f : LinkCtl → LinkCtl) : (s.onLink f).chans = s.chans := rfl
@[simp] theorem State.onLink_lamp (f : LinkCtl → LinkCtl) : (s.onLink f).lamp = s.lamp := rfl
@[simp] theorem State.onLink_link (f : LinkCtl → LinkCtl) : (s.onLink f).link = f s.link := rfl
@[simp] theorem State.onLink_deliv (f : LinkCtl → LinkCtl) : (s.onLink f).deliv = s.deliv := rfl
@[simp] theorem State.onLink_house (f : LinkCtl → LinkCtl) : (s.onLink f).house = s.house := rfl
@[simp] theorem State.onLink_writer (f : LinkCtl → LinkCtl) : (s.onLink f).writer = s.writer := rfl
@[simp] theorem State.onLink_index (f : LinkCtl → LinkCtl) : (s.onLink f).index = s.index := rfl
@[simp] theorem State.onLink_audio (f : LinkCtl → LinkCtl) : (s.onLink f).audio = s.audio := rfl
@[simp] theorem State.onLink_alarms (f : LinkCtl → LinkCtl) : (s.onLink f).alarms = s.alarms := rfl
@[simp] theorem State.onLink_discarded (f : LinkCtl → LinkCtl) : (s.onLink f).discarded = s.discarded := rfl
@[simp] theorem State.onLink_lines (f : LinkCtl → LinkCtl) : (s.onLink f).lines = s.lines := rfl
@[simp] theorem State.onLink_lineOut (f : LinkCtl → LinkCtl) : (s.onLink f).lineOut = s.lineOut := rfl
@[simp] theorem State.onLink_linkOut (f : LinkCtl → LinkCtl) : (s.onLink f).linkOut = s.linkOut := rfl
@[simp] theorem State.onLink_pending (f : LinkCtl → LinkCtl) : (s.onLink f).pending = s.pending := rfl

@[simp] theorem State.onDeliv_mode (f : Delivery → Delivery) : (s.onDeliv f).mode = s.mode := rfl
@[simp] theorem State.onDeliv_startStep (f : Delivery → Delivery) : (s.onDeliv f).startStep = s.startStep := rfl
@[simp] theorem State.onDeliv_cfg (f : Delivery → Delivery) : (s.onDeliv f).cfg = s.cfg := rfl
@[simp] theorem State.onDeliv_configured (f : Delivery → Delivery) : (s.onDeliv f).configured = s.configured := rfl
@[simp] theorem State.onDeliv_generation (f : Delivery → Delivery) : (s.onDeliv f).generation = s.generation := rfl
@[simp] theorem State.onDeliv_store (f : Delivery → Delivery) : (s.onDeliv f).store = s.store := rfl
@[simp] theorem State.onDeliv_mailboxes (f : Delivery → Delivery) : (s.onDeliv f).mailboxes = s.mailboxes := rfl
@[simp] theorem State.onDeliv_chans (f : Delivery → Delivery) : (s.onDeliv f).chans = s.chans := rfl
@[simp] theorem State.onDeliv_lamp (f : Delivery → Delivery) : (s.onDeliv f).lamp = s.lamp := rfl
@[simp] theorem State.onDeliv_link (f : Delivery → Delivery) : (s.onDeliv f).link = s.link := rfl
@[simp] theorem State.onDeliv_deliv (f : Delivery → Delivery) : (s.onDeliv f).deliv = f s.deliv := rfl
@[simp] theorem State.onDeliv_house (f : Delivery → Delivery) : (s.onDeliv f).house = s.house := rfl
@[simp] theorem State.onDeliv_writer (f : Delivery → Delivery) : (s.onDeliv f).writer = s.writer := rfl
@[simp] theorem State.onDeliv_index (f : Delivery → Delivery) : (s.onDeliv f).index = s.index := rfl
@[simp] theorem State.onDeliv_audio (f : Delivery → Delivery) : (s.onDeliv f).audio = s.audio := rfl
@[simp] theorem State.onDeliv_alarms (f : Delivery → Delivery) : (s.onDeliv f).alarms = s.alarms := rfl
@[simp] theorem State.onDeliv_discarded (f : Delivery → Delivery) : (s.onDeliv f).discarded = s.discarded := rfl
@[simp] theorem State.onDeliv_lines (f : Delivery → Delivery) : (s.onDeliv f).lines = s.lines := rfl
@[simp] theorem State.onDeliv_lineOut (f : Delivery → Delivery) : (s.onDeliv f).lineOut = s.lineOut := rfl
@[simp] theorem State.onDeliv_linkOut (f : Delivery → Delivery) : (s.onDeliv f).linkOut = s.linkOut := rfl
@[simp] theorem State.onDeliv_pending (f : Delivery → Delivery) : (s.onDeliv f).pending = s.pending := rfl

@[simp] theorem State.onHouse_mode (f : Housekeeping → Housekeeping) : (s.onHouse f).mode = s.mode := rfl
@[simp] theorem State.onHouse_startStep (f : Housekeeping → Housekeeping) : (s.onHouse f).startStep = s.startStep := rfl
@[simp] theorem State.onHouse_cfg (f : Housekeeping → Housekeeping) : (s.onHouse f).cfg = s.cfg := rfl
@[simp] theorem State.onHouse_configured (f : Housekeeping → Housekeeping) : (s.onHouse f).configured = s.configured := rfl
@[simp] theorem State.onHouse_generation (f : Housekeeping → Housekeeping) : (s.onHouse f).generation = s.generation := rfl
@[simp] theorem State.onHouse_store (f : Housekeeping → Housekeeping) : (s.onHouse f).store = s.store := rfl
@[simp] theorem State.onHouse_mailboxes (f : Housekeeping → Housekeeping) : (s.onHouse f).mailboxes = s.mailboxes := rfl
@[simp] theorem State.onHouse_chans (f : Housekeeping → Housekeeping) : (s.onHouse f).chans = s.chans := rfl
@[simp] theorem State.onHouse_lamp (f : Housekeeping → Housekeeping) : (s.onHouse f).lamp = s.lamp := rfl
@[simp] theorem State.onHouse_link (f : Housekeeping → Housekeeping) : (s.onHouse f).link = s.link := rfl
@[simp] theorem State.onHouse_deliv (f : Housekeeping → Housekeeping) : (s.onHouse f).deliv = s.deliv := rfl
@[simp] theorem State.onHouse_house (f : Housekeeping → Housekeeping) : (s.onHouse f).house = f s.house := rfl
@[simp] theorem State.onHouse_writer (f : Housekeeping → Housekeeping) : (s.onHouse f).writer = s.writer := rfl
@[simp] theorem State.onHouse_index (f : Housekeeping → Housekeeping) : (s.onHouse f).index = s.index := rfl
@[simp] theorem State.onHouse_audio (f : Housekeeping → Housekeeping) : (s.onHouse f).audio = s.audio := rfl
@[simp] theorem State.onHouse_alarms (f : Housekeeping → Housekeeping) : (s.onHouse f).alarms = s.alarms := rfl
@[simp] theorem State.onHouse_discarded (f : Housekeeping → Housekeeping) : (s.onHouse f).discarded = s.discarded := rfl
@[simp] theorem State.onHouse_lines (f : Housekeeping → Housekeeping) : (s.onHouse f).lines = s.lines := rfl
@[simp] theorem State.onHouse_lineOut (f : Housekeeping → Housekeeping) : (s.onHouse f).lineOut = s.lineOut := rfl
@[simp] theorem State.onHouse_linkOut (f : Housekeeping → Housekeeping) : (s.onHouse f).linkOut = s.linkOut := rfl
@[simp] theorem State.onHouse_pending (f : Housekeeping → Housekeeping) : (s.onHouse f).pending = s.pending := rfl

@[simp] theorem State.onWriter_mode (f : IndexWriter → IndexWriter) : (s.onWriter f).mode = s.mode := rfl
@[simp] theorem State.onWriter_startStep (f : IndexWriter → IndexWriter) : (s.onWriter f).startStep = s.startStep := rfl
@[simp] theorem State.onWriter_cfg (f : IndexWriter → IndexWriter) : (s.onWriter f).cfg = s.cfg := rfl
@[simp] theorem State.onWriter_configured (f : IndexWriter → IndexWriter) : (s.onWriter f).configured = s.configured := rfl
@[simp] theorem State.onWriter_generation (f : IndexWriter → IndexWriter) : (s.onWriter f).generation = s.generation := rfl
@[simp] theorem State.onWriter_store (f : IndexWriter → IndexWriter) : (s.onWriter f).store = s.store := rfl
@[simp] theorem State.onWriter_mailboxes (f : IndexWriter → IndexWriter) : (s.onWriter f).mailboxes = s.mailboxes := rfl
@[simp] theorem State.onWriter_chans (f : IndexWriter → IndexWriter) : (s.onWriter f).chans = s.chans := rfl
@[simp] theorem State.onWriter_lamp (f : IndexWriter → IndexWriter) : (s.onWriter f).lamp = s.lamp := rfl
@[simp] theorem State.onWriter_link (f : IndexWriter → IndexWriter) : (s.onWriter f).link = s.link := rfl
@[simp] theorem State.onWriter_deliv (f : IndexWriter → IndexWriter) : (s.onWriter f).deliv = s.deliv := rfl
@[simp] theorem State.onWriter_house (f : IndexWriter → IndexWriter) : (s.onWriter f).house = s.house := rfl
@[simp] theorem State.onWriter_writer (f : IndexWriter → IndexWriter) : (s.onWriter f).writer = f s.writer := rfl
@[simp] theorem State.onWriter_index (f : IndexWriter → IndexWriter) : (s.onWriter f).index = s.index := rfl
@[simp] theorem State.onWriter_audio (f : IndexWriter → IndexWriter) : (s.onWriter f).audio = s.audio := rfl
@[simp] theorem State.onWriter_alarms (f : IndexWriter → IndexWriter) : (s.onWriter f).alarms = s.alarms := rfl
@[simp] theorem State.onWriter_discarded (f : IndexWriter → IndexWriter) : (s.onWriter f).discarded = s.discarded := rfl
@[simp] theorem State.onWriter_lines (f : IndexWriter → IndexWriter) : (s.onWriter f).lines = s.lines := rfl
@[simp] theorem State.onWriter_lineOut (f : IndexWriter → IndexWriter) : (s.onWriter f).lineOut = s.lineOut := rfl
@[simp] theorem State.onWriter_linkOut (f : IndexWriter → IndexWriter) : (s.onWriter f).linkOut = s.linkOut := rfl
@[simp] theorem State.onWriter_pending (f : IndexWriter → IndexWriter) : (s.onWriter f).pending = s.pending := rfl

@[simp] theorem State.onIndex_mode (f : IndexArea → IndexArea) : (s.onIndex f).mode = s.mode := rfl
@[simp] theorem State.onIndex_startStep (f : IndexArea → IndexArea) : (s.onIndex f).startStep = s.startStep := rfl
@[simp] theorem State.onIndex_cfg (f : IndexArea → IndexArea) : (s.onIndex f).cfg = s.cfg := rfl
@[simp] theorem State.onIndex_configured (f : IndexArea → IndexArea) : (s.onIndex f).configured = s.configured := rfl
@[simp] theorem State.onIndex_generation (f : IndexArea → IndexArea) : (s.onIndex f).generation = s.generation := rfl
@[simp] theorem State.onIndex_store (f : IndexArea → IndexArea) : (s.onIndex f).store = s.store := rfl
@[simp] theorem State.onIndex_mailboxes (f : IndexArea → IndexArea) : (s.onIndex f).mailboxes = s.mailboxes := rfl
@[simp] theorem State.onIndex_chans (f : IndexArea → IndexArea) : (s.onIndex f).chans = s.chans := rfl
@[simp] theorem State.onIndex_lamp (f : IndexArea → IndexArea) : (s.onIndex f).lamp = s.lamp := rfl
@[simp] theorem State.onIndex_link (f : IndexArea → IndexArea) : (s.onIndex f).link = s.link := rfl
@[simp] theorem State.onIndex_deliv (f : IndexArea → IndexArea) : (s.onIndex f).deliv = s.deliv := rfl
@[simp] theorem State.onIndex_house (f : IndexArea → IndexArea) : (s.onIndex f).house = s.house := rfl
@[simp] theorem State.onIndex_writer (f : IndexArea → IndexArea) : (s.onIndex f).writer = s.writer := rfl
@[simp] theorem State.onIndex_index (f : IndexArea → IndexArea) : (s.onIndex f).index = f s.index := rfl
@[simp] theorem State.onIndex_audio (f : IndexArea → IndexArea) : (s.onIndex f).audio = s.audio := rfl
@[simp] theorem State.onIndex_alarms (f : IndexArea → IndexArea) : (s.onIndex f).alarms = s.alarms := rfl
@[simp] theorem State.onIndex_discarded (f : IndexArea → IndexArea) : (s.onIndex f).discarded = s.discarded := rfl
@[simp] theorem State.onIndex_lines (f : IndexArea → IndexArea) : (s.onIndex f).lines = s.lines := rfl
@[simp] theorem State.onIndex_lineOut (f : IndexArea → IndexArea) : (s.onIndex f).lineOut = s.lineOut := rfl
@[simp] theorem State.onIndex_linkOut (f : IndexArea → IndexArea) : (s.onIndex f).linkOut = s.linkOut := rfl
@[simp] theorem State.onIndex_pending (f : IndexArea → IndexArea) : (s.onIndex f).pending = s.pending := rfl

@[simp] theorem State.onAudio_mode (f : List (Nat × Segment) → List (Nat × Segment)) : (s.onAudio f).mode = s.mode := rfl
@[simp] theorem State.onAudio_startStep (f : List (Nat × Segment) → List (Nat × Segment)) : (s.onAudio f).startStep = s.startStep := rfl
@[simp] theorem State.onAudio_cfg (f : List (Nat × Segment) → List (Nat × Segment)) : (s.onAudio f).cfg = s.cfg := rfl
@[simp] theorem State.onAudio_configured (f : List (Nat × Segment) → List (Nat × Segment)) : (s.onAudio f).configured = s.configured := rfl
@[simp] theorem State.onAudio_generation (f : List (Nat × Segment) → List (Nat × Segment)) : (s.onAudio f).generation = s.generation := rfl
@[simp] theorem State.onAudio_store (f : List (Nat × Segment) → List (Nat × Segment)) : (s.onAudio f).store = s.store := rfl
@[simp] theorem State.onAudio_mailboxes (f : List (Nat × Segment) → List (Nat × Segment)) : (s.onAudio f).mailboxes = s.mailboxes := rfl
@[simp] theorem State.onAudio_chans (f : List (Nat × Segment) → List (Nat × Segment)) : (s.onAudio f).chans = s.chans := rfl
@[simp] theorem State.onAudio_lamp (f : List (Nat × Segment) → List (Nat × Segment)) : (s.onAudio f).lamp = s.lamp := rfl
@[simp] theorem State.onAudio_link (f : List (Nat × Segment) → List (Nat × Segment)) : (s.onAudio f).link = s.link := rfl
@[simp] theorem State.onAudio_deliv (f : List (Nat × Segment) → List (Nat × Segment)) : (s.onAudio f).deliv = s.deliv := rfl
@[simp] theorem State.onAudio_house (f : List (Nat × Segment) → List (Nat × Segment)) : (s.onAudio f).house = s.house := rfl
@[simp] theorem State.onAudio_writer (f : List (Nat × Segment) → List (Nat × Segment)) : (s.onAudio f).writer = s.writer := rfl
@[simp] theorem State.onAudio_index (f : List (Nat × Segment) → List (Nat × Segment)) : (s.onAudio f).index = s.index := rfl
@[simp] theorem State.onAudio_audio (f : List (Nat × Segment) → List (Nat × Segment)) : (s.onAudio f).audio = f s.audio := rfl
@[simp] theorem State.onAudio_alarms (f : List (Nat × Segment) → List (Nat × Segment)) : (s.onAudio f).alarms = s.alarms := rfl
@[simp] theorem State.onAudio_discarded (f : List (Nat × Segment) → List (Nat × Segment)) : (s.onAudio f).discarded = s.discarded := rfl
@[simp] theorem State.onAudio_lines (f : List (Nat × Segment) → List (Nat × Segment)) : (s.onAudio f).lines = s.lines := rfl
@[simp] theorem State.onAudio_lineOut (f : List (Nat × Segment) → List (Nat × Segment)) : (s.onAudio f).lineOut = s.lineOut := rfl
@[simp] theorem State.onAudio_linkOut (f : List (Nat × Segment) → List (Nat × Segment)) : (s.onAudio f).linkOut = s.linkOut := rfl
@[simp] theorem State.onAudio_pending (f : List (Nat × Segment) → List (Nat × Segment)) : (s.onAudio f).pending = s.pending := rfl

@[simp] theorem State.setMode_mode (m : Mode) : (s.setMode m).mode = m := rfl
@[simp] theorem State.setMode_startStep (m : Mode) : (s.setMode m).startStep = s.startStep := rfl
@[simp] theorem State.setMode_cfg (m : Mode) : (s.setMode m).cfg = s.cfg := rfl
@[simp] theorem State.setMode_configured (m : Mode) : (s.setMode m).configured = s.configured := rfl
@[simp] theorem State.setMode_generation (m : Mode) : (s.setMode m).generation = s.generation := rfl
@[simp] theorem State.setMode_store (m : Mode) : (s.setMode m).store = s.store := rfl
@[simp] theorem State.setMode_mailboxes (m : Mode) : (s.setMode m).mailboxes = s.mailboxes := rfl
@[simp] theorem State.setMode_chans (m : Mode) : (s.setMode m).chans = s.chans := rfl
@[simp] theorem State.setMode_lamp (m : Mode) : (s.setMode m).lamp = s.lamp := rfl
@[simp] theorem State.setMode_link (m : Mode) : (s.setMode m).link = s.link := rfl
@[simp] theorem State.setMode_deliv (m : Mode) : (s.setMode m).deliv = s.deliv := rfl
@[simp] theorem State.setMode_house (m : Mode) : (s.setMode m).house = s.house := rfl
@[simp] theorem State.setMode_writer (m : Mode) : (s.setMode m).writer = s.writer := rfl
@[simp] theorem State.setMode_index (m : Mode) : (s.setMode m).index = s.index := rfl
@[simp] theorem State.setMode_audio (m : Mode) : (s.setMode m).audio = s.audio := rfl
@[simp] theorem State.setMode_alarms (m : Mode) : (s.setMode m).alarms = s.alarms := rfl
@[simp] theorem State.setMode_discarded (m : Mode) : (s.setMode m).discarded = s.discarded := rfl
@[simp] theorem State.setMode_lines (m : Mode) : (s.setMode m).lines = s.lines := rfl
@[simp] theorem State.setMode_lineOut (m : Mode) : (s.setMode m).lineOut = s.lineOut := rfl
@[simp] theorem State.setMode_linkOut (m : Mode) : (s.setMode m).linkOut = s.linkOut := rfl
@[simp] theorem State.setMode_pending (m : Mode) : (s.setMode m).pending = s.pending := rfl

@[simp] theorem State.setStart_mode (u : StartStep) : (s.setStart u).mode = s.mode := rfl
@[simp] theorem State.setStart_startStep (u : StartStep) : (s.setStart u).startStep = u := rfl
@[simp] theorem State.setStart_cfg (u : StartStep) : (s.setStart u).cfg = s.cfg := rfl
@[simp] theorem State.setStart_configured (u : StartStep) : (s.setStart u).configured = s.configured := rfl
@[simp] theorem State.setStart_generation (u : StartStep) : (s.setStart u).generation = s.generation := rfl
@[simp] theorem State.setStart_store (u : StartStep) : (s.setStart u).store = s.store := rfl
@[simp] theorem State.setStart_mailboxes (u : StartStep) : (s.setStart u).mailboxes = s.mailboxes := rfl
@[simp] theorem State.setStart_chans (u : StartStep) : (s.setStart u).chans = s.chans := rfl
@[simp] theorem State.setStart_lamp (u : StartStep) : (s.setStart u).lamp = s.lamp := rfl
@[simp] theorem State.setStart_link (u : StartStep) : (s.setStart u).link = s.link := rfl
@[simp] theorem State.setStart_deliv (u : StartStep) : (s.setStart u).deliv = s.deliv := rfl
@[simp] theorem State.setStart_house (u : StartStep) : (s.setStart u).house = s.house := rfl
@[simp] theorem State.setStart_writer (u : StartStep) : (s.setStart u).writer = s.writer := rfl
@[simp] theorem State.setStart_index (u : StartStep) : (s.setStart u).index = s.index := rfl
@[simp] theorem State.setStart_audio (u : StartStep) : (s.setStart u).audio = s.audio := rfl
@[simp] theorem State.setStart_alarms (u : StartStep) : (s.setStart u).alarms = s.alarms := rfl
@[simp] theorem State.setStart_discarded (u : StartStep) : (s.setStart u).discarded = s.discarded := rfl
@[simp] theorem State.setStart_lines (u : StartStep) : (s.setStart u).lines = s.lines := rfl
@[simp] theorem State.setStart_lineOut (u : StartStep) : (s.setStart u).lineOut = s.lineOut := rfl
@[simp] theorem State.setStart_linkOut (u : StartStep) : (s.setStart u).linkOut = s.linkOut := rfl
@[simp] theorem State.setStart_pending (u : StartStep) : (s.setStart u).pending = s.pending := rfl

@[simp] theorem State.setCfg_mode (c : Settings) (b : Bool) : (s.setCfg c b).mode = s.mode := rfl
@[simp] theorem State.setCfg_startStep (c : Settings) (b : Bool) : (s.setCfg c b).startStep = s.startStep := rfl
@[simp] theorem State.setCfg_cfg (c : Settings) (b : Bool) : (s.setCfg c b).cfg = c := rfl
@[simp] theorem State.setCfg_configured (c : Settings) (b : Bool) : (s.setCfg c b).configured = b := rfl
@[simp] theorem State.setCfg_generation (c : Settings) (b : Bool) : (s.setCfg c b).generation = s.generation := rfl
@[simp] theorem State.setCfg_store (c : Settings) (b : Bool) : (s.setCfg c b).store = s.store := rfl
@[simp] theorem State.setCfg_mailboxes (c : Settings) (b : Bool) : (s.setCfg c b).mailboxes = s.mailboxes := rfl
@[simp] theorem State.setCfg_chans (c : Settings) (b : Bool) : (s.setCfg c b).chans = s.chans := rfl
@[simp] theorem State.setCfg_lamp (c : Settings) (b : Bool) : (s.setCfg c b).lamp = s.lamp := rfl
@[simp] theorem State.setCfg_link (c : Settings) (b : Bool) : (s.setCfg c b).link = s.link := rfl
@[simp] theorem State.setCfg_deliv (c : Settings) (b : Bool) : (s.setCfg c b).deliv = s.deliv := rfl
@[simp] theorem State.setCfg_house (c : Settings) (b : Bool) : (s.setCfg c b).house = s.house := rfl
@[simp] theorem State.setCfg_writer (c : Settings) (b : Bool) : (s.setCfg c b).writer = s.writer := rfl
@[simp] theorem State.setCfg_index (c : Settings) (b : Bool) : (s.setCfg c b).index = s.index := rfl
@[simp] theorem State.setCfg_audio (c : Settings) (b : Bool) : (s.setCfg c b).audio = s.audio := rfl
@[simp] theorem State.setCfg_alarms (c : Settings) (b : Bool) : (s.setCfg c b).alarms = s.alarms := rfl
@[simp] theorem State.setCfg_discarded (c : Settings) (b : Bool) : (s.setCfg c b).discarded = s.discarded := rfl
@[simp] theorem State.setCfg_lines (c : Settings) (b : Bool) : (s.setCfg c b).lines = s.lines := rfl
@[simp] theorem State.setCfg_lineOut (c : Settings) (b : Bool) : (s.setCfg c b).lineOut = s.lineOut := rfl
@[simp] theorem State.setCfg_linkOut (c : Settings) (b : Bool) : (s.setCfg c b).linkOut = s.linkOut := rfl
@[simp] theorem State.setCfg_pending (c : Settings) (b : Bool) : (s.setCfg c b).pending = s.pending := rfl

@[simp] theorem State.setGeneration_mode (g : Option Nat) : (s.setGeneration g).mode = s.mode := rfl
@[simp] theorem State.setGeneration_startStep (g : Option Nat) : (s.setGeneration g).startStep = s.startStep := rfl
@[simp] theorem State.setGeneration_cfg (g : Option Nat) : (s.setGeneration g).cfg = s.cfg := rfl
@[simp] theorem State.setGeneration_configured (g : Option Nat) : (s.setGeneration g).configured = s.configured := rfl
@[simp] theorem State.setGeneration_generation (g : Option Nat) : (s.setGeneration g).generation = g := rfl
@[simp] theorem State.setGeneration_store (g : Option Nat) : (s.setGeneration g).store = s.store := rfl
@[simp] theorem State.setGeneration_mailboxes (g : Option Nat) : (s.setGeneration g).mailboxes = s.mailboxes := rfl
@[simp] theorem State.setGeneration_chans (g : Option Nat) : (s.setGeneration g).chans = s.chans := rfl
@[simp] theorem State.setGeneration_lamp (g : Option Nat) : (s.setGeneration g).lamp = s.lamp := rfl
@[simp] theorem State.setGeneration_link (g : Option Nat) : (s.setGeneration g).link = s.link := rfl
@[simp] theorem State.setGeneration_deliv (g : Option Nat) : (s.setGeneration g).deliv = s.deliv := rfl
@[simp] theorem State.setGeneration_house (g : Option Nat) : (s.setGeneration g).house = s.house := rfl
@[simp] theorem State.setGeneration_writer (g : Option Nat) : (s.setGeneration g).writer = s.writer := rfl
@[simp] theorem State.setGeneration_index (g : Option Nat) : (s.setGeneration g).index = s.index := rfl
@[simp] theorem State.setGeneration_audio (g : Option Nat) : (s.setGeneration g).audio = s.audio := rfl
@[simp] theorem State.setGeneration_alarms (g : Option Nat) : (s.setGeneration g).alarms = s.alarms := rfl
@[simp] theorem State.setGeneration_discarded (g : Option Nat) : (s.setGeneration g).discarded = s.discarded := rfl
@[simp] theorem State.setGeneration_lines (g : Option Nat) : (s.setGeneration g).lines = s.lines := rfl
@[simp] theorem State.setGeneration_lineOut (g : Option Nat) : (s.setGeneration g).lineOut = s.lineOut := rfl
@[simp] theorem State.setGeneration_linkOut (g : Option Nat) : (s.setGeneration g).linkOut = s.linkOut := rfl
@[simp] theorem State.setGeneration_pending (g : Option Nat) : (s.setGeneration g).pending = s.pending := rfl

@[simp] theorem State.setAlarms_mode (a : List Alarm) : (s.setAlarms a).mode = s.mode := rfl
@[simp] theorem State.setAlarms_startStep (a : List Alarm) : (s.setAlarms a).startStep = s.startStep := rfl
@[simp] theorem State.setAlarms_cfg (a : List Alarm) : (s.setAlarms a).cfg = s.cfg := rfl
@[simp] theorem State.setAlarms_configured (a : List Alarm) : (s.setAlarms a).configured = s.configured := rfl
@[simp] theorem State.setAlarms_generation (a : List Alarm) : (s.setAlarms a).generation = s.generation := rfl
@[simp] theorem State.setAlarms_store (a : List Alarm) : (s.setAlarms a).store = s.store := rfl
@[simp] theorem State.setAlarms_mailboxes (a : List Alarm) : (s.setAlarms a).mailboxes = s.mailboxes := rfl
@[simp] theorem State.setAlarms_chans (a : List Alarm) : (s.setAlarms a).chans = s.chans := rfl
@[simp] theorem State.setAlarms_lamp (a : List Alarm) : (s.setAlarms a).lamp = s.lamp := rfl
@[simp] theorem State.setAlarms_link (a : List Alarm) : (s.setAlarms a).link = s.link := rfl
@[simp] theorem State.setAlarms_deliv (a : List Alarm) : (s.setAlarms a).deliv = s.deliv := rfl
@[simp] theorem State.setAlarms_house (a : List Alarm) : (s.setAlarms a).house = s.house := rfl
@[simp] theorem State.setAlarms_writer (a : List Alarm) : (s.setAlarms a).writer = s.writer := rfl
@[simp] theorem State.setAlarms_index (a : List Alarm) : (s.setAlarms a).index = s.index := rfl
@[simp] theorem State.setAlarms_audio (a : List Alarm) : (s.setAlarms a).audio = s.audio := rfl
@[simp] theorem State.setAlarms_alarms (a : List Alarm) : (s.setAlarms a).alarms = a := rfl
@[simp] theorem State.setAlarms_discarded (a : List Alarm) : (s.setAlarms a).discarded = s.discarded := rfl
@[simp] theorem State.setAlarms_lines (a : List Alarm) : (s.setAlarms a).lines = s.lines := rfl
@[simp] theorem State.setAlarms_lineOut (a : List Alarm) : (s.setAlarms a).lineOut = s.lineOut := rfl
@[simp] theorem State.setAlarms_linkOut (a : List Alarm) : (s.setAlarms a).linkOut = s.linkOut := rfl
@[simp] theorem State.setAlarms_pending (a : List Alarm) : (s.setAlarms a).pending = s.pending := rfl

@[simp] theorem State.setDiscarded_mode (n : Nat) : (s.setDiscarded n).mode = s.mode := rfl
@[simp] theorem State.setDiscarded_startStep (n : Nat) : (s.setDiscarded n).startStep = s.startStep := rfl
@[simp] theorem State.setDiscarded_cfg (n : Nat) : (s.setDiscarded n).cfg = s.cfg := rfl
@[simp] theorem State.setDiscarded_configured (n : Nat) : (s.setDiscarded n).configured = s.configured := rfl
@[simp] theorem State.setDiscarded_generation (n : Nat) : (s.setDiscarded n).generation = s.generation := rfl
@[simp] theorem State.setDiscarded_store (n : Nat) : (s.setDiscarded n).store = s.store := rfl
@[simp] theorem State.setDiscarded_mailboxes (n : Nat) : (s.setDiscarded n).mailboxes = s.mailboxes := rfl
@[simp] theorem State.setDiscarded_chans (n : Nat) : (s.setDiscarded n).chans = s.chans := rfl
@[simp] theorem State.setDiscarded_lamp (n : Nat) : (s.setDiscarded n).lamp = s.lamp := rfl
@[simp] theorem State.setDiscarded_link (n : Nat) : (s.setDiscarded n).link = s.link := rfl
@[simp] theorem State.setDiscarded_deliv (n : Nat) : (s.setDiscarded n).deliv = s.deliv := rfl
@[simp] theorem State.setDiscarded_house (n : Nat) : (s.setDiscarded n).house = s.house := rfl
@[simp] theorem State.setDiscarded_writer (n : Nat) : (s.setDiscarded n).writer = s.writer := rfl
@[simp] theorem State.setDiscarded_index (n : Nat) : (s.setDiscarded n).index = s.index := rfl
@[simp] theorem State.setDiscarded_audio (n : Nat) : (s.setDiscarded n).audio = s.audio := rfl
@[simp] theorem State.setDiscarded_alarms (n : Nat) : (s.setDiscarded n).alarms = s.alarms := rfl
@[simp] theorem State.setDiscarded_discarded (n : Nat) : (s.setDiscarded n).discarded = n := rfl
@[simp] theorem State.setDiscarded_lines (n : Nat) : (s.setDiscarded n).lines = s.lines := rfl
@[simp] theorem State.setDiscarded_lineOut (n : Nat) : (s.setDiscarded n).lineOut = s.lineOut := rfl
@[simp] theorem State.setDiscarded_linkOut (n : Nat) : (s.setDiscarded n).linkOut = s.linkOut := rfl
@[simp] theorem State.setDiscarded_pending (n : Nat) : (s.setDiscarded n).pending = s.pending := rfl

@[simp] theorem State.setLines_mode (l : List Bool) : (s.setLines l).mode = s.mode := rfl
@[simp] theorem State.setLines_startStep (l : List Bool) : (s.setLines l).startStep = s.startStep := rfl
@[simp] theorem State.setLines_cfg (l : List Bool) : (s.setLines l).cfg = s.cfg := rfl
@[simp] theorem State.setLines_configured (l : List Bool) : (s.setLines l).configured = s.configured := rfl
@[simp] theorem State.setLines_generation (l : List Bool) : (s.setLines l).generation = s.generation := rfl
@[simp] theorem State.setLines_store (l : List Bool) : (s.setLines l).store = s.store := rfl
@[simp] theorem State.setLines_mailboxes (l : List Bool) : (s.setLines l).mailboxes = s.mailboxes := rfl
@[simp] theorem State.setLines_chans (l : List Bool) : (s.setLines l).chans = s.chans := rfl
@[simp] theorem State.setLines_lamp (l : List Bool) : (s.setLines l).lamp = s.lamp := rfl
@[simp] theorem State.setLines_link (l : List Bool) : (s.setLines l).link = s.link := rfl
@[simp] theorem State.setLines_deliv (l : List Bool) : (s.setLines l).deliv = s.deliv := rfl
@[simp] theorem State.setLines_house (l : List Bool) : (s.setLines l).house = s.house := rfl
@[simp] theorem State.setLines_writer (l : List Bool) : (s.setLines l).writer = s.writer := rfl
@[simp] theorem State.setLines_index (l : List Bool) : (s.setLines l).index = s.index := rfl
@[simp] theorem State.setLines_audio (l : List Bool) : (s.setLines l).audio = s.audio := rfl
@[simp] theorem State.setLines_alarms (l : List Bool) : (s.setLines l).alarms = s.alarms := rfl
@[simp] theorem State.setLines_discarded (l : List Bool) : (s.setLines l).discarded = s.discarded := rfl
@[simp] theorem State.setLines_lines (l : List Bool) : (s.setLines l).lines = l := rfl
@[simp] theorem State.setLines_lineOut (l : List Bool) : (s.setLines l).lineOut = s.lineOut := rfl
@[simp] theorem State.setLines_linkOut (l : List Bool) : (s.setLines l).linkOut = s.linkOut := rfl
@[simp] theorem State.setLines_pending (l : List Bool) : (s.setLines l).pending = s.pending := rfl

@[simp] theorem State.send_mode (r : OutRecord) : (s.send r).mode = s.mode := rfl
@[simp] theorem State.send_startStep (r : OutRecord) : (s.send r).startStep = s.startStep := rfl
@[simp] theorem State.send_cfg (r : OutRecord) : (s.send r).cfg = s.cfg := rfl
@[simp] theorem State.send_configured (r : OutRecord) : (s.send r).configured = s.configured := rfl
@[simp] theorem State.send_generation (r : OutRecord) : (s.send r).generation = s.generation := rfl
@[simp] theorem State.send_store (r : OutRecord) : (s.send r).store = s.store := rfl
@[simp] theorem State.send_mailboxes (r : OutRecord) : (s.send r).mailboxes = s.mailboxes := rfl
@[simp] theorem State.send_chans (r : OutRecord) : (s.send r).chans = s.chans := rfl
@[simp] theorem State.send_lamp (r : OutRecord) : (s.send r).lamp = s.lamp := rfl
@[simp] theorem State.send_link (r : OutRecord) : (s.send r).link = s.link := rfl
@[simp] theorem State.send_deliv (r : OutRecord) : (s.send r).deliv = s.deliv := rfl
@[simp] theorem State.send_house (r : OutRecord) : (s.send r).house = s.house := rfl
@[simp] theorem State.send_writer (r : OutRecord) : (s.send r).writer = s.writer := rfl
@[simp] theorem State.send_index (r : OutRecord) : (s.send r).index = s.index := rfl
@[simp] theorem State.send_audio (r : OutRecord) : (s.send r).audio = s.audio := rfl
@[simp] theorem State.send_alarms (r : OutRecord) : (s.send r).alarms = s.alarms := rfl
@[simp] theorem State.send_discarded (r : OutRecord) : (s.send r).discarded = s.discarded := rfl
@[simp] theorem State.send_lines (r : OutRecord) : (s.send r).lines = s.lines := rfl
@[simp] theorem State.send_lineOut (r : OutRecord) : (s.send r).lineOut = s.lineOut ++ [r] := rfl
@[simp] theorem State.send_linkOut (r : OutRecord) : (s.send r).linkOut = s.linkOut := rfl
@[simp] theorem State.send_pending (r : OutRecord) : (s.send r).pending = s.pending := rfl

@[simp] theorem State.drive_mode (o : LinkOut) : (s.drive o).mode = s.mode := rfl
@[simp] theorem State.drive_startStep (o : LinkOut) : (s.drive o).startStep = s.startStep := rfl
@[simp] theorem State.drive_cfg (o : LinkOut) : (s.drive o).cfg = s.cfg := rfl
@[simp] theorem State.drive_configured (o : LinkOut) : (s.drive o).configured = s.configured := rfl
@[simp] theorem State.drive_generation (o : LinkOut) : (s.drive o).generation = s.generation := rfl
@[simp] theorem State.drive_store (o : LinkOut) : (s.drive o).store = s.store := rfl
@[simp] theorem State.drive_mailboxes (o : LinkOut) : (s.drive o).mailboxes = s.mailboxes := rfl
@[simp] theorem State.drive_chans (o : LinkOut) : (s.drive o).chans = s.chans := rfl
@[simp] theorem State.drive_lamp (o : LinkOut) : (s.drive o).lamp = s.lamp := rfl
@[simp] theorem State.drive_link (o : LinkOut) : (s.drive o).link = s.link := rfl
@[simp] theorem State.drive_deliv (o : LinkOut) : (s.drive o).deliv = s.deliv := rfl
@[simp] theorem State.drive_house (o : LinkOut) : (s.drive o).house = s.house := rfl
@[simp] theorem State.drive_writer (o : LinkOut) : (s.drive o).writer = s.writer := rfl
@[simp] theorem State.drive_index (o : LinkOut) : (s.drive o).index = s.index := rfl
@[simp] theorem State.drive_audio (o : LinkOut) : (s.drive o).audio = s.audio := rfl
@[simp] theorem State.drive_alarms (o : LinkOut) : (s.drive o).alarms = s.alarms := rfl
@[simp] theorem State.drive_discarded (o : LinkOut) : (s.drive o).discarded = s.discarded := rfl
@[simp] theorem State.drive_lines (o : LinkOut) : (s.drive o).lines = s.lines := rfl
@[simp] theorem State.drive_lineOut (o : LinkOut) : (s.drive o).lineOut = s.lineOut := rfl
@[simp] theorem State.drive_linkOut (o : LinkOut) : (s.drive o).linkOut = s.linkOut ++ [o] := rfl
@[simp] theorem State.drive_pending (o : LinkOut) : (s.drive o).pending = s.pending := rfl

@[simp] theorem State.setPending_mode (p : List Instr) : (s.setPending p).mode = s.mode := rfl
@[simp] theorem State.setPending_startStep (p : List Instr) : (s.setPending p).startStep = s.startStep := rfl
@[simp] theorem State.setPending_cfg (p : List Instr) : (s.setPending p).cfg = s.cfg := rfl
@[simp] theorem State.setPending_configured (p : List Instr) : (s.setPending p).configured = s.configured := rfl
@[simp] theorem State.setPending_generation (p : List Instr) : (s.setPending p).generation = s.generation := rfl
@[simp] theorem State.setPending_store (p : List Instr) : (s.setPending p).store = s.store := rfl
@[simp] theorem State.setPending_mailboxes (p : List Instr) : (s.setPending p).mailboxes = s.mailboxes := rfl
@[simp] theorem State.setPending_chans (p : List Instr) : (s.setPending p).chans = s.chans := rfl
@[simp] theorem State.setPending_lamp (p : List Instr) : (s.setPending p).lamp = s.lamp := rfl
@[simp] theorem State.setPending_link (p : List Instr) : (s.setPending p).link = s.link := rfl
@[simp] theorem State.setPending_deliv (p : List Instr) : (s.setPending p).deliv = s.deliv := rfl
@[simp] theorem State.setPending_house (p : List Instr) : (s.setPending p).house = s.house := rfl
@[simp] theorem State.setPending_writer (p : List Instr) : (s.setPending p).writer = s.writer := rfl
@[simp] theorem State.setPending_index (p : List Instr) : (s.setPending p).index = s.index := rfl
@[simp] theorem State.setPending_audio (p : List Instr) : (s.setPending p).audio = s.audio := rfl
@[simp] theorem State.setPending_alarms (p : List Instr) : (s.setPending p).alarms = s.alarms := rfl
@[simp] theorem State.setPending_discarded (p : List Instr) : (s.setPending p).discarded = s.discarded := rfl
@[simp] theorem State.setPending_lines (p : List Instr) : (s.setPending p).lines = s.lines := rfl
@[simp] theorem State.setPending_lineOut (p : List Instr) : (s.setPending p).lineOut = s.lineOut := rfl
@[simp] theorem State.setPending_linkOut (p : List Instr) : (s.setPending p).linkOut = s.linkOut := rfl
@[simp] theorem State.setPending_pending (p : List Instr) : (s.setPending p).pending = p := rfl

end Sys2Proof.Machine
end

