-- ==== Sys2Proof/Laws/Table.lean ====
section
/-! SUPPORT. Tables by ascending number and the pool's memory: reading after writing, and the form every
change keeps. -/

namespace Sys2Proof.Machine

variable {α : Type}

/-- Every number of a table lies above a bound. -/
def above (n : Nat) (l : List (Nat × α)) : Prop := ∀ x ∈ l, n < x.1

theorem rising_cons {n : Nat} {v : α} {l : List (Nat × α)} :
    rising ((n, v) :: l) = true ↔ above n l ∧ rising l = true := by
  induction l generalizing n v with
  | nil => simp [rising, above]
  | cons x l ih =>
    obtain ⟨m, w⟩ := x
    have h := @ih m w
    simp only [rising, Bool.and_eq_true, decide_eq_true_eq, above, List.mem_cons, forall_eq_or_imp] at h ⊢
    constructor
    · rintro ⟨a, b⟩
      exact ⟨⟨a, fun y hy => lt_trans a ((h.1 b).1 y hy)⟩, b⟩
    · rintro ⟨⟨a, _⟩, b⟩
      exact ⟨a, b⟩

theorem tblGet_none_of_above {k : Nat} {l : List (Nat × α)} (h : above k l) : tblGet k l = none := by
  induction l with
  | nil => rfl
  | cons x l ih =>
    obtain ⟨m, w⟩ := x
    have h1 : k < m := h (m, w) (by simp)
    simp only [tblGet, if_neg (Nat.ne_of_gt h1)]
    exact ih fun y hy => h y (by simp [hy])

theorem mem_of_tblGet {k : Nat} {v : α} {l : List (Nat × α)} (h : tblGet k l = some v) :
    (k, v) ∈ l := by
  induction l with
  | nil => cases h
  | cons x l ih =>
    obtain ⟨m, w⟩ := x
    simp only [tblGet] at h
    split at h
    · rename_i e; cases h; simp [e]
    · exact List.mem_cons_of_mem _ (ih h)

theorem tblGet_of_mem {k : Nat} {v : α} {l : List (Nat × α)} (hr : rising l = true)
    (h : (k, v) ∈ l) : tblGet k l = some v := by
  induction l with
  | nil => cases h
  | cons x l ih =>
    obtain ⟨m, w⟩ := x
    rw [rising_cons] at hr
    rcases List.mem_cons.1 h with e | e
    · cases e; simp [tblGet]
    · have h1 : m < k := hr.1 _ e
      simp only [tblGet, if_neg (Nat.ne_of_lt h1)]
      exact ih hr.2 e

theorem tblGet_tblSet_same (k : Nat) (v : α) (l : List (Nat × α)) :
    tblGet k (tblSet k v l) = some v := by
  induction l with
  | nil => simp [tblSet, tblGet]
  | cons x l ih =>
    obtain ⟨m, w⟩ := x
    simp only [tblSet]
    split
    · simp [tblGet]
    · split
      · simp [tblGet]
      · rename_i h; simp [tblGet, Ne.symm h, ih]

theorem tblGet_tblSet_ne {j k : Nat} (v : α) (l : List (Nat × α)) (h : j ≠ k) :
    tblGet j (tblSet k v l) = tblGet j l := by
  induction l with
  | nil => simp [tblSet, tblGet, h.symm]
  | cons x l ih =>
    obtain ⟨m, w⟩ := x
    simp only [tblSet]
    split
    · simp [tblGet, h.symm]
    · split
      · rename_i e; subst e; simp [tblGet, h.symm]
      · simp only [tblGet]; split
        · rfl
        · exact ih

theorem tblGet_tblDel_ne {j k : Nat} (l : List (Nat × α)) (h : j ≠ k) :
    tblGet j (tblDel k l) = tblGet j l := by
  induction l with
  | nil => rfl
  | cons x l ih =>
    obtain ⟨m, w⟩ := x
    simp only [tblDel]
    split
    · rename_i e; subst e; simp [tblGet, h.symm]
    · simp only [tblGet]; split
      · rfl
      · exact ih

theorem mem_tblSet {k : Nat} {v : α} {l : List (Nat × α)} {x : Nat × α} (h : x ∈ tblSet k v l) :
    x = (k, v) ∨ x ∈ l := by
  induction l with
  | nil => simpa [tblSet] using h
  | cons y l ih =>
    obtain ⟨m, w⟩ := y
    simp only [tblSet] at h
    split at h
    · simpa using h
    · split at h
      · rcases List.mem_cons.1 h with e | e <;> simp [e]
      · rcases List.mem_cons.1 h with e | e
        · simp [e]
        · rcases ih e with r | r <;> simp [r]

theorem mem_of_tblDel {k : Nat} {l : List (Nat × α)} {x : Nat × α} (h : x ∈ tblDel k l) : x ∈ l := by
  induction l with
  | nil => cases h
  | cons y l ih =>
    obtain ⟨m, w⟩ := y
    simp only [tblDel] at h
    split at h
    · simp [h]
    · rcases List.mem_cons.1 h with e | e
      · simp [e]
      · simp [ih e]

theorem rising_tblSet (k : Nat) (v : α) {l : List (Nat × α)} (h : rising l = true) :
    rising (tblSet k v l) = true := by
  induction l with
  | nil => rfl
  | cons y l ih =>
    obtain ⟨m, w⟩ := y
    have hr := rising_cons.1 h
    simp only [tblSet]
    split
    · rename_i hk
      refine rising_cons.2 ⟨?_, h⟩
      intro x hx
      rcases List.mem_cons.1 hx with e | e
      · simpa [e] using hk
      · exact lt_trans hk (hr.1 x e)
    · split
      · rename_i e; subst e
        exact rising_cons.2 hr
      · rename_i h1 h2
        refine rising_cons.2 ⟨?_, ih hr.2⟩
        intro x hx
        rcases mem_tblSet hx with e | e
        · simp only [e]; omega
        · exact hr.1 x e

theorem rising_tblDel (k : Nat) {l : List (Nat × α)} (h : rising l = true) :
    rising (tblDel k l) = true := by
  induction l with
  | nil => rfl
  | cons y l ih =>
    obtain ⟨m, w⟩ := y
    have hr := rising_cons.1 h
    simp only [tblDel]
    split
    · exact hr.2
    · exact rising_cons.2 ⟨fun x hx => hr.1 x (mem_of_tblDel hx), ih hr.2⟩

theorem tblGet_tblDel_same {k : Nat} {l : List (Nat × α)} (h : rising l = true) :
    tblGet k (tblDel k l) = none := by
  induction l with
  | nil => rfl
  | cons y l ih =>
    obtain ⟨m, w⟩ := y
    have hr := rising_cons.1 h
    simp only [tblDel]
    split
    · rename_i e; subst e; exact tblGet_none_of_above hr.1
    · rename_i e; simp [tblGet, e, ih hr.2]

/-- A table is the entry at a number and the rest. -/
theorem perm_tblDel {k : Nat} {v : α} {l : List (Nat × α)} (h : tblGet k l = some v) :
    l.Perm ((k, v) :: tblDel k l) := by
  induction l with
  | nil => cases h
  | cons y l ih =>
    obtain ⟨m, w⟩ := y
    simp only [tblGet] at h
    simp only [tblDel]
    split at h
    · rename_i e; subst e; cases h; simp
    · rename_i e
      simp only [if_neg e]
      exact ((ih h).cons _).trans (List.Perm.swap _ _ _)

/-- Setting a number a table holds changes its entry. -/
theorem perm_tblSet_some {k : Nat} {v w : α} {l : List (Nat × α)} (hr : rising l = true)
    (h : tblGet k l = some w) : (tblSet k v l).Perm ((k, v) :: tblDel k l) := by
  induction l with
  | nil => cases h
  | cons y l ih =>
    obtain ⟨m, u⟩ := y
    have hr' := rising_cons.1 hr
    simp only [tblGet] at h
    simp only [tblSet, tblDel]
    split at h
    · rename_i e; subst e; simp
    · rename_i e
      have hm : m < k := hr'.1 _ (mem_of_tblGet h)
      rw [if_neg (by omega), if_neg (by omega), if_neg e]
      exact ((ih hr'.2 h).cons _).trans (List.Perm.swap _ _ _)

/-- Setting a number a table does not hold adds an entry. -/
theorem perm_tblSet_none {k : Nat} {v : α} {l : List (Nat × α)} (h : tblGet k l = none) :
    (tblSet k v l).Perm ((k, v) :: l) := by
  induction l with
  | nil => simp [tblSet]
  | cons y l ih =>
    obtain ⟨m, u⟩ := y
    simp only [tblGet] at h
    simp only [tblSet]
    split at h
    · cases h
    · rename_i e
      split
      · exact List.Perm.refl _
      · rw [if_neg (Ne.symm e)]
        exact ((ih h).cons _).trans (List.Perm.swap _ _ _)

/-- Leaving a number out forgets what stood there. -/
theorem tblDel_tblSet {k : Nat} {v w : α} {l : List (Nat × α)} (hr : rising l = true)
    (h : tblGet k l = some w) : tblDel k (tblSet k v l) = tblDel k l := by
  induction l with
  | nil => cases h
  | cons y l ih =>
    obtain ⟨m, u⟩ := y
    have hr' := rising_cons.1 hr
    simp only [tblGet] at h
    split at h
    · rename_i e; subst e; simp [tblSet, tblDel]
    · rename_i e
      have hm : m < k := hr'.1 _ (mem_of_tblGet h)
      simp only [tblSet, tblDel]
      rw [if_neg (by omega), if_neg (by omega), if_neg e]
      simp only [tblDel]
      rw [if_neg e, ih hr'.2 h]

/-- The lowest free number is not below the start, is free, and everything between is held. -/
theorem lowestFree_spec {n : Nat} {l : List (Nat × α)} (hr : rising l = true)
    (ha : ∀ x ∈ l, n ≤ x.1) :
    n ≤ lowestFree n l ∧ tblGet (lowestFree n l) l = none ∧
      ∀ j, n ≤ j → j < lowestFree n l → (tblGet j l).isSome := by
  induction l generalizing n with
  | nil => simp only [lowestFree, tblGet]; exact ⟨le_refl _, trivial, fun j h1 h2 => by omega⟩
  | cons y l ih =>
    obtain ⟨m, u⟩ := y
    have hr' := rising_cons.1 hr
    have hm : n ≤ m := ha (m, u) (by simp)
    simp only [lowestFree]
    split
    · rename_i e; subst e
      obtain ⟨h1, h2, h3⟩ := ih (n := m + 1) hr'.2 (fun x hx => hr'.1 x hx)
      refine ⟨by omega, ?_, fun j hj hl => ?_⟩
      · simp only [tblGet]; rw [if_neg (by omega)]; exact h2
      · simp only [tblGet]; split
        · rfl
        · exact h3 j (by omega) hl
    · rename_i e
      have hab : ∀ x ∈ l, m + 1 ≤ x.1 := fun x hx => hr'.1 x hx
      have hlow : ∀ (k : Nat) (t : List (Nat × α)), (∀ x ∈ t, k < x.1) → lowestFree k t = k := by
        intro k t ht
        induction t with
        | nil => rfl
        | cons z t iht =>
          obtain ⟨j, q⟩ := z
          have hj : k < j := ht (j, q) (by simp)
          simp only [lowestFree]
          rw [if_neg (by omega)]
          exact iht fun x hx => ht x (by simp [hx])
      rw [hlow n l fun x hx => by have := hab x hx; omega]
      refine ⟨le_refl _, ?_, fun j h1 h2 => by omega⟩
      simp only [tblGet]; rw [if_neg (by omega)]
      exact tblGet_none_of_above fun x hx => by have := hab x hx; omega

/-! ### The pool's memory -/

theorem audioWf_nil : audioWf [] = true := rfl

/-- A write keeps the canonical form. -/
theorem audioWrite_wf {m : List (Nat × Segment)} (a : Nat) (seg : Segment) (h : audioWf m = true) :
    audioWf (audioWrite m a seg) = true := by
  simp only [audioWf, Bool.and_eq_true, List.all_eq_true] at h ⊢
  simp only [audioWrite]
  split
  · exact ⟨rising_tblDel a h.1, fun x hx => h.2 x (mem_of_tblDel hx)⟩
  · rename_i hs
    refine ⟨rising_tblSet a seg h.1, fun x hx => ?_⟩
    rcases mem_tblSet hx with e | e
    · simp [e, hs]
    · exact h.2 x e

/-- A read after a write to the same position gives the segment written. -/
theorem audioRead_write_same {m : List (Nat × Segment)} (a : Nat) (seg : Segment)
    (h : audioWf m = true) : audioRead (audioWrite m a seg) a = seg := by
  simp only [audioWf, Bool.and_eq_true] at h
  simp only [audioWrite]
  split
  · rename_i e; simp [audioRead, tblGet_tblDel_same h.1, e]
  · simp [audioRead, tblGet_tblSet_same]

/-- A write leaves every other position alone. -/
theorem audioRead_write_ne {m : List (Nat × Segment)} {a b : Nat} (seg : Segment) (h : b ≠ a) :
    audioRead (audioWrite m a seg) b = audioRead m b := by
  simp only [audioWrite]
  split
  · simp [audioRead, tblGet_tblDel_ne _ h]
  · simp [audioRead, tblGet_tblSet_ne _ _ h]

end Sys2Proof.Machine
end

