-- ==== Sys2Proof/Laws/Store.lean ====
section
/-! SUPPORT. What each request of the Audio Store does to its laws (R2-R20). -/

namespace Sys2Proof.Machine

/-! ### Sums over the table -/

theorem tableBlocks_perm {a b : List (Nat × Obj)} (h : a.Perm b) :
    (tableBlocks a).Perm (tableBlocks b) := h.flatMap_right _

theorem tableEarmark_perm {a b : List (Nat × Obj)} (h : a.Perm b) : tableEarmark a = tableEarmark b :=
  (h.map _).sum_eq

theorem tableShared_perm {a b : List (Nat × Obj)} (h : a.Perm b) : tableShared a = tableShared b :=
  (h.map _).sum_eq

@[simp] theorem tableBlocks_cons (x : Nat × Obj) (l : List (Nat × Obj)) :
    tableBlocks (x :: l) = x.2.chain ++ tableBlocks l := rfl
@[simp] theorem tableEarmark_cons (x : Nat × Obj) (l : List (Nat × Obj)) :
    tableEarmark (x :: l) = x.2.earmark + tableEarmark l := rfl
@[simp] theorem tableShared_cons (x : Nat × Obj) (l : List (Nat × Obj)) :
    tableShared (x :: l) = x.2.sharedPart + tableShared l := rfl

/-- Taking an object out of a lawful store's table, as figures of the rest. -/
theorem Store.Lawful.take {st : Store} {p b n : Nat} {o : Obj} (h : st.Lawful p b)
    (ho : tblGet n st.objects = some o) :
    (st.free ++ (o.chain ++ tableBlocks (tblDel n st.objects))).Perm (List.range p) ∧
      st.earmark = o.earmark + tableEarmark (tblDel n st.objects) ∧
      st.sharedUse = o.sharedPart + tableShared (tblDel n st.objects) ∧ o.sound = true := by
  have hp := perm_tblDel ho
  refine ⟨?_, ?_, ?_, h.objects _ (mem_of_tblGet ho)⟩
  · exact ((tableBlocks_perm hp).symm.append_left _).trans h.blocks
  · rw [h.earmarks, tableEarmark_perm hp]; rfl
  · rw [h.broadcast, tableShared_perm hp]; rfl

/-- A store whose object `n` is replaced is lawful when the figures follow. -/
theorem Store.Lawful.replace {st : Store} {p b n : Nat} {o o' : Obj} {free : List Nat} {e u : Nat}
    (h : st.Lawful p b) (ho : tblGet n st.objects = some o)
    (hb : (free ++ o'.chain).Perm (st.free ++ o.chain))
    (he : e + o.earmark = st.earmark + o'.earmark) (hc : e ≤ free.length)
    (hu : u + o.sharedPart = st.sharedUse + o'.sharedPart) (hub : u ≤ b) (hs : o'.sound = true) (r : Bool) :
    Store.Lawful ⟨free, tblSet n o' st.objects, e, u, r⟩ p b := by
  obtain ⟨h1, h2, h3, _⟩ := h.take ho
  have hp := perm_tblSet_some (v := o') h.numbers ho
  constructor
  · exact rising_tblSet _ _ h.numbers
  · intro x hx
    rcases mem_tblSet hx with rfl | hx
    · exact h.within (n, o) (mem_of_tblGet ho)
    · exact h.within x hx
  · refine ((tableBlocks_perm hp).append_left _).trans ?_
    simp only [tableBlocks_cons]
    refine List.Perm.trans ?_ h1
    rw [← List.append_assoc, ← List.append_assoc]
    exact hb.append_right _
  · show e = _
    rw [tableEarmark_perm hp]; simp only [tableEarmark_cons]; omega
  · exact hc
  · show u = _
    rw [tableShared_perm hp]; simp only [tableShared_cons]; omega
  · exact hub
  · intro x hx
    rcases mem_tblSet hx with rfl | hx
    · exact hs
    · exact h.objects x hx

/-- A store whose object `n` leaves is lawful when the figures follow. -/
theorem Store.Lawful.remove {st : Store} {p b n : Nat} {o : Obj} {e u : Nat} (h : st.Lawful p b)
    (ho : tblGet n st.objects = some o) (he : e + o.earmark = st.earmark)
    (hu : u + o.sharedPart = st.sharedUse) (r : Bool) :
    Store.Lawful ⟨st.free ++ o.chain, tblDel n st.objects, e, u, r⟩ p b := by
  obtain ⟨h1, h2, h3, _⟩ := h.take ho
  constructor
  · exact rising_tblDel _ h.numbers
  · exact fun x hx => h.within x (mem_of_tblDel hx)
  · simpa [List.append_assoc] using h1
  · show e = tableEarmark (tblDel n st.objects); omega
  · have := h.covered
    show e ≤ (st.free ++ o.chain).length
    simp only [List.length_append]; omega
  · show u = tableShared (tblDel n st.objects); omega
  · have := h.budget
    show u ≤ b; omega
  · exact fun x hx => h.objects x (mem_of_tblDel hx)

/-- A store with a new object is lawful when its earmark is covered. -/
theorem Store.Lawful.insert {st : Store} {p b n : Nat} {o : Obj} {e u : Nat} (h : st.Lawful p b)
    (hn : tblGet n st.objects = none) (h1 : 1 ≤ n) (h2 : n ≤ Config.maxObjects)
    (hch : o.chain = []) (he : e = st.earmark + o.earmark) (hc : e ≤ st.free.length)
    (hu : u = st.sharedUse + o.sharedPart) (hub : u ≤ b) (hs : o.sound = true) (r : Bool) :
    Store.Lawful ⟨st.free, tblSet n o st.objects, e, u, r⟩ p b := by
  have hp := perm_tblSet_none (v := o) hn
  constructor
  · exact rising_tblSet _ _ h.numbers
  · intro x hx
    rcases mem_tblSet hx with rfl | hx
    · exact ⟨h1, h2⟩
    · exact h.within x hx
  · refine ((tableBlocks_perm hp).append_left _).trans ?_
    simpa [hch] using h.blocks
  · show e = _
    rw [tableEarmark_perm hp]; simp only [tableEarmark_cons]; rw [he, h.earmarks]; omega
  · exact hc
  · show u = _
    rw [tableShared_perm hp]; simp only [tableShared_cons]; rw [hu, h.broadcast]; omega
  · exact hub
  · intro x hx
    rcases mem_tblSet hx with rfl | hx
    · exact hs
    · exact h.objects x hx

/-- An object's part of the broadcast usage is within it. -/
theorem Store.Lawful.part_le {st : Store} {p b n : Nat} {o : Obj} (h : st.Lawful p b)
    (ho : tblGet n st.objects = some o) : o.sharedPart ≤ st.sharedUse ∧ o.earmark ≤ st.earmark := by
  obtain ⟨_, h2, h3, _⟩ := h.take ho
  omega

end Sys2Proof.Machine
end

