-- ==== Sys2Proof/Laws/Calm.lean ====
section
/-! SUPPORT. What the operations of the blocks cannot touch: the mode, the start, the settings, the index
area, the counts of every table and the waiting commands; and that they keep the store's laws. -/

namespace Sys2Proof.Machine

/-- What no operation of a session, the lamps, the link, a delivery or a pass changes. -/
structure Still where
  mode : Mode
  startStep : StartStep
  cfg : Settings
  configured : Bool
  generation : Option Nat
  index : IndexArea
  discarded : Nat
  pending : List Instr
  boxes : Nat
  chans : Nat
  recs : Nat
  presence : Nat
  queue : Nat
  outSlots : Nat
  inSlots : Nat
  groups : Nat
  ready : Bool

/-- The still part of a node. -/
def State.still (s : State) : Still :=
  { mode := s.mode, startStep := s.startStep, cfg := s.cfg, configured := s.configured
    generation := s.generation, index := s.index, discarded := s.discarded, pending := s.pending
    boxes := s.mailboxes.length, chans := s.chans.length, recs := s.lamp.recs.length
    presence := s.link.presence.length, queue := s.deliv.queue.length
    outSlots := s.deliv.outSlots.length, inSlots := s.deliv.inSlots.length
    groups := s.deliv.groups.length, ready := s.store.ready }

/-- `t` comes from `s` without touching its still part, and with the store's laws and the sizes of the
queues kept. -/
structure Calm (s t : State) : Prop where
  still : t.still = s.still
  sound : s.StoreSound → t.StoreSound
  bounds : s.Bounded → t.Bounded

theorem Calm.refl (s : State) : Calm s s := ⟨rfl, id, id⟩

theorem Calm.trans {s t u : State} (h : Calm s t) (h' : Calm t u) : Calm s u :=
  ⟨h'.still.trans h.still, fun x => h'.sound (h.sound x), fun x => h'.bounds (h.bounds x)⟩

theorem StoreSound.congr {s t : State} (h1 : t.startStep = s.startStep)
    (h2 : t.cfg = s.cfg) (h3 : t.store = s.store) (h4 : t.audio = s.audio)
    (h : s.StoreSound) : t.StoreSound := by
  obtain ⟨a, b, c⟩ := h
  constructor
  · rw [h1, h3]; exact a
  · rw [h2, h3]; exact b
  · rw [h4]; exact c

/-- A change that leaves the store and the pool alone. -/
theorem Calm.leaf {s u t : State} (h : Calm s u) (h1 : t.still = u.still) (h2 : t.store = u.store)
    (h3 : t.audio = u.audio) (hb : u.Bounded → t.Bounded) : Calm s t :=
  h.trans ⟨h1, StoreSound.congr (congrArg Still.startStep h1) (congrArg Still.cfg h1) h2 h3, hb⟩

theorem mem_modify {α : Type} {l : List α} {i : Nat} {f : α → α} {x : α} (h : x ∈ l.modify i f) :
    x ∈ l ∨ ∃ y, l[i]? = some y ∧ x = f y := by
  induction l generalizing i with
  | nil => simp at h
  | cons a l ih =>
    cases i with
    | zero =>
      rw [List.modify_zero_cons, List.mem_cons] at h
      rcases h with rfl | h
      · exact .inr ⟨a, rfl, rfl⟩
      · exact .inl (by simp [h])
    | succ i =>
      rw [List.modify_succ_cons, List.mem_cons] at h
      rcases h with rfl | h
      · exact .inl (by simp)
      · rcases ih h with h | ⟨y, hy, e⟩
        · exact .inl (by simp [h])
        · exact .inr ⟨y, by simpa using hy, e⟩

theorem joinAlarm_perm (a : Alarm) (l : List Alarm) : (joinAlarm a l).Perm (a :: l) := by
  induction l with
  | nil => exact List.Perm.refl _
  | cons b l ih =>
    unfold joinAlarm
    split
    · exact List.Perm.refl _
    · exact (ih.cons _).trans (List.Perm.swap _ _ _)

variable {s u : State} (h : Calm s u)
include h

theorem onChAt_calm (i : Nat) (f : Channel → Channel)
    (hf : (f (u.ch i)).typeAhead.length ≤ (u.ch i).typeAhead.length) : Calm s (u.onCh i f) := by
  refine h.leaf (by simp [State.still, State.onCh]) rfl rfl fun b => ?_
  refine ⟨fun c hc => ?_, b.lamp, b.link, b.deliv, b.alarms⟩
  rcases mem_modify hc with hc | ⟨y, hy, rfl⟩
  · exact b.keys c hc
  · have e : u.ch i = y := by simp [State.ch, hy]
    rw [e] at hf
    exact le_trans hf (b.keys y (List.mem_of_getElem? hy))
theorem onCh_calm (i : Nat) (f : Channel → Channel)
    (hf : ∀ c, (f c).typeAhead.length ≤ c.typeAhead.length) : Calm s (u.onCh i f) :=
  onChAt_calm h i f (hf _)
theorem onMb_calm (k : Nat) (f : Mailbox → Mailbox) : Calm s (u.onMb k f) :=
  h.leaf (by simp [State.still, State.onMb]) rfl rfl fun b =>
    ⟨b.keys, b.lamp, b.link, b.deliv, b.alarms⟩
theorem onOut_calm (i : Nat) (f : OutSlot → OutSlot) : Calm s (u.onOut i f) :=
  h.leaf (by simp [State.still, State.onOut]) rfl rfl fun b =>
    ⟨b.keys, b.lamp, b.link, b.deliv, b.alarms⟩
theorem onIn_calm (i : Nat) (f : InSlot → InSlot) : Calm s (u.onIn i f) :=
  h.leaf (by simp [State.still, State.onIn]) rfl rfl fun b =>
    ⟨b.keys, b.lamp, b.link, b.deliv, b.alarms⟩
theorem onQ_calm (i : Nat) (f : QEntry → QEntry) : Calm s (u.onQ i f) :=
  h.leaf (by simp [State.still, State.onQ]) rfl rfl fun b =>
    ⟨b.keys, b.lamp, b.link, b.deliv, b.alarms⟩
theorem onPresence_calm (i : Nat) (f : Presence → Presence) : Calm s (u.onPresence i f) := by
  unfold State.onPresence
  split
  · exact h
  · exact h.leaf (by simp [State.still]) rfl rfl fun b => ⟨b.keys, b.lamp, b.link, b.deliv, b.alarms⟩
theorem onLampRec_calm (k : Nat) (f : LampRec → LampRec) : Calm s (u.onLampRec k f) :=
  h.leaf (by simp [State.still, State.onLampRec]) rfl rfl fun b =>
    ⟨b.keys, b.lamp, b.link, b.deliv, b.alarms⟩
theorem onHouse_calm (f : Housekeeping → Housekeeping) : Calm s (u.onHouse f) :=
  h.leaf rfl rfl rfl fun b => ⟨b.keys, b.lamp, b.link, b.deliv, b.alarms⟩
theorem onWriter_calm (f : IndexWriter → IndexWriter) : Calm s (u.onWriter f) :=
  h.leaf rfl rfl rfl fun b => ⟨b.keys, b.lamp, b.link, b.deliv, b.alarms⟩
theorem send_calm (r : OutRecord) : Calm s (u.send r) :=
  h.leaf rfl rfl rfl fun b => ⟨b.keys, b.lamp, b.link, b.deliv, b.alarms⟩
theorem drive_calm (o : LinkOut) : Calm s (u.drive o) :=
  h.leaf rfl rfl rfl fun b => ⟨b.keys, b.lamp, b.link, b.deliv, b.alarms⟩
theorem setLines_calm (a : List Bool) : Calm s (u.setLines a) :=
  h.leaf rfl rfl rfl fun b => ⟨b.keys, b.lamp, b.link, b.deliv, b.alarms⟩
theorem onLamp_calm (f : LampUnit → LampUnit) (hf : (f u.lamp).recs.length = u.lamp.recs.length)
    (hb : u.lamp.Bounded → (f u.lamp).Bounded) : Calm s (u.onLamp f) :=
  h.leaf (by simp [State.still, hf]) rfl rfl fun b => ⟨b.keys, hb b.lamp, b.link, b.deliv, b.alarms⟩
theorem onLink_calm (f : LinkCtl → LinkCtl)
    (hf : (f u.link).presence.length = u.link.presence.length)
    (hb : u.link.Bounded → (f u.link).Bounded) : Calm s (u.onLink f) :=
  h.leaf (by simp [State.still, hf]) rfl rfl fun b => ⟨b.keys, b.lamp, hb b.link, b.deliv, b.alarms⟩
theorem onDeliv_calm (f : Delivery → Delivery)
    (hf : (f u.deliv).queue.length = u.deliv.queue.length ∧
      (f u.deliv).outSlots.length = u.deliv.outSlots.length ∧
      (f u.deliv).inSlots.length = u.deliv.inSlots.length ∧
      (f u.deliv).groups.length = u.deliv.groups.length)
    (hb : u.deliv.Bounded → (f u.deliv).Bounded) : Calm s (u.onDeliv f) :=
  h.leaf (by simp [State.still, hf]) rfl rfl fun b => ⟨b.keys, b.lamp, b.link, hb b.deliv, b.alarms⟩

theorem latch_calm (a : Alarm) : Calm s (u.latch a) := by
  unfold State.latch
  split
  · exact h
  · rename_i ha
    refine h.leaf rfl rfl rfl fun b => ⟨b.keys, b.lamp, b.link, b.deliv, ?_⟩
    exact (joinAlarm_perm a u.alarms).nodup_iff.2 (List.nodup_cons.2 ⟨ha, b.alarms⟩)

theorem setAlarms_calm (l : List Alarm) (hl : l.Sublist u.alarms) : Calm s (u.setAlarms l) :=
  h.leaf rfl rfl rfl fun b => ⟨b.keys, b.lamp, b.link, b.deliv, b.alarms.sublist hl⟩

theorem evalLow_calm : Calm s u.evalLow := by
  unfold State.evalLow
  split
  · exact latch_calm h _
  · exact h

theorem markObject_calm (n : Nat) : Calm s (u.markObject n) := onWriter_calm h _
theorem markMailbox_calm (n : Nat) : Calm s (u.markMailbox n) := onWriter_calm h _
theorem markQueue_calm (n : Nat) : Calm s (u.markQueue n) := onWriter_calm h _

/-- A change of the store that keeps its laws. -/
theorem onStore_calm (f : Store → Store) (hr : (f u.store).ready = u.store.ready)
    (hf : u.StoreSound → u.store.ready = true → u.store.Lawful u.cfg.pool u.cfg.budget →
      (f u.store).Lawful u.cfg.pool u.cfg.budget) : Calm s (u.onStore f) := by
  refine h.trans ⟨by simp [State.still, hr], fun x => ?_, fun b =>
    ⟨b.keys, b.lamp, b.link, b.deliv, b.alarms⟩⟩
  constructor
  · intro e; exact hr.trans (x.unset e)
  · intro e; exact hf x (hr.symm.trans e) (x.laws (hr.symm.trans e))
  · exact x.memory

theorem onAudio_calm (a : Nat) (seg : Segment) :
    Calm s (u.onAudio fun m => audioWrite m a seg) :=
  h.trans ⟨rfl, fun x => ⟨x.unset, x.laws, audioWrite_wf a seg x.memory⟩, fun b =>
    ⟨b.keys, b.lamp, b.link, b.deliv, b.alarms⟩⟩

/-! ### The store's requests -/

theorem openObj_calm (use : Use) (owner : Option Nat) (n : Nat) (hn : n ≤ u.freeRoom)
    (hb : use = .shared → u.store.sharedUse + n ≤ u.cfg.budget) :
    Calm s (u.openObj use owner n).2 := by
  unfold State.openObj
  simp only
  split
  · exact latch_calm h _
  · rename_i hle
    refine evalLow_calm (onStore_calm h _ (by simp) ?_)
    intro x hr hl
    obtain ⟨h1, h2, _⟩ := lowestFree_spec (n := 1) hl.numbers fun y hy => (hl.within y hy).1
    have := hl.covered
    unfold State.freeRoom at hn
    refine hl.insert h2 h1 (by omega) rfl rfl ?_ ?_ ?_ (by simp [Obj.sound, Obj.opened, blocksOf]) _
    · show u.store.earmark + n ≤ _; omega
    · show (if use = .shared then _ else _) = _
      by_cases hu : use = .shared <;> simp [Obj.sharedPart, Obj.opened, hu]
    · show (if use = .shared then _ else _) ≤ _
      have := hl.budget
      split
      · exact hb (by assumption)
      · exact this

theorem onObj_calm (n : Nat) (f : Obj → Obj)
    (hf : ∀ o, u.obj? n = some o → o.sound = true → (f o).chain = o.chain ∧ (f o).earmark = o.earmark ∧
      (f o).use = o.use ∧ (f o).sound = true) : Calm s (u.onObj n f) := by
  unfold State.onObj
  split
  · exact h
  · rename_i o ho
    refine onStore_calm h _ rfl ?_
    intro x hr hl
    have hs := hl.objects _ (mem_of_tblGet ho)
    obtain ⟨a, b, c, d⟩ := hf o ho hs
    refine hl.replace ho (by rw [a]) (by rw [b]) hl.covered ?_ hl.budget d _
    simp [Obj.sharedPart, a, b, c]

theorem addRef_calm (n : Nat) {t : State} (e : u.addRef n = some t) : Calm s t := by
  unfold State.addRef at e
  split at e
  · cases e
  · split at e
    · cases e
      refine markObject_calm (onObj_calm h n _ ?_) n
      intro o _ hs
      refine ⟨rfl, rfl, rfl, ?_⟩
      simp [Obj.sound] at hs ⊢
      exact ⟨hs.1, hs.2.imp_right And.left⟩
    · cases e

/-- Freeing a COMPLETE object whose entry has just been changed, in a node `v` that differs from `u` in
its store (R20). -/
theorem free_changed_calm (n : Nat) (o o' : Obj) {v : State} (hs : v.still = u.still)
    (ha : v.audio = u.audio) (hbd : u.Bounded → v.Bounded) (ho : u.obj? n = some o)
    (hob : v.store.objects = tblSet n o' u.store.objects)
    (hl : u.store.Lawful u.cfg.pool u.cfg.budget →
      (v.store.free ++ o'.chain).Perm (u.store.free ++ o.chain) ∧
      v.store.earmark + o.earmark = u.store.earmark ∧
      v.store.sharedUse + o.sharedPart =
        u.store.sharedUse + (if o'.use = .shared then o'.chain.length else 0) ∧
      (if o'.use = .shared then o'.chain.length else 0) ≤ v.store.sharedUse) :
    Calm s (v.freeObj n) := by
  have hg : v.obj? n = some o' := by
    show tblGet n v.store.objects = _
    rw [hob, tblGet_tblSet_same]
  unfold State.freeObj
  rw [hg]
  dsimp only
  refine evalLow_calm (markObject_calm (h.trans (Calm.mk ?_ ?_ ?_)) n)
  · exact hs
  rotate_left
  · intro b
    have b := hbd b
    exact ⟨b.keys, b.lamp, b.link, b.deliv, b.alarms⟩
  intro x
  have hst : v.startStep = u.startStep := congrArg Still.startStep hs
  have hcf : v.cfg = u.cfg := congrArg Still.cfg hs
  have hre : v.store.ready = u.store.ready := congrArg Still.ready hs
  refine ⟨fun e => hre.trans (x.unset (hst.symm.trans e)), fun e => ?_, by
    show audioWf v.audio = true
    rw [ha]; exact x.memory⟩
  have hla := x.laws (hre.symm.trans e)
  obtain ⟨h1, h2, h3, h4⟩ := hl hla
  have ho' : tblGet n u.store.objects = some o := ho
  have hdel : tblDel n v.store.objects = tblDel n u.store.objects := by
    rw [hob, tblDel_tblSet hla.numbers ho']
  obtain ⟨k1, k2, k3, _⟩ := hla.take ho'
  have hlen := h1.length_eq
  simp only [List.length_append] at hlen
  have hcov := hla.covered
  have hbud := hla.budget
  have hpart := (hla.part_le ho').1
  show Store.Lawful _ v.cfg.pool v.cfg.budget
  rw [hcf]
  constructor
  · show rising (tblDel n v.store.objects) = true
    rw [hdel]; exact rising_tblDel _ hla.numbers
  · show ∀ y ∈ tblDel n v.store.objects, _
    rw [hdel]; exact fun y hy => hla.within y (mem_of_tblDel hy)
  · show (v.store.free ++ o'.chain ++ tableBlocks (tblDel n v.store.objects)).Perm _
    rw [hdel]
    refine (h1.append_right _).trans ?_
    rw [List.append_assoc]
    exact k1
  · show v.store.earmark = tableEarmark (tblDel n v.store.objects)
    rw [hdel]; omega
  · show v.store.earmark ≤ (v.store.free ++ o'.chain).length
    rw [List.length_append]; omega
  · show (if o'.use = .shared then v.store.sharedUse - o'.chain.length else v.store.sharedUse) =
      tableShared (tblDel n v.store.objects)
    rw [hdel]
    by_cases hsh : o'.use = .shared <;> simp only [hsh, if_true, if_false] at h3 h4 ⊢ <;> omega
  · show (if o'.use = .shared then v.store.sharedUse - o'.chain.length else v.store.sharedUse) ≤ _
    by_cases hsh : o'.use = .shared <;> simp only [hsh, if_true, if_false] at h3 h4 ⊢ <;> omega
  · show ∀ y ∈ tblDel n v.store.objects, _
    rw [hdel]; exact fun y hy => hla.objects y (mem_of_tblDel hy)

theorem dropRef_calm (n : Nat) : Calm s (u.dropRef n) := by
  unfold State.dropRef
  split
  · exact h
  · rename_i o ho
    have he : (u.onObj n fun o => { o with refs := o.refs - 1 }) =
        u.onStore fun st => { st with
          objects := tblSet n ({ o with refs := o.refs - 1 } : Obj) st.objects } := by
      simp only [State.onObj, ho]
    dsimp only
    split
    · rename_i hc
      simp only [Bool.and_eq_true, decide_eq_true_eq] at hc
      rw [he]
      refine free_changed_calm h n o ({ o with refs := o.refs - 1 } : Obj) (by rfl) rfl
        (fun b => ⟨b.keys, b.lamp, b.link, b.deliv, b.alarms⟩) ho rfl fun hla => ?_
      have hs := hla.objects _ (mem_of_tblGet ho)
      have hp := hla.part_le ho
      simp [Obj.sound, hc.1] at hs
      simp only [Obj.sharedPart, State.markObject, State.onWriter_store, State.onStore_store] at hp ⊢
      refine ⟨List.Perm.refl _, by omega, ?_, ?_⟩
      · split <;> simp_all
      · split <;> simp_all
    · rename_i hc
      refine markObject_calm (onObj_calm h n _ ?_) n
      intro o' ho' hs
      rw [ho] at ho'; cases ho'
      refine ⟨rfl, rfl, rfl, ?_⟩
      simp [Obj.sound] at hs hc ⊢
      refine ⟨hs.1, ?_⟩
      rcases hs.2 with hs' | hs'
      · exact .inl hs'
      · by_cases hcm : o.complete = true
        · have := hc hcm; exact .inr ⟨hs'.1, by omega⟩
        · exact .inl (by simpa using hcm)

theorem dropRefOpt_calm (o : Option Nat) : Calm s (u.dropRefOpt o) := by
  cases o
  · exact h
  · exact dropRef_calm h _

theorem append_calm (n : Nat) (seg : Segment) {t : State} (e : u.append n seg = some t) :
    Calm s t := by
  unfold State.append at e
  split at e
  · cases e
  · rename_i o ho
    split at e
    · rename_i hm
      split at e
      · cases e
      · rename_i b rest hf
        split at e
        · cases e
        · rename_i hne
          cases e
          refine evalLow_calm (onAudio_calm (onStore_calm h _ rfl ?_) _ _)
          intro x hr hl
          have hs := hl.objects _ (mem_of_tblGet ho)
          have hp := hl.part_le ho
          have hc := hl.covered
          simp only [Obj.sound, Bool.and_eq_true, beq_iff_eq, Bool.or_eq_true, Bool.not_eq_true',
            decide_eq_true_eq] at hs
          rw [hf, List.length_cons] at hc
          refine hl.replace ho ?_ ?_ ?_ ?_ hl.budget ?_ _
          · simp only [Obj.counted, hf]
            rw [← List.append_assoc]
            exact (List.perm_append_singleton b _)
          · simp only [Obj.counted]; omega
          · show u.store.earmark - 1 ≤ rest.length; omega
          · simp only [Obj.counted, Obj.sharedPart, List.length_append, List.length_singleton]
            split <;> omega
          · simp only [Obj.sound, Obj.counted, Bool.and_eq_true, beq_iff_eq, Bool.or_eq_true,
              Bool.not_eq_true', List.length_append, List.length_singleton]
            unfold blocksOf at hs ⊢
            refine ⟨by omega, ?_⟩
            rcases hs.2 with hs | hs
            · exact .inl hs
            · exact absurd hs.1 hne
    · rename_i hm
      split at e
      · cases e
      · cases e
        refine onAudio_calm (onObj_calm h n _ ?_) _ _
        intro o' ho' hs
        refine ⟨rfl, rfl, rfl, ?_⟩
        rw [ho] at ho'; cases ho'
        simp only [Obj.sound, Obj.counted, Bool.and_eq_true, beq_iff_eq] at hs ⊢
        unfold blocksOf at hs ⊢
        exact ⟨by omega, hs.2⟩

theorem discardObj_calm (n : Nat) : Calm s (u.discardObj n) := by
  unfold State.discardObj
  split
  · exact h
  · rename_i o ho
    refine evalLow_calm (markObject_calm (onStore_calm h _ rfl ?_) n)
    intro x hr hl
    have hp := hl.part_le ho
    refine hl.remove ho (by omega) ?_ _
    show (if o.use = .shared then _ else _) + _ = _
    simp only [Obj.sharedPart] at hp ⊢
    split <;> simp_all

theorem closeObj_calm (n trim holders : Nat) : Calm s (u.closeObj n trim holders).2 := by
  unfold State.closeObj
  split
  · exact h
  · rename_i o ho
    split
    · exact discardObj_calm h n
    · rename_i hmin
      simp only
      have hfig : ∀ hl : u.store.Lawful u.cfg.pool u.cfg.budget,
          (u.store.free ++ o.chain.drop (blocksOf (o.segments - trim)) ++
            (o.closed trim holders).chain).Perm (u.store.free ++ o.chain) ∧
          u.store.earmark - o.earmark + o.earmark = u.store.earmark ∧
          (if o.use = .shared then
            u.store.sharedUse - ((o.chain.drop (blocksOf (o.segments - trim))).length + o.earmark)
            else u.store.sharedUse) + o.sharedPart =
              u.store.sharedUse + (if o.use = .shared then (o.closed trim holders).chain.length
                else 0) ∧
          (if o.use = .shared then (o.closed trim holders).chain.length else 0) ≤
            (if o.use = .shared then
              u.store.sharedUse - ((o.chain.drop (blocksOf (o.segments - trim))).length + o.earmark)
              else u.store.sharedUse) := by
        intro hl
        have hs := hl.objects _ (mem_of_tblGet ho)
        have hp := hl.part_le ho
        simp only [Obj.sound, Bool.and_eq_true, beq_iff_eq] at hs
        have hb : blocksOf (o.segments - trim) ≤ blocksOf o.segments := by unfold blocksOf; omega
        refine ⟨?_, by omega, ?_, ?_⟩
        · simp only [Obj.closed]
          rw [List.append_assoc]
          refine List.Perm.append_left _ ?_
          exact List.perm_append_comm.trans (by rw [List.take_append_drop])
        · simp only [Obj.closed, Obj.sharedPart, List.length_drop, List.length_take] at hp ⊢
          split
          · rename_i hsh; simp only [hsh, if_true] at hp; omega
          · rfl
        · simp only [Obj.closed, Obj.sharedPart, List.length_drop, List.length_take] at hp ⊢
          split
          · rename_i hsh; simp only [hsh, if_true] at hp; omega
          · omega
      split
      · have hev : ∀ w : State, w.evalLow.still = w.still ∧ w.evalLow.audio = w.audio ∧
            w.evalLow.store = w.store := by
          intro w; unfold State.evalLow State.latch; split <;> [split; skip] <;> exact ⟨rfl, rfl, rfl⟩
        refine free_changed_calm h n o (o.closed trim holders) ?_ ?_ ?_ ho ?_ ?_
        · rw [(hev _).1]; rfl
        · rw [(hev _).2.1]; rfl
        · intro b
          exact (evalLow_calm (Calm.refl _)).bounds ⟨b.keys, b.lamp, b.link, b.deliv, b.alarms⟩
        · rw [(hev _).2.2]; rfl
        · rw [(hev _).2.2]; exact hfig
      · rename_i hz
        refine evalLow_calm (markObject_calm (onStore_calm h _ rfl ?_) n)
        intro x hr hl
        obtain ⟨f1, f2, f3, f4⟩ := hfig hl
        have hs := hl.objects _ (mem_of_tblGet ho)
        have hc := hl.covered
        have hbd := hl.budget
        have hp := hl.part_le ho
        simp only [Obj.sound, Bool.and_eq_true, beq_iff_eq] at hs
        have hb : blocksOf (o.segments - trim) ≤ blocksOf o.segments := by unfold blocksOf; omega
        refine hl.replace ho f1 ?_ ?_ ?_ ?_ ?_ _
        · simpa [Obj.closed] using f2
        · simp only [List.length_append]; omega
        · simpa [Obj.sharedPart, Obj.closed] using f3
        · show (if o.use = .shared then
            u.store.sharedUse - ((o.chain.drop (blocksOf (o.segments - trim))).length + o.earmark)
            else u.store.sharedUse) ≤ _
          split <;> omega
        · have hs1 := hs.1
          simp only [Obj.sound, Obj.closed, List.length_take]
          simp
          exact ⟨by omega, decide_eq_true (show 1 ≤ (o.closed trim holders).refs from by show 1 ≤ holders; omega)⟩

theorem convert_calm (n : Nat) {t : State} (e : u.convert n = some t) : Calm s t := by
  unfold State.convert at e
  split at e
  · cases e
  · rename_i o ho
    split at e
    · rename_i hc
      cases e
      refine markObject_calm (onStore_calm h _ rfl ?_) n
      intro x hr hl
      have hs := hl.objects _ (mem_of_tblGet ho)
      simp only [Bool.and_eq_true, beq_iff_eq, decide_eq_true_eq] at hc
      have hcm := hc.1.1.1
      simp [Obj.sound, hcm] at hs
      refine hl.replace ho ?_ ?_ hl.covered ?_ ?_ ?_ _
      · exact List.Perm.refl _
      · rfl
      · simp [Obj.sharedPart, hc.1.1.2]; omega
      · exact hc.2
      · simp [Obj.sound, hs.1]; omega
    · cases e

end Sys2Proof.Machine
end

