-- ==== Sys2Proof/Laws/CalmBlocks.lean ====
section
/-! SUPPORT. The operations of the Lamp Unit, the Directory, the Controller and the Delivery Engine leave the still
part alone. -/

namespace Sys2Proof.Machine

set_option linter.all false

variable {s u : State} (h : Calm s u)
include h

omit h in
theorem sublistOfEq {α : Type} {a b : List α} (e : a = b) : a.Sublist b := e ▸ List.Sublist.refl _

omit h in
theorem lampBounded {l l' : LampUnit} (hq : (l'.queue.map (·.ext)).Sublist (l.queue.map (·.ext)))
    (ho : (l'.outstanding.map (·.1.ext)).Sublist (l.outstanding.map (·.1.ext))) (b : l.Bounded) :
    l'.Bounded := by
  obtain ⟨⟨b1, b2⟩, b3, b4⟩ := b
  have h1 := hq.length_le
  have h2 := ho.length_le
  simp only [List.length_map] at h1 h2
  exact ⟨⟨le_trans h1 b1, b2.sublist hq⟩, le_trans h2 b3, b4.sublist ho⟩

omit h in
theorem linkBounded {l l' : LinkCtl} (hq : (l'.sendList.map (·.req)).Sublist (l.sendList.map (·.req)))
    (ho : l'.buffer.Sublist l.buffer) (b : l.Bounded) : l'.Bounded :=
  ⟨b.1.sublist hq, le_trans ho.length_le b.2⟩

omit h in
theorem delivBounded {d d' : Delivery} (ha : d'.answers.Sublist d.answers)
    (hr : (d'.routes.map (·.1)).Sublist (d.routes.map (·.1))) (b : d.Bounded) : d'.Bounded := by
  have h1 := hr.length_le
  simp only [List.length_map] at h1
  exact ⟨le_trans ha.length_le b.1, le_trans h1 b.2.1, b.2.2.sublist hr⟩

omit h in
theorem foldl_calm {β : Type} {u : State} (h : Calm s u) (f : State → β → State)
    (hf : ∀ v x, Calm s v → Calm s (f v x)) (l : List β) : Calm s (l.foldl f u) := by
  induction l generalizing u with
  | nil => exact h
  | cons x xs ih => exact ih (hf u x h)

theorem closeObj_calm' (n trim holders : Nat) {a : Bool} {t : State}
    (e : u.closeObj n trim holders = (a, t)) : Calm s t := by
  have := closeObj_calm h n trim holders
  rw [e] at this
  exact this

theorem lampDispatch1_calm : Calm s u.lampDispatch1 := by
  unfold State.lampDispatch1
  split
  · rename_i hc
    split
    · exact h
    · rename_i c hf
      refine send_calm (onLamp_calm h _ rfl fun b => ?_) _
      obtain ⟨⟨b1, b2⟩, b3, b4⟩ := b
      simp only [Bool.and_eq_true, decide_eq_true_eq] at hc
      have hs : (u.lamp.queue.erase c).Sublist u.lamp.queue := List.erase_sublist
      have hout := List.find?_some hf
      refine ⟨⟨le_trans hs.length_le b1, b2.sublist (hs.map _)⟩, ?_, ?_⟩
      · simp only [List.length_append, List.length_singleton]; omega
      · simp only [List.map_append, List.map_cons, List.map_nil]
        refine List.Nodup.append b4 (by simp) fun x hx hy => ?_
        simp only [List.mem_singleton] at hy
        obtain ⟨p, hp, e⟩ := List.mem_map.1 hx
        simp only [LampUnit.isOut, Bool.not_eq_true', List.any_eq_false, beq_iff_eq] at hout
        exact hout p hp (e.trans hy)
  · exact h

theorem lampDispatch_calm : Calm s (u.lampDispatch) := by
  unfold State.lampDispatch
  (try dsimp only) <;> (repeat' split) <;> (try dsimp only) <;> repeat' (first | with_reducible exact h | with_reducible assumption | with_reducible apply lampDispatch1_calm | (intro _; exact Nat.le_refl _) | (intro _; exact Nat.zero_le _) | (intro _; simp; done) | rfl | (intro hb; exact hb) | (refine lampBounded ?_ ?_ <;> (first | exact List.Sublist.refl _ | exact List.nil_sublist _ | exact List.Sublist.map _ List.filter_sublist | exact List.filter_sublist | exact List.tail_sublist _)) | (refine linkBounded ?_ ?_ <;> (first | exact List.Sublist.refl _ | exact List.nil_sublist _ | exact List.Sublist.map _ List.filter_sublist | exact List.filter_sublist | exact List.tail_sublist _)) | (refine delivBounded ?_ ?_ <;> (first | exact List.Sublist.refl _ | exact List.nil_sublist _ | exact List.Sublist.map _ List.filter_sublist | exact List.filter_sublist | exact List.tail_sublist _)) | (simp; done))

theorem beginScan_calm : Calm s (u.beginScan) := by
  unfold State.beginScan
  (try dsimp only) <;> (repeat' split) <;> (try dsimp only) <;> repeat' (first | with_reducible exact h | with_reducible assumption | with_reducible apply onLamp_calm | (intro _; exact Nat.le_refl _) | (intro _; exact Nat.zero_le _) | (intro _; simp; done) | rfl | (intro hb; exact hb) | (refine lampBounded ?_ ?_ <;> (first | exact List.Sublist.refl _ | exact List.nil_sublist _ | exact List.Sublist.map _ List.filter_sublist | exact List.filter_sublist | exact List.tail_sublist _)) | (refine linkBounded ?_ ?_ <;> (first | exact List.Sublist.refl _ | exact List.nil_sublist _ | exact List.Sublist.map _ List.filter_sublist | exact List.filter_sublist | exact List.tail_sublist _)) | (refine delivBounded ?_ ?_ <;> (first | exact List.Sublist.refl _ | exact List.nil_sublist _ | exact List.Sublist.map _ List.filter_sublist | exact List.filter_sublist | exact List.tail_sublist _)) | (simp; done))

theorem setScanFlag_calm (k : Nat) : Calm s (u.setScanFlag k) := by
  unfold State.setScanFlag
  (try dsimp only) <;> (repeat' split) <;> (try dsimp only) <;> repeat' (first | with_reducible exact h | with_reducible assumption | with_reducible apply onLampRec_calm | with_reducible apply beginScan_calm | (intro _; exact Nat.le_refl _) | (intro _; exact Nat.zero_le _) | (intro _; simp; done) | rfl | (intro hb; exact hb) | (refine lampBounded ?_ ?_ <;> (first | exact List.Sublist.refl _ | exact List.nil_sublist _ | exact List.Sublist.map _ List.filter_sublist | exact List.filter_sublist | exact List.tail_sublist _)) | (refine linkBounded ?_ ?_ <;> (first | exact List.Sublist.refl _ | exact List.nil_sublist _ | exact List.Sublist.map _ List.filter_sublist | exact List.filter_sublist | exact List.tail_sublist _)) | (refine delivBounded ?_ ?_ <;> (first | exact List.Sublist.refl _ | exact List.nil_sublist _ | exact List.Sublist.map _ List.filter_sublist | exact List.filter_sublist | exact List.tail_sublist _)) | (simp; done))

theorem queueLamp_calm (c : LampCmd) {t' : State} (e : u.queueLamp c = some t') : Calm s t' := by
  unfold State.queueLamp at e
  split at e
  · cases e
    refine lampDispatch_calm (onLampRec_calm (onLamp_calm h _ rfl ?_) _ _)
    refine lampBounded ?_ (List.Sublist.refl _)
    rw [List.map_map]
    refine sublistOfEq (List.map_congr_left fun x hx => ?_)
    simp only [Function.comp]
    split <;> rfl
  · rename_i hq
    split at e
    · rename_i hlen
      cases e
      refine lampDispatch_calm (onLampRec_calm (onLamp_calm h _ rfl fun b => ?_) _ _)
      obtain ⟨⟨b1, b2⟩, b3, b4⟩ := b
      refine ⟨⟨?_, ?_⟩, b3, b4⟩
      · simp only [List.length_append, List.length_singleton]; omega
      · simp only [List.map_append, List.map_cons, List.map_nil]
        refine List.Nodup.append b2 (by simp) fun x hx hy => ?_
        simp only [List.mem_singleton] at hy
        obtain ⟨p, hp, e⟩ := List.mem_map.1 hx
        simp only [LampUnit.isQueued, Bool.not_eq_true, List.any_eq_false, beq_iff_eq] at hq
        exact hq p hp (e.trans hy)
    · cases e

theorem offerLamp_calm (c : LampCmd) : Calm s (u.offerLamp c) := by
  unfold State.offerLamp
  (try dsimp only) <;> (repeat' split) <;> (try dsimp only) <;> repeat' (first | with_reducible exact h | with_reducible assumption | with_reducible apply setScanFlag_calm | (with_reducible apply queueLamp_calm; on_goal 2 => assumption) | (intro _; exact Nat.le_refl _) | (intro _; exact Nat.zero_le _) | (intro _; simp; done) | rfl | (intro hb; exact hb) | (refine lampBounded ?_ ?_ <;> (first | exact List.Sublist.refl _ | exact List.nil_sublist _ | exact List.Sublist.map _ List.filter_sublist | exact List.filter_sublist | exact List.tail_sublist _)) | (refine linkBounded ?_ ?_ <;> (first | exact List.Sublist.refl _ | exact List.nil_sublist _ | exact List.Sublist.map _ List.filter_sublist | exact List.filter_sublist | exact List.tail_sublist _)) | (refine delivBounded ?_ ?_ <;> (first | exact List.Sublist.refl _ | exact List.nil_sublist _ | exact List.Sublist.map _ List.filter_sublist | exact List.filter_sublist | exact List.tail_sublist _)) | (simp; done))

theorem tellLamp_calm (k : Nat) : Calm s (u.tellLamp k) := by
  unfold State.tellLamp
  (try dsimp only) <;> (repeat' split) <;> (try dsimp only) <;> repeat' (first | with_reducible exact h | with_reducible assumption | with_reducible apply onLampRec_calm | with_reducible apply offerLamp_calm | (intro _; exact Nat.le_refl _) | (intro _; exact Nat.zero_le _) | (intro _; simp; done) | rfl | (intro hb; exact hb) | (refine lampBounded ?_ ?_ <;> (first | exact List.Sublist.refl _ | exact List.nil_sublist _ | exact List.Sublist.map _ List.filter_sublist | exact List.filter_sublist | exact List.tail_sublist _)) | (refine linkBounded ?_ ?_ <;> (first | exact List.Sublist.refl _ | exact List.nil_sublist _ | exact List.Sublist.map _ List.filter_sublist | exact List.filter_sublist | exact List.tail_sublist _)) | (refine delivBounded ?_ ?_ <;> (first | exact List.Sublist.refl _ | exact List.nil_sublist _ | exact List.Sublist.map _ List.filter_sublist | exact List.filter_sublist | exact List.tail_sublist _)) | (simp; done))

theorem setReported_calm (k : Nat) (r : Reported) : Calm s (u.setReported k r) := by
  unfold State.setReported
  (try dsimp only) <;> (repeat' split) <;> (try dsimp only) <;> repeat' (first | with_reducible exact h | with_reducible assumption | with_reducible apply onLampRec_calm | with_reducible apply latch_calm | (intro _; exact Nat.le_refl _) | (intro _; exact Nat.zero_le _) | (intro _; simp; done) | rfl | (intro hb; exact hb) | (refine lampBounded ?_ ?_ <;> (first | exact List.Sublist.refl _ | exact List.nil_sublist _ | exact List.Sublist.map _ List.filter_sublist | exact List.filter_sublist | exact List.tail_sublist _)) | (refine linkBounded ?_ ?_ <;> (first | exact List.Sublist.refl _ | exact List.nil_sublist _ | exact List.Sublist.map _ List.filter_sublist | exact List.filter_sublist | exact List.tail_sublist _)) | (refine delivBounded ?_ ?_ <;> (first | exact List.Sublist.refl _ | exact List.nil_sublist _ | exact List.Sublist.map _ List.filter_sublist | exact List.filter_sublist | exact List.tail_sublist _)) | (simp; done))

theorem finishLamp_calm (ext : Nat) : Calm s (u.finishLamp ext) := by
  unfold State.finishLamp
  (try dsimp only) <;> (repeat' split) <;> (try dsimp only) <;> repeat' (first | with_reducible exact h | with_reducible assumption | with_reducible apply onLamp_calm | (intro _; exact Nat.le_refl _) | (intro _; exact Nat.zero_le _) | (intro _; simp; done) | rfl | (intro hb; exact hb) | (refine lampBounded ?_ ?_ <;> (first | exact List.Sublist.refl _ | exact List.nil_sublist _ | exact List.Sublist.map _ List.filter_sublist | exact List.filter_sublist | exact List.tail_sublist _)) | (refine linkBounded ?_ ?_ <;> (first | exact List.Sublist.refl _ | exact List.nil_sublist _ | exact List.Sublist.map _ List.filter_sublist | exact List.filter_sublist | exact List.tail_sublist _)) | (refine delivBounded ?_ ?_ <;> (first | exact List.Sublist.refl _ | exact List.nil_sublist _ | exact List.Sublist.map _ List.filter_sublist | exact List.filter_sublist | exact List.tail_sublist _)) | (simp; done))

theorem lampResult_calm (ext : Nat) (r : LampResult) : Calm s (u.lampResult ext r) := by
  unfold State.lampResult
  (try dsimp only) <;> (repeat' split) <;> (try dsimp only) <;> repeat' (first | with_reducible exact h | with_reducible assumption | with_reducible apply lampDispatch_calm | with_reducible apply setReported_calm | with_reducible apply finishLamp_calm | (intro _; exact Nat.le_refl _) | (intro _; exact Nat.zero_le _) | (intro _; simp; done) | rfl | (intro hb; exact hb) | (refine lampBounded ?_ ?_ <;> (first | exact List.Sublist.refl _ | exact List.nil_sublist _ | exact List.Sublist.map _ List.filter_sublist | exact List.filter_sublist | exact List.tail_sublist _)) | (refine linkBounded ?_ ?_ <;> (first | exact List.Sublist.refl _ | exact List.nil_sublist _ | exact List.Sublist.map _ List.filter_sublist | exact List.filter_sublist | exact List.tail_sublist _)) | (refine delivBounded ?_ ?_ <;> (first | exact List.Sublist.refl _ | exact List.nil_sublist _ | exact List.Sublist.map _ List.filter_sublist | exact List.filter_sublist | exact List.tail_sublist _)) | (simp; done))

theorem lampTimeout_calm (ext : Nat) : Calm s (u.lampTimeout ext) := by
  unfold State.lampTimeout
  (try dsimp only) <;> (repeat' split) <;> (try dsimp only) <;> repeat' (first | with_reducible exact h | with_reducible assumption | with_reducible apply lampDispatch_calm | with_reducible apply offerLamp_calm | with_reducible apply setReported_calm | with_reducible apply finishLamp_calm | (intro _; exact Nat.le_refl _) | (intro _; exact Nat.zero_le _) | (intro _; simp; done) | rfl | (intro hb; exact hb) | (refine lampBounded ?_ ?_ <;> (first | exact List.Sublist.refl _ | exact List.nil_sublist _ | exact List.Sublist.map _ List.filter_sublist | exact List.filter_sublist | exact List.tail_sublist _)) | (refine linkBounded ?_ ?_ <;> (first | exact List.Sublist.refl _ | exact List.nil_sublist _ | exact List.Sublist.map _ List.filter_sublist | exact List.filter_sublist | exact List.tail_sublist _)) | (refine delivBounded ?_ ?_ <;> (first | exact List.Sublist.refl _ | exact List.nil_sublist _ | exact List.Sublist.map _ List.filter_sublist | exact List.filter_sublist | exact List.tail_sublist _)) | (simp; done))

theorem scanAdvance_calm : Calm s (u.scanAdvance) := by
  unfold State.scanAdvance
  (try dsimp only) <;> (repeat' split) <;> (try dsimp only) <;> repeat' (first | with_reducible exact h | with_reducible assumption | with_reducible apply onLamp_calm | with_reducible apply beginScan_calm | (intro _; exact Nat.le_refl _) | (intro _; exact Nat.zero_le _) | (intro _; simp; done) | rfl | (intro hb; exact hb) | (refine lampBounded ?_ ?_ <;> (first | exact List.Sublist.refl _ | exact List.nil_sublist _ | exact List.Sublist.map _ List.filter_sublist | exact List.filter_sublist | exact List.tail_sublist _)) | (refine linkBounded ?_ ?_ <;> (first | exact List.Sublist.refl _ | exact List.nil_sublist _ | exact List.Sublist.map _ List.filter_sublist | exact List.filter_sublist | exact List.tail_sublist _)) | (refine delivBounded ?_ ?_ <;> (first | exact List.Sublist.refl _ | exact List.nil_sublist _ | exact List.Sublist.map _ List.filter_sublist | exact List.filter_sublist | exact List.tail_sublist _)) | (simp; done))

theorem scanStep_calm : Calm s (u.scanStep) := by
  unfold State.scanStep
  (try dsimp only) <;> (repeat' split) <;> (try dsimp only) <;> repeat' (first | with_reducible exact h | with_reducible assumption | with_reducible apply onLamp_calm | with_reducible apply scanAdvance_calm | (with_reducible apply queueLamp_calm; on_goal 2 => assumption) | (intro _; exact Nat.le_refl _) | (intro _; exact Nat.zero_le _) | (intro _; simp; done) | rfl | (intro hb; exact hb) | (refine lampBounded ?_ ?_ <;> (first | exact List.Sublist.refl _ | exact List.nil_sublist _ | exact List.Sublist.map _ List.filter_sublist | exact List.filter_sublist | exact List.tail_sublist _)) | (refine linkBounded ?_ ?_ <;> (first | exact List.Sublist.refl _ | exact List.nil_sublist _ | exact List.Sublist.map _ List.filter_sublist | exact List.filter_sublist | exact List.tail_sublist _)) | (refine delivBounded ?_ ?_ <;> (first | exact List.Sublist.refl _ | exact List.nil_sublist _ | exact List.Sublist.map _ List.filter_sublist | exact List.filter_sublist | exact List.tail_sublist _)) | (simp; done))

theorem lampLineReset_calm : Calm s (u.lampLineReset) := by
  unfold State.lampLineReset
  (try dsimp only) <;> (repeat' split) <;> (try dsimp only) <;> repeat' (first | with_reducible exact h | with_reducible assumption | with_reducible apply onLamp_calm | with_reducible apply lampDispatch_calm | with_reducible apply beginScan_calm | (intro _; exact Nat.le_refl _) | (intro _; exact Nat.zero_le _) | (intro _; simp; done) | rfl | (intro hb; exact hb) | (refine lampBounded ?_ ?_ <;> (first | exact List.Sublist.refl _ | exact List.nil_sublist _ | exact List.Sublist.map _ List.filter_sublist | exact List.filter_sublist | exact List.tail_sublist _)) | (refine linkBounded ?_ ?_ <;> (first | exact List.Sublist.refl _ | exact List.nil_sublist _ | exact List.Sublist.map _ List.filter_sublist | exact List.filter_sublist | exact List.tail_sublist _)) | (refine delivBounded ?_ ?_ <;> (first | exact List.Sublist.refl _ | exact List.nil_sublist _ | exact List.Sublist.map _ List.filter_sublist | exact List.filter_sublist | exact List.tail_sublist _)) | (simp; done))

theorem reserve_calm (k : Nat) : Calm s (u.reserve k).2 := by
  unfold State.reserve
  (try dsimp only) <;> (repeat' split) <;> (try dsimp only) <;> repeat' (first | with_reducible exact h | with_reducible assumption | with_reducible apply onMb_calm | (intro _; exact Nat.le_refl _) | (intro _; exact Nat.zero_le _) | (intro _; simp; done) | rfl | (intro hb; exact hb) | (refine lampBounded ?_ ?_ <;> (first | exact List.Sublist.refl _ | exact List.nil_sublist _ | exact List.Sublist.map _ List.filter_sublist | exact List.filter_sublist | exact List.tail_sublist _)) | (refine linkBounded ?_ ?_ <;> (first | exact List.Sublist.refl _ | exact List.nil_sublist _ | exact List.Sublist.map _ List.filter_sublist | exact List.filter_sublist | exact List.tail_sublist _)) | (refine delivBounded ?_ ?_ <;> (first | exact List.Sublist.refl _ | exact List.nil_sublist _ | exact List.Sublist.map _ List.filter_sublist | exact List.filter_sublist | exact List.tail_sublist _)) | (simp; done))

theorem reserve_calm' (k : Nat) {a : Reserve} {t' : State} (e : u.reserve k = (a, t')) : Calm s t' := by
  have := reserve_calm h k
  rw [e] at this
  exact this

theorem returnRes_calm (k grant : Nat) : Calm s (u.returnRes k grant) := by
  unfold State.returnRes
  (try dsimp only) <;> (repeat' split) <;> (try dsimp only) <;> repeat' (first | with_reducible exact h | with_reducible assumption | with_reducible apply onMb_calm | (intro _; exact Nat.le_refl _) | (intro _; exact Nat.zero_le _) | (intro _; simp; done) | rfl | (intro hb; exact hb) | (refine lampBounded ?_ ?_ <;> (first | exact List.Sublist.refl _ | exact List.nil_sublist _ | exact List.Sublist.map _ List.filter_sublist | exact List.filter_sublist | exact List.tail_sublist _)) | (refine linkBounded ?_ ?_ <;> (first | exact List.Sublist.refl _ | exact List.nil_sublist _ | exact List.Sublist.map _ List.filter_sublist | exact List.filter_sublist | exact List.tail_sublist _)) | (refine delivBounded ?_ ?_ <;> (first | exact List.Sublist.refl _ | exact List.nil_sublist _ | exact List.Sublist.map _ List.filter_sublist | exact List.filter_sublist | exact List.tail_sublist _)) | (simp; done))

theorem returnGrant_calm (k grant : Nat) : Calm s (u.returnGrant k grant) := by
  unfold State.returnGrant
  (try dsimp only) <;> (repeat' split) <;> (try dsimp only) <;> repeat' (first | with_reducible exact h | with_reducible assumption | with_reducible apply onMb_calm | (intro _; exact Nat.le_refl _) | (intro _; exact Nat.zero_le _) | (intro _; simp; done) | rfl | (intro hb; exact hb) | (refine lampBounded ?_ ?_ <;> (first | exact List.Sublist.refl _ | exact List.nil_sublist _ | exact List.Sublist.map _ List.filter_sublist | exact List.filter_sublist | exact List.tail_sublist _)) | (refine linkBounded ?_ ?_ <;> (first | exact List.Sublist.refl _ | exact List.nil_sublist _ | exact List.Sublist.map _ List.filter_sublist | exact List.filter_sublist | exact List.tail_sublist _)) | (refine delivBounded ?_ ?_ <;> (first | exact List.Sublist.refl _ | exact List.nil_sublist _ | exact List.Sublist.map _ List.filter_sublist | exact List.filter_sublist | exact List.tail_sublist _)) | (simp; done))

theorem commit_calm (k : Nat) (e : Entry) (reserved : Bool) (grant : Nat) : Calm s (u.commit k e reserved grant) := by
  unfold State.commit
  (try dsimp only) <;> (repeat' split) <;> (try dsimp only) <;> repeat' (first | with_reducible exact h | with_reducible assumption | with_reducible apply onMb_calm | with_reducible apply markMailbox_calm | with_reducible apply tellLamp_calm | (intro _; exact Nat.le_refl _) | (intro _; exact Nat.zero_le _) | (intro _; simp; done) | rfl | (intro hb; exact hb) | (refine lampBounded ?_ ?_ <;> (first | exact List.Sublist.refl _ | exact List.nil_sublist _ | exact List.Sublist.map _ List.filter_sublist | exact List.filter_sublist | exact List.tail_sublist _)) | (refine linkBounded ?_ ?_ <;> (first | exact List.Sublist.refl _ | exact List.nil_sublist _ | exact List.Sublist.map _ List.filter_sublist | exact List.filter_sublist | exact List.tail_sublist _)) | (refine delivBounded ?_ ?_ <;> (first | exact List.Sublist.refl _ | exact List.nil_sublist _ | exact List.Sublist.map _ List.filter_sublist | exact List.filter_sublist | exact List.tail_sublist _)) | (simp; done))

theorem forward_calm (o t k : Nat) (urgent : Bool) : Calm s (u.forward o t k urgent).2 := by
  unfold State.forward
  (try dsimp only) <;> (repeat' split) <;> (try dsimp only) <;> repeat' (first | with_reducible exact h | with_reducible assumption | with_reducible apply commit_calm | (with_reducible apply addRef_calm; on_goal 2 => assumption) | (intro _; exact Nat.le_refl _) | (intro _; exact Nat.zero_le _) | (intro _; simp; done) | rfl | (intro hb; exact hb) | (refine lampBounded ?_ ?_ <;> (first | exact List.Sublist.refl _ | exact List.nil_sublist _ | exact List.Sublist.map _ List.filter_sublist | exact List.filter_sublist | exact List.tail_sublist _)) | (refine linkBounded ?_ ?_ <;> (first | exact List.Sublist.refl _ | exact List.nil_sublist _ | exact List.Sublist.map _ List.filter_sublist | exact List.filter_sublist | exact List.tail_sublist _)) | (refine delivBounded ?_ ?_ <;> (first | exact List.Sublist.refl _ | exact List.nil_sublist _ | exact List.Sublist.map _ List.filter_sublist | exact List.filter_sublist | exact List.tail_sublist _)) | (simp; done))

theorem forward_calm' (o t k : Nat) (urgent : Bool) {a : Forward} {t' : State} (e : u.forward o t k urgent = (a, t')) : Calm s t' := by
  have := forward_calm h o t k urgent
  rw [e] at this
  exact this

omit h in
theorem serveMember_calm (e : Entry) (o : Nat) {acc : Nat × State} (h : Calm s acc.2) (k : Nat) :
    Calm s (State.serveMember e o acc k).2 := by
  unfold State.serveMember
  split
  · exact h
  · exact commit_calm (addRef_calm h _ (by assumption)) _ _ _ _

theorem broadcast_calm (o l k : Nat) (urgent : Bool) : Calm s (u.broadcast o l k urgent).2 := by
  unfold State.broadcast
  generalize u.membersWithRoom l = ks
  generalize (Entry.ofObject .shared urgent (u.originOf k) none o u.cfg.node) = e
  have hh : Calm s ((0, u) : Nat × State).2 := h
  revert hh
  generalize ((0, u) : Nat × State) = acc
  induction ks generalizing acc with
  | nil => exact id
  | cons x xs ih => intro hh; exact ih _ (serveMember_calm e o hh x)

theorem broadcast_calm' (o l k : Nat) (urgent : Bool) {a : Nat} {t : State}
    (e : u.broadcast o l k urgent = (a, t)) : Calm s t := by
  have := broadcast_calm h o l k urgent
  rw [e] at this
  exact this

theorem removeQuiet_calm (k num : Nat) : Calm s (u.removeQuiet k num) := by
  unfold State.removeQuiet
  (try dsimp only) <;> (repeat' split) <;> (try dsimp only) <;> repeat' (first | with_reducible exact h | with_reducible assumption | with_reducible apply onMb_calm | with_reducible apply markMailbox_calm | with_reducible apply dropRefOpt_calm | (intro _; exact Nat.le_refl _) | (intro _; exact Nat.zero_le _) | (intro _; simp; done) | rfl | (intro hb; exact hb) | (refine lampBounded ?_ ?_ <;> (first | exact List.Sublist.refl _ | exact List.nil_sublist _ | exact List.Sublist.map _ List.filter_sublist | exact List.filter_sublist | exact List.tail_sublist _)) | (refine linkBounded ?_ ?_ <;> (first | exact List.Sublist.refl _ | exact List.nil_sublist _ | exact List.Sublist.map _ List.filter_sublist | exact List.filter_sublist | exact List.tail_sublist _)) | (refine delivBounded ?_ ?_ <;> (first | exact List.Sublist.refl _ | exact List.nil_sublist _ | exact List.Sublist.map _ List.filter_sublist | exact List.filter_sublist | exact List.tail_sublist _)) | (simp; done))

theorem tellIfChanged_calm (k before : Nat) : Calm s (u.tellIfChanged k before) := by
  unfold State.tellIfChanged
  (try dsimp only) <;> (repeat' split) <;> (try dsimp only) <;> repeat' (first | with_reducible exact h | with_reducible assumption | with_reducible apply tellLamp_calm | (intro _; exact Nat.le_refl _) | (intro _; exact Nat.zero_le _) | (intro _; simp; done) | rfl | (intro hb; exact hb) | (refine lampBounded ?_ ?_ <;> (first | exact List.Sublist.refl _ | exact List.nil_sublist _ | exact List.Sublist.map _ List.filter_sublist | exact List.filter_sublist | exact List.tail_sublist _)) | (refine linkBounded ?_ ?_ <;> (first | exact List.Sublist.refl _ | exact List.nil_sublist _ | exact List.Sublist.map _ List.filter_sublist | exact List.filter_sublist | exact List.tail_sublist _)) | (refine delivBounded ?_ ?_ <;> (first | exact List.Sublist.refl _ | exact List.nil_sublist _ | exact List.Sublist.map _ List.filter_sublist | exact List.filter_sublist | exact List.tail_sublist _)) | (simp; done))

theorem removeEntry_calm (k num : Nat) : Calm s (u.removeEntry k num) := by
  unfold State.removeEntry
  (try dsimp only) <;> (repeat' split) <;> (try dsimp only) <;> repeat' (first | with_reducible exact h | with_reducible assumption | with_reducible apply removeQuiet_calm | with_reducible apply tellIfChanged_calm | (intro _; exact Nat.le_refl _) | (intro _; exact Nat.zero_le _) | (intro _; simp; done) | rfl | (intro hb; exact hb) | (refine lampBounded ?_ ?_ <;> (first | exact List.Sublist.refl _ | exact List.nil_sublist _ | exact List.Sublist.map _ List.filter_sublist | exact List.filter_sublist | exact List.tail_sublist _)) | (refine linkBounded ?_ ?_ <;> (first | exact List.Sublist.refl _ | exact List.nil_sublist _ | exact List.Sublist.map _ List.filter_sublist | exact List.filter_sublist | exact List.tail_sublist _)) | (refine delivBounded ?_ ?_ <;> (first | exact List.Sublist.refl _ | exact List.nil_sublist _ | exact List.Sublist.map _ List.filter_sublist | exact List.filter_sublist | exact List.tail_sublist _)) | (simp; done))

theorem onEntry_calm (k num : Nat) (f : Entry → Entry) : Calm s (u.onEntry k num f) := by
  unfold State.onEntry
  (try dsimp only) <;> (repeat' split) <;> (try dsimp only) <;> repeat' (first | with_reducible exact h | with_reducible assumption | with_reducible apply onMb_calm | (intro _; exact Nat.le_refl _) | (intro _; exact Nat.zero_le _) | (intro _; simp; done) | rfl | (intro hb; exact hb) | (refine lampBounded ?_ ?_ <;> (first | exact List.Sublist.refl _ | exact List.nil_sublist _ | exact List.Sublist.map _ List.filter_sublist | exact List.filter_sublist | exact List.tail_sublist _)) | (refine linkBounded ?_ ?_ <;> (first | exact List.Sublist.refl _ | exact List.nil_sublist _ | exact List.Sublist.map _ List.filter_sublist | exact List.filter_sublist | exact List.tail_sublist _)) | (refine delivBounded ?_ ?_ <;> (first | exact List.Sublist.refl _ | exact List.nil_sublist _ | exact List.Sublist.map _ List.filter_sublist | exact List.filter_sublist | exact List.tail_sublist _)) | (simp; done))

theorem setEntryState_calm (k num : Nat) (st : EntryState) : Calm s (u.setEntryState k num st) := by
  unfold State.setEntryState
  (try dsimp only) <;> (repeat' split) <;> (try dsimp only) <;> repeat' (first | with_reducible exact h | with_reducible assumption | with_reducible apply markMailbox_calm | with_reducible apply tellIfChanged_calm | with_reducible apply onEntry_calm | (intro _; exact Nat.le_refl _) | (intro _; exact Nat.zero_le _) | (intro _; simp; done) | rfl | (intro hb; exact hb) | (refine lampBounded ?_ ?_ <;> (first | exact List.Sublist.refl _ | exact List.nil_sublist _ | exact List.Sublist.map _ List.filter_sublist | exact List.filter_sublist | exact List.tail_sublist _)) | (refine linkBounded ?_ ?_ <;> (first | exact List.Sublist.refl _ | exact List.nil_sublist _ | exact List.Sublist.map _ List.filter_sublist | exact List.filter_sublist | exact List.tail_sublist _)) | (refine delivBounded ?_ ?_ <;> (first | exact List.Sublist.refl _ | exact List.nil_sublist _ | exact List.Sublist.map _ List.filter_sublist | exact List.filter_sublist | exact List.tail_sublist _)) | (simp; done))

theorem reportHeard_calm (k num : Nat) : Calm s (u.reportHeard k num) := by
  unfold State.reportHeard
  (try dsimp only) <;> (repeat' split) <;> (try dsimp only) <;> repeat' (first | with_reducible exact h | with_reducible assumption | with_reducible apply setEntryState_calm | (intro _; exact Nat.le_refl _) | (intro _; exact Nat.zero_le _) | (intro _; simp; done) | rfl | (intro hb; exact hb) | (refine lampBounded ?_ ?_ <;> (first | exact List.Sublist.refl _ | exact List.nil_sublist _ | exact List.Sublist.map _ List.filter_sublist | exact List.filter_sublist | exact List.tail_sublist _)) | (refine linkBounded ?_ ?_ <;> (first | exact List.Sublist.refl _ | exact List.nil_sublist _ | exact List.Sublist.map _ List.filter_sublist | exact List.filter_sublist | exact List.tail_sublist _)) | (refine delivBounded ?_ ?_ <;> (first | exact List.Sublist.refl _ | exact List.nil_sublist _ | exact List.Sublist.map _ List.filter_sublist | exact List.filter_sublist | exact List.tail_sublist _)) | (simp; done))

theorem saveEntry_calm (k num : Nat) : Calm s (u.saveEntry k num) := by
  unfold State.saveEntry
  (try dsimp only) <;> (repeat' split) <;> (try dsimp only) <;> repeat' (first | with_reducible exact h | with_reducible assumption | with_reducible apply setEntryState_calm | (intro _; exact Nat.le_refl _) | (intro _; exact Nat.zero_le _) | (intro _; simp; done) | rfl | (intro hb; exact hb) | (refine lampBounded ?_ ?_ <;> (first | exact List.Sublist.refl _ | exact List.nil_sublist _ | exact List.Sublist.map _ List.filter_sublist | exact List.filter_sublist | exact List.tail_sublist _)) | (refine linkBounded ?_ ?_ <;> (first | exact List.Sublist.refl _ | exact List.nil_sublist _ | exact List.Sublist.map _ List.filter_sublist | exact List.filter_sublist | exact List.tail_sublist _)) | (refine delivBounded ?_ ?_ <;> (first | exact List.Sublist.refl _ | exact List.nil_sublist _ | exact List.Sublist.map _ List.filter_sublist | exact List.filter_sublist | exact List.tail_sublist _)) | (simp; done))

theorem eraseMark_calm (k num : Nat) : Calm s (u.eraseMark k num) := by
  unfold State.eraseMark
  (try dsimp only) <;> (repeat' split) <;> (try dsimp only) <;> repeat' (first | with_reducible exact h | with_reducible assumption | with_reducible apply onMb_calm | (intro _; exact Nat.le_refl _) | (intro _; exact Nat.zero_le _) | (intro _; simp; done) | rfl | (intro hb; exact hb) | (refine lampBounded ?_ ?_ <;> (first | exact List.Sublist.refl _ | exact List.nil_sublist _ | exact List.Sublist.map _ List.filter_sublist | exact List.filter_sublist | exact List.tail_sublist _)) | (refine linkBounded ?_ ?_ <;> (first | exact List.Sublist.refl _ | exact List.nil_sublist _ | exact List.Sublist.map _ List.filter_sublist | exact List.filter_sublist | exact List.tail_sublist _)) | (refine delivBounded ?_ ?_ <;> (first | exact List.Sublist.refl _ | exact List.nil_sublist _ | exact List.Sublist.map _ List.filter_sublist | exact List.filter_sublist | exact List.tail_sublist _)) | (simp; done))

theorem askLock_calm (k i : Nat) : Calm s (u.askLock k i).2 := by
  unfold State.askLock
  repeat' split
  all_goals first | exact h | exact onMb_calm h _ _

theorem askLock_calm' (k i : Nat) {a : LockAnswer} {t' : State} (e : u.askLock k i = (a, t')) :
    Calm s t' := by
  have := askLock_calm h k i
  rw [e] at this
  exact this

omit h in
/-- A request is refused, or names no entry, and nothing changes, or it is taken and `f` is done. -/
theorem entryRequest_cases (v : State) (k i num : Nat) (f : State → State) :
    (v.entryRequest k i num f).2 = v ∨
      ((v.mb k).lock = some i ∧ v.entryRequest k i num f = (.taken, f v)) := by
  unfold State.entryRequest
  split
  · rename_i hl
    split
    · exact .inl rfl
    · exact .inr ⟨hl, rfl⟩
  · exact .inl rfl

theorem entryRequest_calm (k i num : Nat) (f : State → State) (hf : Calm s (f u)) :
    Calm s (u.entryRequest k i num f).2 := by
  rcases entryRequest_cases u k i num f with e | ⟨-, e⟩ <;> rw [e]
  · exact h
  · exact hf

theorem askHeard_calm (k i num : Nat) : Calm s (u.askHeard k i num).2 :=
  entryRequest_calm h k i num _ (reportHeard_calm h k num)

theorem askSave_calm (k i num : Nat) : Calm s (u.askSave k i num).2 :=
  entryRequest_calm h k i num _ (saveEntry_calm h k num)

theorem askErase_calm (k i num : Nat) : Calm s (u.askErase k i num).2 :=
  entryRequest_calm h k i num _ (eraseMark_calm h k num)

theorem sessionEnd_calm (k i : Nat) : Calm s (u.sessionEnd k i) := by
  unfold State.sessionEnd
  split
  · exact tellLamp_calm (onMb_calm (foldl_calm h _ (fun v x hv => removeEntry_calm hv k x) _) _ _) _
  · exact h

theorem tellGone_calm (i num : Nat) : Calm s (u.tellGone i num) := by
  unfold State.tellGone
  (try dsimp only) <;> (repeat' split) <;> (try dsimp only) <;> repeat' (first | with_reducible exact h | with_reducible assumption | with_reducible apply onCh_calm | (intro _; exact Nat.le_refl _) | (intro _; exact Nat.zero_le _) | (intro _; simp; done) | rfl | (intro hb; exact hb) | (refine lampBounded ?_ ?_ <;> (first | exact List.Sublist.refl _ | exact List.nil_sublist _ | exact List.Sublist.map _ List.filter_sublist | exact List.filter_sublist | exact List.tail_sublist _)) | (refine linkBounded ?_ ?_ <;> (first | exact List.Sublist.refl _ | exact List.nil_sublist _ | exact List.Sublist.map _ List.filter_sublist | exact List.filter_sublist | exact List.tail_sublist _)) | (refine delivBounded ?_ ?_ <;> (first | exact List.Sublist.refl _ | exact List.nil_sublist _ | exact List.Sublist.map _ List.filter_sublist | exact List.filter_sublist | exact List.tail_sublist _)) | (simp; done))

theorem dropNotice_calm (k num : Nat) : Calm s (u.dropNotice k num) := by
  unfold State.dropNotice
  (try dsimp only) <;> (repeat' split) <;> (try dsimp only) <;> repeat' (first | with_reducible exact h | with_reducible assumption | with_reducible apply onMb_calm | with_reducible apply removeQuiet_calm | with_reducible apply tellGone_calm | (intro _; exact Nat.le_refl _) | (intro _; exact Nat.zero_le _) | (intro _; simp; done) | rfl | (intro hb; exact hb) | (refine lampBounded ?_ ?_ <;> (first | exact List.Sublist.refl _ | exact List.nil_sublist _ | exact List.Sublist.map _ List.filter_sublist | exact List.filter_sublist | exact List.tail_sublist _)) | (refine linkBounded ?_ ?_ <;> (first | exact List.Sublist.refl _ | exact List.nil_sublist _ | exact List.Sublist.map _ List.filter_sublist | exact List.filter_sublist | exact List.tail_sublist _)) | (refine delivBounded ?_ ?_ <;> (first | exact List.Sublist.refl _ | exact List.nil_sublist _ | exact List.Sublist.map _ List.filter_sublist | exact List.filter_sublist | exact List.tail_sublist _)) | (simp; done))

theorem commitQuiet_calm (k : Nat) (e : Entry) : Calm s (u.commitQuiet k e) := by
  unfold State.commitQuiet
  (try dsimp only) <;> (repeat' split) <;> (try dsimp only) <;> repeat' (first | with_reducible exact h | with_reducible assumption | with_reducible apply onMb_calm | with_reducible apply markMailbox_calm | (intro _; exact Nat.le_refl _) | (intro _; exact Nat.zero_le _) | (intro _; simp; done) | rfl | (intro hb; exact hb) | (refine lampBounded ?_ ?_ <;> (first | exact List.Sublist.refl _ | exact List.nil_sublist _ | exact List.Sublist.map _ List.filter_sublist | exact List.filter_sublist | exact List.tail_sublist _)) | (refine linkBounded ?_ ?_ <;> (first | exact List.Sublist.refl _ | exact List.nil_sublist _ | exact List.Sublist.map _ List.filter_sublist | exact List.filter_sublist | exact List.tail_sublist _)) | (refine delivBounded ?_ ?_ <;> (first | exact List.Sublist.refl _ | exact List.nil_sublist _ | exact List.Sublist.map _ List.filter_sublist | exact List.filter_sublist | exact List.tail_sublist _)) | (simp; done))

theorem addNotice_calm (k : Nat) (r : Reason) (target : Nat) (subject unreached : Option Nat) : Calm s (u.addNotice k r target subject unreached) := by
  unfold State.addNotice
  (try dsimp only) <;> (repeat' split) <;> (try dsimp only) <;> repeat' (first | with_reducible exact h | with_reducible assumption | with_reducible apply commit_calm | with_reducible apply tellIfChanged_calm | with_reducible apply dropNotice_calm | with_reducible apply commitQuiet_calm | (intro _; exact Nat.le_refl _) | (intro _; exact Nat.zero_le _) | (intro _; simp; done) | rfl | (intro hb; exact hb) | (refine lampBounded ?_ ?_ <;> (first | exact List.Sublist.refl _ | exact List.nil_sublist _ | exact List.Sublist.map _ List.filter_sublist | exact List.filter_sublist | exact List.tail_sublist _)) | (refine linkBounded ?_ ?_ <;> (first | exact List.Sublist.refl _ | exact List.nil_sublist _ | exact List.Sublist.map _ List.filter_sublist | exact List.filter_sublist | exact List.tail_sublist _)) | (refine delivBounded ?_ ?_ <;> (first | exact List.Sublist.refl _ | exact List.nil_sublist _ | exact List.Sublist.map _ List.filter_sublist | exact List.filter_sublist | exact List.tail_sublist _)) | (simp; done))

theorem emptySlot_calm (k : Nat) (g : GreetSlot) : Calm s (u.emptySlot k g) := by
  unfold State.emptySlot
  (try dsimp only) <;> (repeat' split) <;> (try dsimp only) <;> repeat' (first | with_reducible exact h | with_reducible assumption | with_reducible apply onMb_calm | with_reducible apply markMailbox_calm | with_reducible apply dropRefOpt_calm | (intro _; exact Nat.le_refl _) | (intro _; exact Nat.zero_le _) | (intro _; simp; done) | rfl | (intro hb; exact hb) | (refine lampBounded ?_ ?_ <;> (first | exact List.Sublist.refl _ | exact List.nil_sublist _ | exact List.Sublist.map _ List.filter_sublist | exact List.filter_sublist | exact List.tail_sublist _)) | (refine linkBounded ?_ ?_ <;> (first | exact List.Sublist.refl _ | exact List.nil_sublist _ | exact List.Sublist.map _ List.filter_sublist | exact List.filter_sublist | exact List.tail_sublist _)) | (refine delivBounded ?_ ?_ <;> (first | exact List.Sublist.refl _ | exact List.nil_sublist _ | exact List.Sublist.map _ List.filter_sublist | exact List.filter_sublist | exact List.tail_sublist _)) | (simp; done))

theorem acceptSlot_calm (k : Nat) (g : GreetSlot) (n : Nat) (endDay : Option Nat) : Calm s (u.acceptSlot k g n endDay) := by
  unfold State.acceptSlot
  (try dsimp only) <;> (repeat' split) <;> (try dsimp only) <;> repeat' (first | with_reducible exact h | with_reducible assumption | with_reducible apply onMb_calm | with_reducible apply markObject_calm | with_reducible apply markMailbox_calm | with_reducible apply dropRefOpt_calm | (intro _; exact Nat.le_refl _) | (intro _; exact Nat.zero_le _) | (intro _; simp; done) | rfl | (intro hb; exact hb) | (refine lampBounded ?_ ?_ <;> (first | exact List.Sublist.refl _ | exact List.nil_sublist _ | exact List.Sublist.map _ List.filter_sublist | exact List.filter_sublist | exact List.tail_sublist _)) | (refine linkBounded ?_ ?_ <;> (first | exact List.Sublist.refl _ | exact List.nil_sublist _ | exact List.Sublist.map _ List.filter_sublist | exact List.filter_sublist | exact List.tail_sublist _)) | (refine delivBounded ?_ ?_ <;> (first | exact List.Sublist.refl _ | exact List.nil_sublist _ | exact List.Sublist.map _ List.filter_sublist | exact List.filter_sublist | exact List.tail_sublist _)) | (simp; done))

theorem setEndDay_calm (k : Nat) (d : Option Nat) : Calm s (u.setEndDay k d) := by
  unfold State.setEndDay
  (try dsimp only) <;> (repeat' split) <;> (try dsimp only) <;> repeat' (first | with_reducible exact h | with_reducible assumption | with_reducible apply onMb_calm | with_reducible apply markMailbox_calm | (intro _; exact Nat.le_refl _) | (intro _; exact Nat.zero_le _) | (intro _; simp; done) | rfl | (intro hb; exact hb) | (refine lampBounded ?_ ?_ <;> (first | exact List.Sublist.refl _ | exact List.nil_sublist _ | exact List.Sublist.map _ List.filter_sublist | exact List.filter_sublist | exact List.tail_sublist _)) | (refine linkBounded ?_ ?_ <;> (first | exact List.Sublist.refl _ | exact List.nil_sublist _ | exact List.Sublist.map _ List.filter_sublist | exact List.filter_sublist | exact List.tail_sublist _)) | (refine delivBounded ?_ ?_ <;> (first | exact List.Sublist.refl _ | exact List.nil_sublist _ | exact List.Sublist.map _ List.filter_sublist | exact List.filter_sublist | exact List.tail_sublist _)) | (simp; done))

omit h in
/-- What a request that changes a slot can do: nothing at all, or the change under the lock (R52). -/
theorem slotRequest_cases (v : State) (k i : Nat) (f : State → State) :
    v.slotRequest k i f = (false, v) ∨
      ((v.mb k).lock = some i ∧ v.slotRequest k i f = (true, f v)) := by
  unfold State.slotRequest
  split
  · rename_i hl
    exact .inr ⟨hl, rfl⟩
  · exact .inl rfl

theorem slotRequest_calm (k i : Nat) (f : State → State) (hf : Calm s (f u)) :
    Calm s (u.slotRequest k i f).2 := by
  rcases slotRequest_cases u k i f with e | ⟨-, e⟩ <;> rw [e]
  · exact h
  · exact hf

theorem askAccept_calm (k i : Nat) (g : GreetSlot) (n : Nat) (d : Option Nat) :
    Calm s (u.askAccept k i g n d).2 :=
  slotRequest_calm h k i _ (acceptSlot_calm h k g n d)

theorem askEmpty_calm (k i : Nat) (g : GreetSlot) : Calm s (u.askEmpty k i g).2 :=
  slotRequest_calm h k i _ (emptySlot_calm h k g)

theorem askEndDay_calm (k i : Nat) (d : Option Nat) : Calm s (u.askEndDay k i d).2 :=
  slotRequest_calm h k i _ (setEndDay_calm h k d)

theorem hand_calm (r : Requester) (f : Frame) (urgent : Bool) : Calm s (u.hand r f urgent).2 := by
  unfold State.hand
  split
  · exact h
  · rename_i hf
    split
    · exact h
    · dsimp only
      refine onLink_calm h _ ?_ ?_
      · rfl
      intro b
      refine ⟨?_, b.2⟩
      simp only [List.map_append, List.map_cons, List.map_nil]
      refine List.Nodup.append b.1 (by simp) fun x hx hy => ?_
      simp only [List.mem_singleton] at hy
      obtain ⟨p, hp, e⟩ := List.mem_map.1 hx
      simp only [State.hasFrame, Bool.not_eq_true, List.any_eq_false, beq_iff_eq] at hf
      exact hf p hp (e.trans hy)

theorem hand_calm' (r : Requester) (f : Frame) (urgent : Bool) {a : Option Tx} {t' : State}
    (e : u.hand r f urgent = (a, t')) : Calm s t' := by
  have := hand_calm h r f urgent
  rw [e] at this
  exact this

theorem handIgnoring_calm (r : Requester) (f : Frame) : Calm s (u.handIgnoring r f) := by
  unfold State.handIgnoring
  (try dsimp only) <;> (repeat' split) <;> (try dsimp only) <;> repeat' (first | with_reducible exact h | with_reducible assumption | with_reducible apply hand_calm | (with_reducible apply hand_calm'; on_goal 2 => assumption) | (intro _; exact Nat.le_refl _) | (intro _; exact Nat.zero_le _) | (intro _; simp; done) | rfl | (intro hb; exact hb) | (refine lampBounded ?_ ?_ <;> (first | exact List.Sublist.refl _ | exact List.nil_sublist _ | exact List.Sublist.map _ List.filter_sublist | exact List.filter_sublist | exact List.tail_sublist _)) | (refine linkBounded ?_ ?_ <;> (first | exact List.Sublist.refl _ | exact List.nil_sublist _ | exact List.Sublist.map _ List.filter_sublist | exact List.filter_sublist | exact List.tail_sublist _)) | (refine delivBounded ?_ ?_ <;> (first | exact List.Sublist.refl _ | exact List.nil_sublist _ | exact List.Sublist.map _ List.filter_sublist | exact List.filter_sublist | exact List.tail_sublist _)) | (simp; done))

theorem onItem_calm (r : Requester) (f : SendItem → SendItem) (hf : ∀ x, (f x).req = x.req) :
    Calm s (u.onItem r f) := by
  unfold State.onItem
  refine onLink_calm h _ rfl (linkBounded (sublistOfEq ?_) (List.Sublist.refl _))
  rw [List.map_map]
  refine List.map_congr_left fun x hx => ?_
  simp only [Function.comp]
  split
  · exact hf x
  · rfl

theorem dropItem_calm (r : Requester) : Calm s (u.dropItem r) := by
  unfold State.dropItem
  (try dsimp only) <;> (repeat' split) <;> (try dsimp only) <;> repeat' (first | with_reducible exact h | with_reducible assumption | with_reducible apply onLink_calm | (intro _; exact Nat.le_refl _) | (intro _; exact Nat.zero_le _) | (intro _; simp; done) | rfl | (intro hb; exact hb) | (refine lampBounded ?_ ?_ <;> (first | exact List.Sublist.refl _ | exact List.nil_sublist _ | exact List.Sublist.map _ List.filter_sublist | exact List.filter_sublist | exact List.tail_sublist _)) | (refine linkBounded ?_ ?_ <;> (first | exact List.Sublist.refl _ | exact List.nil_sublist _ | exact List.Sublist.map _ List.filter_sublist | exact List.filter_sublist | exact List.tail_sublist _)) | (refine delivBounded ?_ ?_ <;> (first | exact List.Sublist.refl _ | exact List.nil_sublist _ | exact List.Sublist.map _ List.filter_sublist | exact List.filter_sublist | exact List.tail_sublist _)) | (simp; done))

theorem stopDriving_calm : Calm s (u.stopDriving) := by
  unfold State.stopDriving
  (try dsimp only) <;> (repeat' split) <;> (try dsimp only) <;> repeat' (first | with_reducible exact h | with_reducible assumption | with_reducible apply onLink_calm | (intro _; exact Nat.le_refl _) | (intro _; exact Nat.zero_le _) | (intro _; simp; done) | rfl | (intro hb; exact hb) | (refine lampBounded ?_ ?_ <;> (first | exact List.Sublist.refl _ | exact List.nil_sublist _ | exact List.Sublist.map _ List.filter_sublist | exact List.filter_sublist | exact List.tail_sublist _)) | (refine linkBounded ?_ ?_ <;> (first | exact List.Sublist.refl _ | exact List.nil_sublist _ | exact List.Sublist.map _ List.filter_sublist | exact List.filter_sublist | exact List.tail_sublist _)) | (refine delivBounded ?_ ?_ <;> (first | exact List.Sublist.refl _ | exact List.nil_sublist _ | exact List.Sublist.map _ List.filter_sublist | exact List.filter_sublist | exact List.tail_sublist _)) | (simp; done))

theorem purgeRoutes_calm (n : Nat) : Calm s (u.purgeRoutes n) := by
  unfold State.purgeRoutes
  (try dsimp only) <;> (repeat' split) <;> (try dsimp only) <;> repeat' (first | with_reducible exact h | with_reducible assumption | with_reducible apply onDeliv_calm | (intro _; exact Nat.le_refl _) | (intro _; exact Nat.zero_le _) | (intro _; simp; done) | rfl | (intro hb; exact hb) | (refine lampBounded ?_ ?_ <;> (first | exact List.Sublist.refl _ | exact List.nil_sublist _ | exact List.Sublist.map _ List.filter_sublist | exact List.filter_sublist | exact List.tail_sublist _)) | (refine linkBounded ?_ ?_ <;> (first | exact List.Sublist.refl _ | exact List.nil_sublist _ | exact List.Sublist.map _ List.filter_sublist | exact List.filter_sublist | exact List.tail_sublist _)) | (refine delivBounded ?_ ?_ <;> (first | exact List.Sublist.refl _ | exact List.nil_sublist _ | exact List.Sublist.map _ List.filter_sublist | exact List.filter_sublist | exact List.tail_sublist _)) | (simp; done))

theorem unlocate_calm (n : Nat) : Calm s (u.unlocate n) := by
  unfold State.unlocate
  (try dsimp only) <;> (repeat' split) <;> (try dsimp only) <;> repeat' (first | with_reducible exact h | with_reducible assumption | with_reducible apply onDeliv_calm | (intro _; exact Nat.le_refl _) | (intro _; exact Nat.zero_le _) | (intro _; simp; done) | rfl | (intro hb; exact hb) | (refine lampBounded ?_ ?_ <;> (first | exact List.Sublist.refl _ | exact List.nil_sublist _ | exact List.Sublist.map _ List.filter_sublist | exact List.filter_sublist | exact List.tail_sublist _)) | (refine linkBounded ?_ ?_ <;> (first | exact List.Sublist.refl _ | exact List.nil_sublist _ | exact List.Sublist.map _ List.filter_sublist | exact List.filter_sublist | exact List.tail_sublist _)) | (refine delivBounded ?_ ?_ <;> (first | exact List.Sublist.refl _ | exact List.nil_sublist _ | exact List.Sublist.map _ List.filter_sublist | exact List.filter_sublist | exact List.tail_sublist _)) | (simp; done))

theorem stopAlone_calm : Calm s (u.stopAlone) := by
  unfold State.stopAlone
  (try dsimp only) <;> (repeat' split) <;> (try dsimp only) <;> repeat' (first | with_reducible exact h | with_reducible assumption | with_reducible apply onLink_calm | (intro _; exact Nat.le_refl _) | (intro _; exact Nat.zero_le _) | (intro _; simp; done) | rfl | (intro hb; exact hb) | (refine lampBounded ?_ ?_ <;> (first | exact List.Sublist.refl _ | exact List.nil_sublist _ | exact List.Sublist.map _ List.filter_sublist | exact List.filter_sublist | exact List.tail_sublist _)) | (refine linkBounded ?_ ?_ <;> (first | exact List.Sublist.refl _ | exact List.nil_sublist _ | exact List.Sublist.map _ List.filter_sublist | exact List.filter_sublist | exact List.tail_sublist _)) | (refine delivBounded ?_ ?_ <;> (first | exact List.Sublist.refl _ | exact List.nil_sublist _ | exact List.Sublist.map _ List.filter_sublist | exact List.filter_sublist | exact List.tail_sublist _)) | (simp; done))

theorem refresh_calm (n : Nat) : Calm s (u.refresh n) := by
  unfold State.refresh
  (try dsimp only) <;> (repeat' split) <;> (try dsimp only) <;> repeat' (first | with_reducible exact h | with_reducible assumption | with_reducible apply onPresence_calm | with_reducible apply purgeRoutes_calm | with_reducible apply stopAlone_calm | (intro _; exact Nat.le_refl _) | (intro _; exact Nat.zero_le _) | (intro _; simp; done) | rfl | (intro hb; exact hb) | (refine lampBounded ?_ ?_ <;> (first | exact List.Sublist.refl _ | exact List.nil_sublist _ | exact List.Sublist.map _ List.filter_sublist | exact List.filter_sublist | exact List.tail_sublist _)) | (refine linkBounded ?_ ?_ <;> (first | exact List.Sublist.refl _ | exact List.nil_sublist _ | exact List.Sublist.map _ List.filter_sublist | exact List.filter_sublist | exact List.tail_sublist _)) | (refine delivBounded ?_ ?_ <;> (first | exact List.Sublist.refl _ | exact List.nil_sublist _ | exact List.Sublist.map _ List.filter_sublist | exact List.filter_sublist | exact List.tail_sublist _)) | (simp; done))

theorem markAbsent_calm (n : Nat) : Calm s (u.markAbsent n) := by
  unfold State.markAbsent
  (try dsimp only) <;> (repeat' split) <;> (try dsimp only) <;> repeat' (first | with_reducible exact h | with_reducible assumption | with_reducible apply onPresence_calm | with_reducible apply onLink_calm | with_reducible apply purgeRoutes_calm | with_reducible apply unlocate_calm | (intro _; exact Nat.le_refl _) | (intro _; exact Nat.zero_le _) | (intro _; simp; done) | rfl | (intro hb; exact hb) | (refine lampBounded ?_ ?_ <;> (first | exact List.Sublist.refl _ | exact List.nil_sublist _ | exact List.Sublist.map _ List.filter_sublist | exact List.filter_sublist | exact List.tail_sublist _)) | (refine linkBounded ?_ ?_ <;> (first | exact List.Sublist.refl _ | exact List.nil_sublist _ | exact List.Sublist.map _ List.filter_sublist | exact List.filter_sublist | exact List.tail_sublist _)) | (refine delivBounded ?_ ?_ <;> (first | exact List.Sublist.refl _ | exact List.nil_sublist _ | exact List.Sublist.map _ List.filter_sublist | exact List.filter_sublist | exact List.tail_sublist _)) | (simp; done))

theorem takeHail_calm (n g : Nat) : Calm s (u.takeHail n g) := by
  unfold State.takeHail
  (try dsimp only) <;> (repeat' split) <;> (try dsimp only) <;> repeat' (first | with_reducible exact h | with_reducible assumption | with_reducible apply onPresence_calm | with_reducible apply purgeRoutes_calm | (intro _; exact Nat.le_refl _) | (intro _; exact Nat.zero_le _) | (intro _; simp; done) | rfl | (intro hb; exact hb) | (refine lampBounded ?_ ?_ <;> (first | exact List.Sublist.refl _ | exact List.nil_sublist _ | exact List.Sublist.map _ List.filter_sublist | exact List.filter_sublist | exact List.tail_sublist _)) | (refine linkBounded ?_ ?_ <;> (first | exact List.Sublist.refl _ | exact List.nil_sublist _ | exact List.Sublist.map _ List.filter_sublist | exact List.filter_sublist | exact List.tail_sublist _)) | (refine delivBounded ?_ ?_ <;> (first | exact List.Sublist.refl _ | exact List.nil_sublist _ | exact List.Sublist.map _ List.filter_sublist | exact List.filter_sublist | exact List.tail_sublist _)) | (simp; done))

theorem useRoute_calm (ext n : Nat) : Calm s (u.useRoute ext n) := by
  unfold State.useRoute
  refine onDeliv_calm h _ ⟨rfl, rfl, rfl, rfl⟩ fun b => ⟨b.1, ?_, ?_⟩
  · exact le_trans (List.length_take_le _ _) (le_refl _)
  · refine List.Nodup.sublist ((List.take_sublist _ _).map _) ?_
    rw [List.map_cons, List.nodup_cons]
    refine ⟨fun hx => ?_, b.2.2.sublist (List.filter_sublist.map _)⟩
    obtain ⟨p, hp, e⟩ := List.mem_map.1 hx
    have := (List.mem_filter.1 hp).2
    simp [e] at this

theorem purgeRoute_calm (ext n : Nat) : Calm s (u.purgeRoute ext n) := by
  unfold State.purgeRoute
  (try dsimp only) <;> (repeat' split) <;> (try dsimp only) <;> repeat' (first | with_reducible exact h | with_reducible assumption | with_reducible apply onDeliv_calm | (intro _; exact Nat.le_refl _) | (intro _; exact Nat.zero_le _) | (intro _; simp; done) | rfl | (intro hb; exact hb) | (refine lampBounded ?_ ?_ <;> (first | exact List.Sublist.refl _ | exact List.nil_sublist _ | exact List.Sublist.map _ List.filter_sublist | exact List.filter_sublist | exact List.tail_sublist _)) | (refine linkBounded ?_ ?_ <;> (first | exact List.Sublist.refl _ | exact List.nil_sublist _ | exact List.Sublist.map _ List.filter_sublist | exact List.filter_sublist | exact List.tail_sublist _)) | (refine delivBounded ?_ ?_ <;> (first | exact List.Sublist.refl _ | exact List.nil_sublist _ | exact List.Sublist.map _ List.filter_sublist | exact List.filter_sublist | exact List.tail_sublist _)) | (simp; done))

end Sys2Proof.Machine
end

