-- ==== Sys2Proof/Laws/CalmDelivery.lean ====
section
/-! SUPPORT. The operations of the Delivery Engine and what follows every act leave the still part alone. -/

namespace Sys2Proof.Machine

set_option linter.all false

variable {s u : State} (h : Calm s u)
include h

theorem addPending_calm (k n : Nat) : Calm s (u.addPending k n) := onMb_calm h _ _

theorem raisePending_calm (k : Nat) {r : Admission × State} (hr : Calm s r.2) :
    Calm s (raisePending k r).2 := by
  unfold raisePending
  split
  · exact addPending_calm hr _ _
  · exact hr

theorem admitDeposit_calm (k : Nat) : Calm s (u.admitDeposit k).2 := by
  unfold State.admitDeposit
  dsimp only
  split
  · exact h
  · refine raisePending_calm h k (openObj_calm h _ _ _ ?_ (by simp))
    unfold State.depositBlocks
    omega

theorem admitSend_calm (k : Nat) : Calm s (u.admitSend k).2 := by
  unfold State.admitSend
  dsimp only
  split
  · exact h
  · exact openObj_calm h _ _ _ (by omega) (by simp)

theorem admitGreeting_calm (k : Nat) (g : GreetSlot) : Calm s (u.admitGreeting k g).2 := by
  unfold State.admitGreeting
  dsimp only
  split
  · exact h
  · exact openObj_calm h _ _ _ (by omega) (by split <;> simp)

theorem admitDirect_calm (k segs : Nat) : Calm s (u.admitDirect k segs).2 := by
  unfold State.admitDirect
  dsimp only
  split
  · exact h
  · split
    · exact h
    · rename_i hg
      refine raisePending_calm h k (openObj_calm h _ _ _ ?_ (by simp))
      unfold State.guardedRoom at hg
      omega

theorem admitList_calm (segs : Nat) : Calm s (u.admitList segs).2 := by
  unfold State.admitList
  dsimp only
  split
  · exact h
  · rename_i hg
    simp only [gt_iff_lt, Bool.or_eq_true, decide_eq_true_eq, not_or, not_lt] at hg
    refine openObj_calm h _ _ _ ?_ fun _ => hg.2
    have := hg.1
    unfold State.guardedRoom at this
    omega

omit h in
theorem hand_deliv (u : State) (r : Requester) (f : Frame) (urgent : Bool) :
    (u.hand r f urgent).2.deliv = u.deliv := by
  unfold State.hand
  split
  · rfl
  · split <;> rfl

theorem pumpAnswers_calm (n : Nat) : Calm s (State.pumpAnswers n u) := by
  induction n generalizing u with
  | zero => exact h
  | succ n ih =>
    unfold State.pumpAnswers
    split
    · exact h
    · split
      · exact h
      · split
        · exact hand_calm' h _ _ _ (by assumption)
        · rename_i f rest hans _ _ x t1 e1
          refine ih (onDeliv_calm (hand_calm' h _ _ _ e1) _ ⟨rfl, rfl, rfl, rfl⟩ ?_)
          have hd : t1.deliv = u.deliv := by
            have e2 := hand_deliv u .answers f false
            rw [e1] at e2
            exact e2
          refine delivBounded ?_ (List.Sublist.refl _)
          rw [hd, hans]
          exact List.sublist_cons_self _ _

theorem admitDeposit_calm' (k : Nat) {a : Admission} {t' : State} (e : u.admitDeposit k = (a, t')) : Calm s t' := by
  have := admitDeposit_calm h k
  rw [e] at this
  exact this

theorem admitSend_calm' (k : Nat) {a : Admission} {t' : State} (e : u.admitSend k = (a, t')) : Calm s t' := by
  have := admitSend_calm h k
  rw [e] at this
  exact this

theorem admitGreeting_calm' (k : Nat) (g : GreetSlot) {a : Admission} {t' : State} (e : u.admitGreeting k g = (a, t')) : Calm s t' := by
  have := admitGreeting_calm h k g
  rw [e] at this
  exact this

theorem admitDirect_calm' (k segs : Nat) {a : Admission} {t' : State} (e : u.admitDirect k segs = (a, t')) : Calm s t' := by
  have := admitDirect_calm h k segs
  rw [e] at this
  exact this

theorem admitList_calm' (segs : Nat) {a : Admission} {t' : State} (e : u.admitList segs = (a, t')) : Calm s t' := by
  have := admitList_calm h segs
  rw [e] at this
  exact this

theorem answer_calm (f : Frame) : Calm s (u.answer f) := by
  unfold State.answer
  split
  · rename_i hl
    refine pumpAnswers_calm (onDeliv_calm h _ ⟨rfl, rfl, rfl, rfl⟩ fun b => ⟨?_, b.2⟩) _
    simp only [List.length_append, List.length_singleton]; omega
  · exact h

theorem answerDone_calm : Calm s (u.answerDone) := by
  unfold State.answerDone
  (try dsimp only) <;> (repeat' split) <;> (try dsimp only) <;> repeat' (first | with_reducible exact h | with_reducible assumption | with_reducible apply onDeliv_calm | with_reducible apply pumpAnswers_calm | (intro _; exact Nat.le_refl _) | (intro _; exact Nat.zero_le _) | (intro _; simp; done) | rfl | (intro hb; exact hb) | (refine lampBounded ?_ ?_ <;> (first | exact List.Sublist.refl _ | exact List.nil_sublist _ | exact List.Sublist.map _ List.filter_sublist | exact List.filter_sublist | exact List.tail_sublist _)) | (refine linkBounded ?_ ?_ <;> (first | exact List.Sublist.refl _ | exact List.nil_sublist _ | exact List.Sublist.map _ List.filter_sublist | exact List.filter_sublist | exact List.tail_sublist _)) | (refine delivBounded ?_ ?_ <;> (first | exact List.Sublist.refl _ | exact List.nil_sublist _ | exact List.Sublist.map _ List.filter_sublist | exact List.filter_sublist | exact List.tail_sublist _)) | (simp; done))

theorem groupFinish_calm (g : Nat) (failed : Bool) : Calm s (u.groupFinish g failed) := by
  unfold State.groupFinish
  (try dsimp only) <;> (repeat' split) <;> (try dsimp only) <;> repeat' (first | with_reducible exact h | with_reducible assumption | with_reducible apply onDeliv_calm | with_reducible apply addNotice_calm | (intro _; exact Nat.le_refl _) | (intro _; exact Nat.zero_le _) | (intro _; simp; done) | rfl | (intro hb; exact hb) | (refine lampBounded ?_ ?_ <;> (first | exact List.Sublist.refl _ | exact List.nil_sublist _ | exact List.Sublist.map _ List.filter_sublist | exact List.filter_sublist | exact List.tail_sublist _)) | (refine linkBounded ?_ ?_ <;> (first | exact List.Sublist.refl _ | exact List.nil_sublist _ | exact List.Sublist.map _ List.filter_sublist | exact List.filter_sublist | exact List.tail_sublist _)) | (refine delivBounded ?_ ?_ <;> (first | exact List.Sublist.refl _ | exact List.nil_sublist _ | exact List.Sublist.map _ List.filter_sublist | exact List.filter_sublist | exact List.tail_sublist _)) | (simp; done))

theorem groupTold_calm (e : QEntry) (failed : Bool) : Calm s (u.groupTold e failed) := by
  unfold State.groupTold
  (try dsimp only) <;> (repeat' split) <;> (try dsimp only) <;> repeat' (first | with_reducible exact h | with_reducible assumption | with_reducible apply groupFinish_calm | (intro _; exact Nat.le_refl _) | (intro _; exact Nat.zero_le _) | (intro _; simp; done) | rfl | (intro hb; exact hb) | (refine lampBounded ?_ ?_ <;> (first | exact List.Sublist.refl _ | exact List.nil_sublist _ | exact List.Sublist.map _ List.filter_sublist | exact List.filter_sublist | exact List.tail_sublist _)) | (refine linkBounded ?_ ?_ <;> (first | exact List.Sublist.refl _ | exact List.nil_sublist _ | exact List.Sublist.map _ List.filter_sublist | exact List.filter_sublist | exact List.tail_sublist _)) | (refine delivBounded ?_ ?_ <;> (first | exact List.Sublist.refl _ | exact List.nil_sublist _ | exact List.Sublist.map _ List.filter_sublist | exact List.filter_sublist | exact List.tail_sublist _)) | (simp; done))

theorem leaveQueue_calm (pos : Nat) : Calm s (u.leaveQueue pos) := by
  unfold State.leaveQueue
  (try dsimp only) <;> (repeat' split) <;> (try dsimp only) <;> repeat' (first | with_reducible exact h | with_reducible assumption | with_reducible apply onDeliv_calm | with_reducible apply markQueue_calm | (intro _; exact Nat.le_refl _) | (intro _; exact Nat.zero_le _) | (intro _; simp; done) | rfl | (intro hb; exact hb) | (refine lampBounded ?_ ?_ <;> (first | exact List.Sublist.refl _ | exact List.nil_sublist _ | exact List.Sublist.map _ List.filter_sublist | exact List.filter_sublist | exact List.tail_sublist _)) | (refine linkBounded ?_ ?_ <;> (first | exact List.Sublist.refl _ | exact List.nil_sublist _ | exact List.Sublist.map _ List.filter_sublist | exact List.filter_sublist | exact List.tail_sublist _)) | (refine delivBounded ?_ ?_ <;> (first | exact List.Sublist.refl _ | exact List.nil_sublist _ | exact List.Sublist.map _ List.filter_sublist | exact List.filter_sublist | exact List.tail_sublist _)) | (simp; done))

theorem failEntry_calm (pos : Nat) (e : QEntry) (r : Reason) : Calm s (u.failEntry pos e r) := by
  unfold State.failEntry
  (try dsimp only) <;> (repeat' split) <;> (try dsimp only) <;> repeat' (first | with_reducible exact h | with_reducible assumption | with_reducible apply dropRef_calm | with_reducible apply addNotice_calm | with_reducible apply groupTold_calm | with_reducible apply leaveQueue_calm | (intro _; exact Nat.le_refl _) | (intro _; exact Nat.zero_le _) | (intro _; simp; done) | rfl | (intro hb; exact hb) | (refine lampBounded ?_ ?_ <;> (first | exact List.Sublist.refl _ | exact List.nil_sublist _ | exact List.Sublist.map _ List.filter_sublist | exact List.filter_sublist | exact List.tail_sublist _)) | (refine linkBounded ?_ ?_ <;> (first | exact List.Sublist.refl _ | exact List.nil_sublist _ | exact List.Sublist.map _ List.filter_sublist | exact List.filter_sublist | exact List.tail_sublist _)) | (refine delivBounded ?_ ?_ <;> (first | exact List.Sublist.refl _ | exact List.nil_sublist _ | exact List.Sublist.map _ List.filter_sublist | exact List.filter_sublist | exact List.tail_sublist _)) | (simp; done))

theorem succeedEntry_calm (pos : Nat) (e : QEntry) : Calm s (u.succeedEntry pos e) := by
  unfold State.succeedEntry
  (try dsimp only) <;> (repeat' split) <;> (try dsimp only) <;> repeat' (first | with_reducible exact h | with_reducible assumption | with_reducible apply dropRef_calm | with_reducible apply groupTold_calm | with_reducible apply leaveQueue_calm | (intro _; exact Nat.le_refl _) | (intro _; exact Nat.zero_le _) | (intro _; simp; done) | rfl | (intro hb; exact hb) | (refine lampBounded ?_ ?_ <;> (first | exact List.Sublist.refl _ | exact List.nil_sublist _ | exact List.Sublist.map _ List.filter_sublist | exact List.filter_sublist | exact List.tail_sublist _)) | (refine linkBounded ?_ ?_ <;> (first | exact List.Sublist.refl _ | exact List.nil_sublist _ | exact List.Sublist.map _ List.filter_sublist | exact List.filter_sublist | exact List.tail_sublist _)) | (refine delivBounded ?_ ?_ <;> (first | exact List.Sublist.refl _ | exact List.nil_sublist _ | exact List.Sublist.map _ List.filter_sublist | exact List.filter_sublist | exact List.tail_sublist _)) | (simp; done))

theorem finishSlot_calm (i : Nat) : Calm s (u.finishSlot i) := by
  unfold State.finishSlot
  (try dsimp only) <;> (repeat' split) <;> (try dsimp only) <;> repeat' (first | with_reducible exact h | with_reducible assumption | with_reducible apply onOut_calm | (intro _; exact Nat.le_refl _) | (intro _; exact Nat.zero_le _) | (intro _; simp; done) | rfl | (intro hb; exact hb) | (refine lampBounded ?_ ?_ <;> (first | exact List.Sublist.refl _ | exact List.nil_sublist _ | exact List.Sublist.map _ List.filter_sublist | exact List.filter_sublist | exact List.tail_sublist _)) | (refine linkBounded ?_ ?_ <;> (first | exact List.Sublist.refl _ | exact List.nil_sublist _ | exact List.Sublist.map _ List.filter_sublist | exact List.filter_sublist | exact List.tail_sublist _)) | (refine delivBounded ?_ ?_ <;> (first | exact List.Sublist.refl _ | exact List.nil_sublist _ | exact List.Sublist.map _ List.filter_sublist | exact List.filter_sublist | exact List.tail_sublist _)) | (simp; done))

theorem requeue_calm (i pos : Nat) (delay : Nat) (f : QEntry → QEntry) : Calm s (u.requeue i pos delay f) := by
  unfold State.requeue
  (try dsimp only) <;> (repeat' split) <;> (try dsimp only) <;> repeat' (first | with_reducible exact h | with_reducible assumption | with_reducible apply onQ_calm | (intro _; exact Nat.le_refl _) | (intro _; exact Nat.zero_le _) | (intro _; simp; done) | rfl | (intro hb; exact hb) | (refine lampBounded ?_ ?_ <;> (first | exact List.Sublist.refl _ | exact List.nil_sublist _ | exact List.Sublist.map _ List.filter_sublist | exact List.filter_sublist | exact List.tail_sublist _)) | (refine linkBounded ?_ ?_ <;> (first | exact List.Sublist.refl _ | exact List.nil_sublist _ | exact List.Sublist.map _ List.filter_sublist | exact List.filter_sublist | exact List.tail_sublist _)) | (refine delivBounded ?_ ?_ <;> (first | exact List.Sublist.refl _ | exact List.nil_sublist _ | exact List.Sublist.map _ List.filter_sublist | exact List.filter_sublist | exact List.tail_sublist _)) | (simp; done))

theorem endTransfer_calm (i : Nat) (x : End) : Calm s (u.endTransfer i x) := by
  unfold State.endTransfer
  (try dsimp only) <;> (repeat' split) <;> (try dsimp only) <;> repeat' (first | with_reducible exact h | with_reducible assumption | with_reducible apply failEntry_calm | with_reducible apply succeedEntry_calm | with_reducible apply finishSlot_calm | with_reducible apply requeue_calm | (intro _; exact Nat.le_refl _) | (intro _; exact Nat.zero_le _) | (intro _; simp; done) | rfl | (intro hb; exact hb) | (refine lampBounded ?_ ?_ <;> (first | exact List.Sublist.refl _ | exact List.nil_sublist _ | exact List.Sublist.map _ List.filter_sublist | exact List.filter_sublist | exact List.tail_sublist _)) | (refine linkBounded ?_ ?_ <;> (first | exact List.Sublist.refl _ | exact List.nil_sublist _ | exact List.Sublist.map _ List.filter_sublist | exact List.filter_sublist | exact List.tail_sublist _)) | (refine delivBounded ?_ ?_ <;> (first | exact List.Sublist.refl _ | exact List.nil_sublist _ | exact List.Sublist.map _ List.filter_sublist | exact List.filter_sublist | exact List.tail_sublist _)) | (simp; done))

theorem callFrame_calm (i : Nat) (f : Frame) : Calm s (u.callFrame i f) := by
  unfold State.callFrame
  (try dsimp only) <;> (repeat' split) <;> (try dsimp only) <;> repeat' (first | with_reducible exact h | with_reducible assumption | with_reducible apply onOut_calm | with_reducible apply hand_calm | with_reducible apply endTransfer_calm | (with_reducible apply hand_calm'; on_goal 2 => assumption) | (intro _; exact Nat.le_refl _) | (intro _; exact Nat.zero_le _) | (intro _; simp; done) | rfl | (intro hb; exact hb) | (refine lampBounded ?_ ?_ <;> (first | exact List.Sublist.refl _ | exact List.nil_sublist _ | exact List.Sublist.map _ List.filter_sublist | exact List.filter_sublist | exact List.tail_sublist _)) | (refine linkBounded ?_ ?_ <;> (first | exact List.Sublist.refl _ | exact List.nil_sublist _ | exact List.Sublist.map _ List.filter_sublist | exact List.filter_sublist | exact List.tail_sublist _)) | (refine delivBounded ?_ ?_ <;> (first | exact List.Sublist.refl _ | exact List.nil_sublist _ | exact List.Sublist.map _ List.filter_sublist | exact List.filter_sublist | exact List.tail_sublist _)) | (simp; done))

theorem beginOffer_calm (i : Nat) (dest : Nat) : Calm s (u.beginOffer i dest) := by
  unfold State.beginOffer
  (try dsimp only) <;> (repeat' split) <;> (try dsimp only) <;> repeat' (first | with_reducible exact h | with_reducible assumption | with_reducible apply onOut_calm | with_reducible apply callFrame_calm | (intro _; exact Nat.le_refl _) | (intro _; exact Nat.zero_le _) | (intro _; simp; done) | rfl | (intro hb; exact hb) | (refine lampBounded ?_ ?_ <;> (first | exact List.Sublist.refl _ | exact List.nil_sublist _ | exact List.Sublist.map _ List.filter_sublist | exact List.filter_sublist | exact List.tail_sublist _)) | (refine linkBounded ?_ ?_ <;> (first | exact List.Sublist.refl _ | exact List.nil_sublist _ | exact List.Sublist.map _ List.filter_sublist | exact List.filter_sublist | exact List.tail_sublist _)) | (refine delivBounded ?_ ?_ <;> (first | exact List.Sublist.refl _ | exact List.nil_sublist _ | exact List.Sublist.map _ List.filter_sublist | exact List.filter_sublist | exact List.tail_sublist _)) | (simp; done))

theorem locateAt_calm (i n : Nat) : Calm s (u.locateAt i n) := by
  unfold State.locateAt
  exact onQ_calm h _ _

theorem beginLocate_calm (i : Nat) (ext : Nat) : Calm s (u.beginLocate i ext) := by
  unfold State.beginLocate
  (try dsimp only) <;> (repeat' split) <;> (try dsimp only) <;> repeat' (first | with_reducible exact h | with_reducible assumption | with_reducible apply onOut_calm | with_reducible apply onDeliv_calm | with_reducible apply locateAt_calm | with_reducible apply useRoute_calm | with_reducible apply callFrame_calm | with_reducible apply beginOffer_calm | (intro _; exact Nat.le_refl _) | (intro _; exact Nat.zero_le _) | (intro _; simp; done) | rfl | (intro hb; exact hb) | (refine lampBounded ?_ ?_ <;> (first | exact List.Sublist.refl _ | exact List.nil_sublist _ | exact List.Sublist.map _ List.filter_sublist | exact List.filter_sublist | exact List.tail_sublist _)) | (refine linkBounded ?_ ?_ <;> (first | exact List.Sublist.refl _ | exact List.nil_sublist _ | exact List.Sublist.map _ List.filter_sublist | exact List.filter_sublist | exact List.tail_sublist _)) | (refine delivBounded ?_ ?_ <;> (first | exact List.Sublist.refl _ | exact List.nil_sublist _ | exact List.Sublist.map _ List.filter_sublist | exact List.filter_sublist | exact List.tail_sublist _)) | (simp; done))

theorem takeEntry_calm (i pos : Nat) (e : QEntry) : Calm s (u.takeEntry i pos e) := by
  unfold State.takeEntry
  (try dsimp only) <;> (repeat' split) <;> (try dsimp only) <;> repeat' (first | with_reducible exact h | with_reducible assumption | with_reducible apply onOut_calm | with_reducible apply onQ_calm | with_reducible apply onDeliv_calm | with_reducible apply beginOffer_calm | with_reducible apply beginLocate_calm | (intro _; exact Nat.le_refl _) | (intro _; exact Nat.zero_le _) | (intro _; simp; done) | rfl | (intro hb; exact hb) | (refine lampBounded ?_ ?_ <;> (first | exact List.Sublist.refl _ | exact List.nil_sublist _ | exact List.Sublist.map _ List.filter_sublist | exact List.filter_sublist | exact List.tail_sublist _)) | (refine linkBounded ?_ ?_ <;> (first | exact List.Sublist.refl _ | exact List.nil_sublist _ | exact List.Sublist.map _ List.filter_sublist | exact List.filter_sublist | exact List.tail_sublist _)) | (refine delivBounded ?_ ?_ <;> (first | exact List.Sublist.refl _ | exact List.nil_sublist _ | exact List.Sublist.map _ List.filter_sublist | exact List.filter_sublist | exact List.tail_sublist _)) | (simp; done))

theorem dispatchLoop_calm (n : Nat) : Calm s (State.dispatchLoop n u) := by
  induction n generalizing u with
  | zero => exact h
  | succ n ih =>
    unfold State.dispatchLoop
    split
    · refine ih ?_
      split
      · exact failEntry_calm h _ _ _
      · exact takeEntry_calm h _ _ _
    · exact h

theorem dispatch_calm : Calm s u.dispatch := by
  unfold State.dispatch
  split
  · exact dispatchLoop_calm h _
  · exact h

theorem renumber_calm : Calm s u.renumber := by
  unfold State.renumber
  split
  · exact h
  · exact foldl_calm (onDeliv_calm h _ (by simp) id) _ (fun v x hv => markQueue_calm hv x) _

theorem enqueue_calm (e : QEntry) : Calm s (u.enqueue e) := by
  unfold State.enqueue
  (try dsimp only) <;> (repeat' split) <;> (try dsimp only) <;> repeat' (first | with_reducible exact h | with_reducible assumption | with_reducible apply onDeliv_calm | with_reducible apply markQueue_calm | with_reducible apply renumber_calm | (intro _; exact Nat.le_refl _) | (intro _; exact Nat.zero_le _) | (intro _; simp; done) | rfl | (intro hb; exact hb) | (refine lampBounded ?_ ?_ <;> (first | exact List.Sublist.refl _ | exact List.nil_sublist _ | exact List.Sublist.map _ List.filter_sublist | exact List.filter_sublist | exact List.tail_sublist _)) | (refine linkBounded ?_ ?_ <;> (first | exact List.Sublist.refl _ | exact List.nil_sublist _ | exact List.Sublist.map _ List.filter_sublist | exact List.filter_sublist | exact List.tail_sublist _)) | (refine delivBounded ?_ ?_ <;> (first | exact List.Sublist.refl _ | exact List.nil_sublist _ | exact List.Sublist.map _ List.filter_sublist | exact List.filter_sublist | exact List.tail_sublist _)) | (simp; done))

theorem offerDirect_calm (target obj k : Nat) (number : Option Nat) (urgent : Bool) : Calm s (u.offerDirect target obj k number urgent).2 := by
  unfold State.offerDirect
  (try dsimp only) <;> (repeat' split) <;> (try dsimp only) <;> repeat' (first | with_reducible exact h | with_reducible assumption | with_reducible apply latch_calm | with_reducible apply dispatch_calm | with_reducible apply enqueue_calm | (with_reducible apply addRef_calm; on_goal 2 => assumption) | (intro _; exact Nat.le_refl _) | (intro _; exact Nat.zero_le _) | (intro _; simp; done) | rfl | (intro hb; exact hb) | (refine lampBounded ?_ ?_ <;> (first | exact List.Sublist.refl _ | exact List.nil_sublist _ | exact List.Sublist.map _ List.filter_sublist | exact List.filter_sublist | exact List.tail_sublist _)) | (refine linkBounded ?_ ?_ <;> (first | exact List.Sublist.refl _ | exact List.nil_sublist _ | exact List.Sublist.map _ List.filter_sublist | exact List.filter_sublist | exact List.tail_sublist _)) | (refine delivBounded ?_ ?_ <;> (first | exact List.Sublist.refl _ | exact List.nil_sublist _ | exact List.Sublist.map _ List.filter_sublist | exact List.filter_sublist | exact List.tail_sublist _)) | (simp; done))

theorem offerDirect_calm' (target obj k : Nat) (number : Option Nat) (urgent : Bool) {a : Bool} {t' : State} (e : u.offerDirect target obj k number urgent = (a, t')) : Calm s t' := by
  have := offerDirect_calm h target obj k number urgent
  rw [e] at this
  exact this

theorem addRefs_calm (obj n : Nat) {t' : State} (e : u.addRefs obj n = some t') : Calm s t' := by
  induction n generalizing u with
  | zero => cases e; exact h
  | succ n ih =>
    unfold State.addRefs at e
    split at e
    · cases e
    · exact ih (addRef_calm h _ (by assumption)) e

theorem offerLists_calm (l obj k : Nat) (urgent : Bool) (nodes : List Nat) :
    Calm s (u.offerLists l obj k urgent nodes).2 := by
  unfold State.offerLists
  split
  · split
    · exact h
    · exact dispatch_calm (foldl_calm (onDeliv_calm (addRefs_calm h _ _ (by assumption)) _ (by simp)
        id) _ (fun v x hv => enqueue_calm hv _) _)
  · exact latch_calm h _

theorem offerLists_calm' (l obj k : Nat) (urgent : Bool) (nodes : List Nat) {a : Bool} {t' : State}
    (e : u.offerLists l obj k urgent nodes = (a, t')) : Calm s t' := by
  have := offerLists_calm h l obj k urgent nodes
  rw [e] at this
  exact this

theorem carryOn_calm (i : Nat) : Calm s (u.carryOn i) := by
  unfold State.carryOn
  (try dsimp only) <;> (repeat' split) <;> (try dsimp only) <;> repeat' (first | with_reducible exact h | with_reducible assumption | with_reducible apply onOut_calm | with_reducible apply callFrame_calm | (intro _; exact Nat.le_refl _) | (intro _; exact Nat.zero_le _) | (intro _; simp; done) | rfl | (intro hb; exact hb) | (refine lampBounded ?_ ?_ <;> (first | exact List.Sublist.refl _ | exact List.nil_sublist _ | exact List.Sublist.map _ List.filter_sublist | exact List.filter_sublist | exact List.tail_sublist _)) | (refine linkBounded ?_ ?_ <;> (first | exact List.Sublist.refl _ | exact List.nil_sublist _ | exact List.Sublist.map _ List.filter_sublist | exact List.filter_sublist | exact List.tail_sublist _)) | (refine delivBounded ?_ ?_ <;> (first | exact List.Sublist.refl _ | exact List.nil_sublist _ | exact List.Sublist.map _ List.filter_sublist | exact List.filter_sublist | exact List.tail_sublist _)) | (simp; done))

theorem slotOutcome_calm (i : Nat) (x : Tx) : Calm s (u.slotOutcome i x) := by
  unfold State.slotOutcome
  (try dsimp only) <;> (repeat' split) <;> (try dsimp only) <;> repeat' (first | with_reducible exact h | with_reducible assumption | with_reducible apply onOut_calm | with_reducible apply endTransfer_calm | with_reducible apply carryOn_calm | (intro _; exact Nat.le_refl _) | (intro _; exact Nat.zero_le _) | (intro _; simp; done) | rfl | (intro hb; exact hb) | (refine lampBounded ?_ ?_ <;> (first | exact List.Sublist.refl _ | exact List.nil_sublist _ | exact List.Sublist.map _ List.filter_sublist | exact List.filter_sublist | exact List.tail_sublist _)) | (refine linkBounded ?_ ?_ <;> (first | exact List.Sublist.refl _ | exact List.nil_sublist _ | exact List.Sublist.map _ List.filter_sublist | exact List.filter_sublist | exact List.tail_sublist _)) | (refine delivBounded ?_ ?_ <;> (first | exact List.Sublist.refl _ | exact List.nil_sublist _ | exact List.Sublist.map _ List.filter_sublist | exact List.filter_sublist | exact List.tail_sublist _)) | (simp; done))

theorem outBack_calm (i : Nat) (x : Tx) : Calm s (u.outBack i x) := by
  unfold State.outBack
  (try dsimp only) <;> (repeat' split) <;> (try dsimp only) <;> repeat' (first | with_reducible exact h | with_reducible assumption | with_reducible apply onOut_calm | with_reducible apply callFrame_calm | with_reducible apply dispatch_calm | with_reducible apply slotOutcome_calm | (intro _; exact Nat.le_refl _) | (intro _; exact Nat.zero_le _) | (intro _; simp; done) | rfl | (intro hb; exact hb) | (refine lampBounded ?_ ?_ <;> (first | exact List.Sublist.refl _ | exact List.nil_sublist _ | exact List.Sublist.map _ List.filter_sublist | exact List.filter_sublist | exact List.tail_sublist _)) | (refine linkBounded ?_ ?_ <;> (first | exact List.Sublist.refl _ | exact List.nil_sublist _ | exact List.Sublist.map _ List.filter_sublist | exact List.filter_sublist | exact List.tail_sublist _)) | (refine delivBounded ?_ ?_ <;> (first | exact List.Sublist.refl _ | exact List.nil_sublist _ | exact List.Sublist.map _ List.filter_sublist | exact List.filter_sublist | exact List.tail_sublist _)) | (simp; done))

theorem txBack_calm (r : Requester) (x : Tx) : Calm s (u.txBack r x) := by
  unfold State.txBack
  (try dsimp only) <;> (repeat' split) <;> (try dsimp only) <;> repeat' (first | with_reducible exact h | with_reducible assumption | with_reducible apply answerDone_calm | with_reducible apply outBack_calm | (intro _; exact Nat.le_refl _) | (intro _; exact Nat.zero_le _) | (intro _; simp; done) | rfl | (intro hb; exact hb) | (refine lampBounded ?_ ?_ <;> (first | exact List.Sublist.refl _ | exact List.nil_sublist _ | exact List.Sublist.map _ List.filter_sublist | exact List.filter_sublist | exact List.tail_sublist _)) | (refine linkBounded ?_ ?_ <;> (first | exact List.Sublist.refl _ | exact List.nil_sublist _ | exact List.Sublist.map _ List.filter_sublist | exact List.filter_sublist | exact List.tail_sublist _)) | (refine delivBounded ?_ ?_ <;> (first | exact List.Sublist.refl _ | exact List.nil_sublist _ | exact List.Sublist.map _ List.filter_sublist | exact List.filter_sublist | exact List.tail_sublist _)) | (simp; done))

theorem emptySendList_calm : Calm s u.emptySendList := by
  unfold State.emptySendList
  refine foldl_calm (onLink_calm h _ ?_ ?_) _ (fun v x hv => txBack_calm hv _ _) _
  · rfl
  · exact fun b => ⟨List.nodup_nil, b.2⟩

theorem balk_calm (src tag : Nat) (r : BalkReason) : Calm s (u.balk src tag r) := by
  unfold State.balk
  (try dsimp only) <;> (repeat' split) <;> (try dsimp only) <;> repeat' (first | with_reducible exact h | with_reducible assumption | with_reducible apply answer_calm | (intro _; exact Nat.le_refl _) | (intro _; exact Nat.zero_le _) | (intro _; simp; done) | rfl | (intro hb; exact hb) | (refine lampBounded ?_ ?_ <;> (first | exact List.Sublist.refl _ | exact List.nil_sublist _ | exact List.Sublist.map _ List.filter_sublist | exact List.filter_sublist | exact List.tail_sublist _)) | (refine linkBounded ?_ ?_ <;> (first | exact List.Sublist.refl _ | exact List.nil_sublist _ | exact List.Sublist.map _ List.filter_sublist | exact List.filter_sublist | exact List.tail_sublist _)) | (refine delivBounded ?_ ?_ <;> (first | exact List.Sublist.refl _ | exact List.nil_sublist _ | exact List.Sublist.map _ List.filter_sublist | exact List.filter_sublist | exact List.tail_sublist _)) | (simp; done))

theorem handTake_calm (j : Nat) : Calm s (u.handTake j) := by
  unfold State.handTake
  (try dsimp only) <;> (repeat' split) <;> (try dsimp only) <;> repeat' (first | with_reducible exact h | with_reducible assumption | with_reducible apply handIgnoring_calm | (intro _; exact Nat.le_refl _) | (intro _; exact Nat.zero_le _) | (intro _; simp; done) | rfl | (intro hb; exact hb) | (refine lampBounded ?_ ?_ <;> (first | exact List.Sublist.refl _ | exact List.nil_sublist _ | exact List.Sublist.map _ List.filter_sublist | exact List.filter_sublist | exact List.tail_sublist _)) | (refine linkBounded ?_ ?_ <;> (first | exact List.Sublist.refl _ | exact List.nil_sublist _ | exact List.Sublist.map _ List.filter_sublist | exact List.filter_sublist | exact List.tail_sublist _)) | (refine delivBounded ?_ ?_ <;> (first | exact List.Sublist.refl _ | exact List.nil_sublist _ | exact List.Sublist.map _ List.filter_sublist | exact List.filter_sublist | exact List.tail_sublist _)) | (simp; done))

theorem handReceipt_calm (j : Nat) : Calm s (u.handReceipt j) := by
  unfold State.handReceipt
  (try dsimp only) <;> (repeat' split) <;> (try dsimp only) <;> repeat' (first | with_reducible exact h | with_reducible assumption | with_reducible apply handIgnoring_calm | (intro _; exact Nat.le_refl _) | (intro _; exact Nat.zero_le _) | (intro _; simp; done) | rfl | (intro hb; exact hb) | (refine lampBounded ?_ ?_ <;> (first | exact List.Sublist.refl _ | exact List.nil_sublist _ | exact List.Sublist.map _ List.filter_sublist | exact List.filter_sublist | exact List.tail_sublist _)) | (refine linkBounded ?_ ?_ <;> (first | exact List.Sublist.refl _ | exact List.nil_sublist _ | exact List.Sublist.map _ List.filter_sublist | exact List.filter_sublist | exact List.tail_sublist _)) | (refine delivBounded ?_ ?_ <;> (first | exact List.Sublist.refl _ | exact List.nil_sublist _ | exact List.Sublist.map _ List.filter_sublist | exact List.filter_sublist | exact List.tail_sublist _)) | (simp; done))

theorem fillSlot_calm (j src tag : Nat) (o : OfferBody) (target obj grant : Nat) : Calm s (u.fillSlot j src tag o target obj grant) := by
  unfold State.fillSlot
  (try dsimp only) <;> (repeat' split) <;> (try dsimp only) <;> repeat' (first | with_reducible exact h | with_reducible assumption | with_reducible apply onIn_calm | with_reducible apply handTake_calm | (intro _; exact Nat.le_refl _) | (intro _; exact Nat.zero_le _) | (intro _; simp; done) | rfl | (intro hb; exact hb) | (refine lampBounded ?_ ?_ <;> (first | exact List.Sublist.refl _ | exact List.nil_sublist _ | exact List.Sublist.map _ List.filter_sublist | exact List.filter_sublist | exact List.tail_sublist _)) | (refine linkBounded ?_ ?_ <;> (first | exact List.Sublist.refl _ | exact List.nil_sublist _ | exact List.Sublist.map _ List.filter_sublist | exact List.filter_sublist | exact List.tail_sublist _)) | (refine delivBounded ?_ ?_ <;> (first | exact List.Sublist.refl _ | exact List.nil_sublist _ | exact List.Sublist.map _ List.filter_sublist | exact List.filter_sublist | exact List.tail_sublist _)) | (simp; done))

theorem takeDirect_calm (src tag : Nat) (o : OfferBody) : Calm s (u.takeDirect src tag o) := by
  unfold State.takeDirect
  (try dsimp only) <;> (repeat' split) <;> (try dsimp only) <;> repeat' (first | with_reducible exact h | with_reducible assumption | with_reducible apply reserve_calm | with_reducible apply returnRes_calm | with_reducible apply admitDirect_calm | with_reducible apply balk_calm | with_reducible apply fillSlot_calm | (with_reducible apply reserve_calm'; on_goal 2 => assumption) | (with_reducible apply admitDirect_calm'; on_goal 2 => assumption) | (intro _; exact Nat.le_refl _) | (intro _; exact Nat.zero_le _) | (intro _; simp; done) | rfl | (intro hb; exact hb) | (refine lampBounded ?_ ?_ <;> (first | exact List.Sublist.refl _ | exact List.nil_sublist _ | exact List.Sublist.map _ List.filter_sublist | exact List.filter_sublist | exact List.tail_sublist _)) | (refine linkBounded ?_ ?_ <;> (first | exact List.Sublist.refl _ | exact List.nil_sublist _ | exact List.Sublist.map _ List.filter_sublist | exact List.filter_sublist | exact List.tail_sublist _)) | (refine delivBounded ?_ ?_ <;> (first | exact List.Sublist.refl _ | exact List.nil_sublist _ | exact List.Sublist.map _ List.filter_sublist | exact List.filter_sublist | exact List.tail_sublist _)) | (simp; done))

theorem takeList_calm (src tag : Nat) (o : OfferBody) : Calm s (u.takeList src tag o) := by
  unfold State.takeList
  (try dsimp only) <;> (repeat' split) <;> (try dsimp only) <;> repeat' (first | with_reducible exact h | with_reducible assumption | with_reducible apply admitList_calm | with_reducible apply balk_calm | with_reducible apply fillSlot_calm | (with_reducible apply admitList_calm'; on_goal 2 => assumption) | (intro _; exact Nat.le_refl _) | (intro _; exact Nat.zero_le _) | (intro _; simp; done) | rfl | (intro hb; exact hb) | (refine lampBounded ?_ ?_ <;> (first | exact List.Sublist.refl _ | exact List.nil_sublist _ | exact List.Sublist.map _ List.filter_sublist | exact List.filter_sublist | exact List.tail_sublist _)) | (refine linkBounded ?_ ?_ <;> (first | exact List.Sublist.refl _ | exact List.nil_sublist _ | exact List.Sublist.map _ List.filter_sublist | exact List.filter_sublist | exact List.tail_sublist _)) | (refine delivBounded ?_ ?_ <;> (first | exact List.Sublist.refl _ | exact List.nil_sublist _ | exact List.Sublist.map _ List.filter_sublist | exact List.filter_sublist | exact List.tail_sublist _)) | (simp; done))

theorem takeOffer_calm (src tag : Nat) (o : OfferBody) : Calm s (u.takeOffer src tag o) := by
  unfold State.takeOffer
  (try dsimp only) <;> (repeat' split) <;> (try dsimp only) <;> repeat' (first | with_reducible exact h | with_reducible assumption | with_reducible apply takeDirect_calm | with_reducible apply takeList_calm | (intro _; exact Nat.le_refl _) | (intro _; exact Nat.zero_le _) | (intro _; simp; done) | rfl | (intro hb; exact hb) | (refine lampBounded ?_ ?_ <;> (first | exact List.Sublist.refl _ | exact List.nil_sublist _ | exact List.Sublist.map _ List.filter_sublist | exact List.filter_sublist | exact List.tail_sublist _)) | (refine linkBounded ?_ ?_ <;> (first | exact List.Sublist.refl _ | exact List.nil_sublist _ | exact List.Sublist.map _ List.filter_sublist | exact List.filter_sublist | exact List.tail_sublist _)) | (refine delivBounded ?_ ?_ <;> (first | exact List.Sublist.refl _ | exact List.nil_sublist _ | exact List.Sublist.map _ List.filter_sublist | exact List.filter_sublist | exact List.tail_sublist _)) | (simp; done))

theorem offerIn_calm (src tag : Nat) (o : OfferBody) : Calm s (u.offerIn src tag o) := by
  unfold State.offerIn
  (try dsimp only) <;> (repeat' split) <;> (try dsimp only) <;> repeat' (first | with_reducible exact h | with_reducible assumption | with_reducible apply onIn_calm | with_reducible apply handTake_calm | with_reducible apply takeOffer_calm | (intro _; exact Nat.le_refl _) | (intro _; exact Nat.zero_le _) | (intro _; simp; done) | rfl | (intro hb; exact hb) | (refine lampBounded ?_ ?_ <;> (first | exact List.Sublist.refl _ | exact List.nil_sublist _ | exact List.Sublist.map _ List.filter_sublist | exact List.filter_sublist | exact List.tail_sublist _)) | (refine linkBounded ?_ ?_ <;> (first | exact List.Sublist.refl _ | exact List.nil_sublist _ | exact List.Sublist.map _ List.filter_sublist | exact List.filter_sublist | exact List.tail_sublist _)) | (refine delivBounded ?_ ?_ <;> (first | exact List.Sublist.refl _ | exact List.nil_sublist _ | exact List.Sublist.map _ List.filter_sublist | exact List.filter_sublist | exact List.tail_sublist _)) | (simp; done))

theorem carryIn_calm (src tag idx : Nat) (seg : Segment) : Calm s (u.carryIn src tag idx seg) := by
  unfold State.carryIn
  (try dsimp only) <;> (repeat' split) <;> (try dsimp only) <;> repeat' (first | with_reducible exact h | with_reducible assumption | with_reducible apply onIn_calm | (with_reducible apply append_calm; on_goal 2 => assumption) | (intro _; exact Nat.le_refl _) | (intro _; exact Nat.zero_le _) | (intro _; simp; done) | rfl | (intro hb; exact hb) | (refine lampBounded ?_ ?_ <;> (first | exact List.Sublist.refl _ | exact List.nil_sublist _ | exact List.Sublist.map _ List.filter_sublist | exact List.filter_sublist | exact List.tail_sublist _)) | (refine linkBounded ?_ ?_ <;> (first | exact List.Sublist.refl _ | exact List.nil_sublist _ | exact List.Sublist.map _ List.filter_sublist | exact List.filter_sublist | exact List.tail_sublist _)) | (refine delivBounded ?_ ?_ <;> (first | exact List.Sublist.refl _ | exact List.nil_sublist _ | exact List.Sublist.map _ List.filter_sublist | exact List.filter_sublist | exact List.tail_sublist _)) | (simp; done))

theorem giveUpIn_calm (j : Nat) : Calm s (u.giveUpIn j) := by
  unfold State.giveUpIn
  (try dsimp only) <;> (repeat' split) <;> (try dsimp only) <;> repeat' (first | with_reducible exact h | with_reducible assumption | with_reducible apply onIn_calm | with_reducible apply discardObj_calm | with_reducible apply returnRes_calm | (intro _; exact Nat.le_refl _) | (intro _; exact Nat.zero_le _) | (intro _; simp; done) | rfl | (intro hb; exact hb) | (refine lampBounded ?_ ?_ <;> (first | exact List.Sublist.refl _ | exact List.nil_sublist _ | exact List.Sublist.map _ List.filter_sublist | exact List.filter_sublist | exact List.tail_sublist _)) | (refine linkBounded ?_ ?_ <;> (first | exact List.Sublist.refl _ | exact List.nil_sublist _ | exact List.Sublist.map _ List.filter_sublist | exact List.filter_sublist | exact List.tail_sublist _)) | (refine delivBounded ?_ ?_ <;> (first | exact List.Sublist.refl _ | exact List.nil_sublist _ | exact List.Sublist.map _ List.filter_sublist | exact List.filter_sublist | exact List.tail_sublist _)) | (simp; done))

theorem commitIn_calm (x : InSlot) {t' : State} (e : u.commitIn x = some t') : Calm s t' := by
  unfold State.commitIn at e
  dsimp only at e
  split at e
  · split at e
    · cases e; exact discardObj_calm h _
    · split at e
      · cases e
      · cases e
        exact foldl_calm (closeObj_calm' h _ _ _ (by assumption)) _
          (fun v x hv => commit_calm hv _ _ _ _) _
  · split at e
    · cases e
    · cases e
      exact commit_calm (closeObj_calm' h _ _ _ (by assumption)) _ _ _ _

theorem receiptFailed_calm (src tag : Nat) : Calm s (u.receiptFailed src tag) := by
  unfold State.receiptFailed
  (try dsimp only) <;> (repeat' split) <;> (try dsimp only) <;> repeat' (first | with_reducible exact h | with_reducible assumption | with_reducible apply answer_calm | (intro _; exact Nat.le_refl _) | (intro _; exact Nat.zero_le _) | (intro _; simp; done) | rfl | (intro hb; exact hb) | (refine lampBounded ?_ ?_ <;> (first | exact List.Sublist.refl _ | exact List.nil_sublist _ | exact List.Sublist.map _ List.filter_sublist | exact List.filter_sublist | exact List.tail_sublist _)) | (refine linkBounded ?_ ?_ <;> (first | exact List.Sublist.refl _ | exact List.nil_sublist _ | exact List.Sublist.map _ List.filter_sublist | exact List.filter_sublist | exact List.tail_sublist _)) | (refine delivBounded ?_ ?_ <;> (first | exact List.Sublist.refl _ | exact List.nil_sublist _ | exact List.Sublist.map _ List.filter_sublist | exact List.filter_sublist | exact List.tail_sublist _)) | (simp; done))

theorem closeIn_calm (src tag count : Nat) : Calm s (u.closeIn src tag count) := by
  unfold State.closeIn
  split
  · exact h
  · dsimp only
    split
    · split
      · rename_i e
        split at e
        · exact handReceipt_calm (onIn_calm (commitIn_calm h _ e) _ _) _
        · cases e
      · exact receiptFailed_calm (giveUpIn_calm h _) _ _
    · split
      · exact h
      · exact handReceipt_calm h _

theorem claimIn_calm (src num ext : Nat) : Calm s (u.claimIn src num ext) := by
  unfold State.claimIn
  (try dsimp only) <;> (repeat' split) <;> (try dsimp only) <;> repeat' (first | with_reducible exact h | with_reducible assumption | with_reducible apply onOut_calm | with_reducible apply latch_calm | with_reducible apply useRoute_calm | with_reducible apply beginOffer_calm | with_reducible apply dispatch_calm | (intro _; exact Nat.le_refl _) | (intro _; exact Nat.zero_le _) | (intro _; simp; done) | rfl | (intro hb; exact hb) | (refine lampBounded ?_ ?_ <;> (first | exact List.Sublist.refl _ | exact List.nil_sublist _ | exact List.Sublist.map _ List.filter_sublist | exact List.filter_sublist | exact List.tail_sublist _)) | (refine linkBounded ?_ ?_ <;> (first | exact List.Sublist.refl _ | exact List.nil_sublist _ | exact List.Sublist.map _ List.filter_sublist | exact List.filter_sublist | exact List.tail_sublist _)) | (refine delivBounded ?_ ?_ <;> (first | exact List.Sublist.refl _ | exact List.nil_sublist _ | exact List.Sublist.map _ List.filter_sublist | exact List.filter_sublist | exact List.tail_sublist _)) | (simp; done))

theorem takeIn_calm (src tag : Nat) : Calm s (u.takeIn src tag) := by
  unfold State.takeIn
  (try dsimp only) <;> (repeat' split) <;> (try dsimp only) <;> repeat' (first | with_reducible exact h | with_reducible assumption | with_reducible apply onOut_calm | with_reducible apply dispatch_calm | with_reducible apply carryOn_calm | (intro _; exact Nat.le_refl _) | (intro _; exact Nat.zero_le _) | (intro _; simp; done) | rfl | (intro hb; exact hb) | (refine lampBounded ?_ ?_ <;> (first | exact List.Sublist.refl _ | exact List.nil_sublist _ | exact List.Sublist.map _ List.filter_sublist | exact List.filter_sublist | exact List.tail_sublist _)) | (refine linkBounded ?_ ?_ <;> (first | exact List.Sublist.refl _ | exact List.nil_sublist _ | exact List.Sublist.map _ List.filter_sublist | exact List.filter_sublist | exact List.tail_sublist _)) | (refine delivBounded ?_ ?_ <;> (first | exact List.Sublist.refl _ | exact List.nil_sublist _ | exact List.Sublist.map _ List.filter_sublist | exact List.filter_sublist | exact List.tail_sublist _)) | (simp; done))

theorem balkIn_calm (src tag : Nat) (b : BalkReason) : Calm s (u.balkIn src tag b) := by
  unfold State.balkIn
  (try dsimp only) <;> (repeat' split) <;> (try dsimp only) <;> repeat' (first | with_reducible exact h | with_reducible assumption | with_reducible apply onQ_calm | with_reducible apply purgeRoute_calm | with_reducible apply endTransfer_calm | with_reducible apply beginLocate_calm | with_reducible apply dispatch_calm | (intro _; exact Nat.le_refl _) | (intro _; exact Nat.zero_le _) | (intro _; simp; done) | rfl | (intro hb; exact hb) | (refine lampBounded ?_ ?_ <;> (first | exact List.Sublist.refl _ | exact List.nil_sublist _ | exact List.Sublist.map _ List.filter_sublist | exact List.filter_sublist | exact List.tail_sublist _)) | (refine linkBounded ?_ ?_ <;> (first | exact List.Sublist.refl _ | exact List.nil_sublist _ | exact List.Sublist.map _ List.filter_sublist | exact List.filter_sublist | exact List.tail_sublist _)) | (refine delivBounded ?_ ?_ <;> (first | exact List.Sublist.refl _ | exact List.nil_sublist _ | exact List.Sublist.map _ List.filter_sublist | exact List.filter_sublist | exact List.tail_sublist _)) | (simp; done))

theorem receiptIn_calm (src tag : Nat) (ok : Bool) : Calm s (u.receiptIn src tag ok) := by
  unfold State.receiptIn
  (try dsimp only) <;> (repeat' split) <;> (try dsimp only) <;> repeat' (first | with_reducible exact h | with_reducible assumption | with_reducible apply endTransfer_calm | with_reducible apply dispatch_calm | (intro _; exact Nat.le_refl _) | (intro _; exact Nat.zero_le _) | (intro _; simp; done) | rfl | (intro hb; exact hb) | (refine lampBounded ?_ ?_ <;> (first | exact List.Sublist.refl _ | exact List.nil_sublist _ | exact List.Sublist.map _ List.filter_sublist | exact List.filter_sublist | exact List.tail_sublist _)) | (refine linkBounded ?_ ?_ <;> (first | exact List.Sublist.refl _ | exact List.nil_sublist _ | exact List.Sublist.map _ List.filter_sublist | exact List.filter_sublist | exact List.tail_sublist _)) | (refine delivBounded ?_ ?_ <;> (first | exact List.Sublist.refl _ | exact List.nil_sublist _ | exact List.Sublist.map _ List.filter_sublist | exact List.filter_sublist | exact List.tail_sublist _)) | (simp; done))

theorem seekIn_calm (src tag num ext : Nat) : Calm s (u.seekIn src tag num ext) := by
  unfold State.seekIn
  (try dsimp only) <;> (repeat' split) <;> (try dsimp only) <;> repeat' (first | with_reducible exact h | with_reducible assumption | with_reducible apply answer_calm | (intro _; exact Nat.le_refl _) | (intro _; exact Nat.zero_le _) | (intro _; simp; done) | rfl | (intro hb; exact hb) | (refine lampBounded ?_ ?_ <;> (first | exact List.Sublist.refl _ | exact List.nil_sublist _ | exact List.Sublist.map _ List.filter_sublist | exact List.filter_sublist | exact List.tail_sublist _)) | (refine linkBounded ?_ ?_ <;> (first | exact List.Sublist.refl _ | exact List.nil_sublist _ | exact List.Sublist.map _ List.filter_sublist | exact List.filter_sublist | exact List.tail_sublist _)) | (refine delivBounded ?_ ?_ <;> (first | exact List.Sublist.refl _ | exact List.nil_sublist _ | exact List.Sublist.map _ List.filter_sublist | exact List.filter_sublist | exact List.tail_sublist _)) | (simp; done))

theorem claimTimeout_calm (i : Nat) : Calm s (u.claimTimeout i) := by
  unfold State.claimTimeout
  (try dsimp only) <;> (repeat' split) <;> (try dsimp only) <;> repeat' (first | with_reducible exact h | with_reducible assumption | with_reducible apply onOut_calm | with_reducible apply endTransfer_calm | with_reducible apply callFrame_calm | with_reducible apply dispatch_calm | (intro _; exact Nat.le_refl _) | (intro _; exact Nat.zero_le _) | (intro _; simp; done) | rfl | (intro hb; exact hb) | (refine lampBounded ?_ ?_ <;> (first | exact List.Sublist.refl _ | exact List.nil_sublist _ | exact List.Sublist.map _ List.filter_sublist | exact List.filter_sublist | exact List.tail_sublist _)) | (refine linkBounded ?_ ?_ <;> (first | exact List.Sublist.refl _ | exact List.nil_sublist _ | exact List.Sublist.map _ List.filter_sublist | exact List.filter_sublist | exact List.tail_sublist _)) | (refine delivBounded ?_ ?_ <;> (first | exact List.Sublist.refl _ | exact List.nil_sublist _ | exact List.Sublist.map _ List.filter_sublist | exact List.filter_sublist | exact List.tail_sublist _)) | (simp; done))

theorem answerTimeout_calm (i : Nat) : Calm s (u.answerTimeout i) := by
  unfold State.answerTimeout
  (try dsimp only) <;> (repeat' split) <;> (try dsimp only) <;> repeat' (first | with_reducible exact h | with_reducible assumption | with_reducible apply onOut_calm | with_reducible apply endTransfer_calm | with_reducible apply callFrame_calm | with_reducible apply dispatch_calm | (intro _; exact Nat.le_refl _) | (intro _; exact Nat.zero_le _) | (intro _; simp; done) | rfl | (intro hb; exact hb) | (refine lampBounded ?_ ?_ <;> (first | exact List.Sublist.refl _ | exact List.nil_sublist _ | exact List.Sublist.map _ List.filter_sublist | exact List.filter_sublist | exact List.tail_sublist _)) | (refine linkBounded ?_ ?_ <;> (first | exact List.Sublist.refl _ | exact List.nil_sublist _ | exact List.Sublist.map _ List.filter_sublist | exact List.filter_sublist | exact List.tail_sublist _)) | (refine delivBounded ?_ ?_ <;> (first | exact List.Sublist.refl _ | exact List.nil_sublist _ | exact List.Sublist.map _ List.filter_sublist | exact List.filter_sublist | exact List.tail_sublist _)) | (simp; done))

theorem receiptTimeout_calm (i : Nat) : Calm s (u.receiptTimeout i) := by
  unfold State.receiptTimeout
  (try dsimp only) <;> (repeat' split) <;> (try dsimp only) <;> repeat' (first | with_reducible exact h | with_reducible assumption | with_reducible apply onOut_calm | with_reducible apply endTransfer_calm | with_reducible apply callFrame_calm | with_reducible apply dispatch_calm | (intro _; exact Nat.le_refl _) | (intro _; exact Nat.zero_le _) | (intro _; simp; done) | rfl | (intro hb; exact hb) | (refine lampBounded ?_ ?_ <;> (first | exact List.Sublist.refl _ | exact List.nil_sublist _ | exact List.Sublist.map _ List.filter_sublist | exact List.filter_sublist | exact List.tail_sublist _)) | (refine linkBounded ?_ ?_ <;> (first | exact List.Sublist.refl _ | exact List.nil_sublist _ | exact List.Sublist.map _ List.filter_sublist | exact List.filter_sublist | exact List.tail_sublist _)) | (refine delivBounded ?_ ?_ <;> (first | exact List.Sublist.refl _ | exact List.nil_sublist _ | exact List.Sublist.map _ List.filter_sublist | exact List.filter_sublist | exact List.tail_sublist _)) | (simp; done))

theorem beginWrite_calm : Calm s (u.beginWrite) := by
  unfold State.beginWrite
  (try dsimp only) <;> (repeat' split) <;> (try dsimp only) <;> repeat' (first | with_reducible exact h | with_reducible assumption | with_reducible apply onWriter_calm | (intro _; exact Nat.le_refl _) | (intro _; exact Nat.zero_le _) | (intro _; simp; done) | rfl | (intro hb; exact hb) | (refine lampBounded ?_ ?_ <;> (first | exact List.Sublist.refl _ | exact List.nil_sublist _ | exact List.Sublist.map _ List.filter_sublist | exact List.filter_sublist | exact List.tail_sublist _)) | (refine linkBounded ?_ ?_ <;> (first | exact List.Sublist.refl _ | exact List.nil_sublist _ | exact List.Sublist.map _ List.filter_sublist | exact List.filter_sublist | exact List.tail_sublist _)) | (refine delivBounded ?_ ?_ <;> (first | exact List.Sublist.refl _ | exact List.nil_sublist _ | exact List.Sublist.map _ List.filter_sublist | exact List.filter_sublist | exact List.tail_sublist _)) | (simp; done))

theorem nextMoment_calm : Calm s (u.nextMoment) := by
  unfold State.nextMoment
  (try dsimp only) <;> (repeat' split) <;> (try dsimp only) <;> repeat' (first | with_reducible exact h | with_reducible assumption | with_reducible apply onLink_calm | (intro _; exact Nat.le_refl _) | (intro _; exact Nat.zero_le _) | (intro _; simp; done) | rfl | (intro hb; exact hb) | (refine lampBounded ?_ ?_ <;> (first | exact List.Sublist.refl _ | exact List.nil_sublist _ | exact List.Sublist.map _ List.filter_sublist | exact List.filter_sublist | exact List.tail_sublist _)) | (refine linkBounded ?_ ?_ <;> (first | exact List.Sublist.refl _ | exact List.nil_sublist _ | exact List.Sublist.map _ List.filter_sublist | exact List.filter_sublist | exact List.tail_sublist _)) | (refine delivBounded ?_ ?_ <;> (first | exact List.Sublist.refl _ | exact List.nil_sublist _ | exact List.Sublist.map _ List.filter_sublist | exact List.filter_sublist | exact List.tail_sublist _)) | (simp; done))

end Sys2Proof.Machine
end

