-- ==== Sys2Proof/Laws/CalmSessions.lean ====
section
/-! SUPPORT. The operations of the sessions leave the still part alone. -/

namespace Sys2Proof.Machine

set_option linter.all false

variable {s u : State} (h : Calm s u)
include h

theorem heldRef_calm' (o : Option Nat) {t' : State} (e : o.bind u.addRef = some t') :
    Calm s t' := by
  cases o
  · cases e
  · exact addRef_calm h _ e

theorem heldRef_calm (o : Option Nat) : Calm s ((o.bind u.addRef).getD u) := by
  cases e : o.bind u.addRef
  · exact h
  · exact heldRef_calm' h o e

theorem heldAppend_calm (o : Option Segment) (n : Nat) : Calm s ((o.bind (u.append n)).getD u) := by
  cases o with
  | none => exact h
  | some g =>
    cases e : u.append n g with
    | none => simpa [e] using h
    | some t => simpa [e] using append_calm h _ _ e

theorem listOffer_calm (b : Bool) (r : Bool × State) (hr : Calm s r.2) {a : Bool} {t' : State}
    (e : (if b = true then (true, u) else r) = (a, t')) : Calm s t' := by
  split at e
  · cases e; exact h
  · rw [e] at hr; exact hr

theorem letGo_calm (n : Nat) : Calm s (u.letGo n) := by
  unfold State.letGo
  (try dsimp only) <;> (repeat' split) <;> (try dsimp only) <;> repeat' (first | with_reducible exact h | with_reducible assumption | with_reducible apply dropRef_calm | with_reducible apply discardObj_calm | (intro _; exact Nat.le_refl _) | (intro _; exact Nat.zero_le _) | (intro _; simp; done) | rfl | (intro hb; exact hb) | (refine lampBounded ?_ ?_ <;> (first | exact List.Sublist.refl _ | exact List.nil_sublist _ | exact List.Sublist.map _ List.filter_sublist | exact List.filter_sublist | exact List.tail_sublist _)) | (refine linkBounded ?_ ?_ <;> (first | exact List.Sublist.refl _ | exact List.nil_sublist _ | exact List.Sublist.map _ List.filter_sublist | exact List.filter_sublist | exact List.tail_sublist _)) | (refine delivBounded ?_ ?_ <;> (first | exact List.Sublist.refl _ | exact List.nil_sublist _ | exact List.Sublist.map _ List.filter_sublist | exact List.filter_sublist | exact List.tail_sublist _)) | (simp; done))

theorem dropPlaying_calm (i : Nat) : Calm s (u.dropPlaying i) := by
  unfold State.dropPlaying
  (try dsimp only) <;> (repeat' split) <;> (try dsimp only) <;> repeat' (first | with_reducible exact h | with_reducible assumption | with_reducible apply onCh_calm | with_reducible apply dropRefOpt_calm | (intro _; exact Nat.le_refl _) | (intro _; exact Nat.zero_le _) | (intro _; simp; done) | rfl | (intro hb; exact hb) | (refine lampBounded ?_ ?_ <;> (first | exact List.Sublist.refl _ | exact List.nil_sublist _ | exact List.Sublist.map _ List.filter_sublist | exact List.filter_sublist | exact List.tail_sublist _)) | (refine linkBounded ?_ ?_ <;> (first | exact List.Sublist.refl _ | exact List.nil_sublist _ | exact List.Sublist.map _ List.filter_sublist | exact List.filter_sublist | exact List.tail_sublist _)) | (refine delivBounded ?_ ?_ <;> (first | exact List.Sublist.refl _ | exact List.nil_sublist _ | exact List.Sublist.map _ List.filter_sublist | exact List.filter_sublist | exact List.tail_sublist _)) | (simp; done))

theorem dropRecording_calm (i : Nat) : Calm s (u.dropRecording i) := by
  unfold State.dropRecording
  (try dsimp only) <;> (repeat' split) <;> (try dsimp only) <;> repeat' (first | with_reducible exact h | with_reducible assumption | with_reducible apply onCh_calm | with_reducible apply letGo_calm | (intro _; exact Nat.le_refl _) | (intro _; exact Nat.zero_le _) | (intro _; simp; done) | rfl | (intro hb; exact hb) | (refine lampBounded ?_ ?_ <;> (first | exact List.Sublist.refl _ | exact List.nil_sublist _ | exact List.Sublist.map _ List.filter_sublist | exact List.filter_sublist | exact List.tail_sublist _)) | (refine linkBounded ?_ ?_ <;> (first | exact List.Sublist.refl _ | exact List.nil_sublist _ | exact List.Sublist.map _ List.filter_sublist | exact List.filter_sublist | exact List.tail_sublist _)) | (refine delivBounded ?_ ?_ <;> (first | exact List.Sublist.refl _ | exact List.nil_sublist _ | exact List.Sublist.map _ List.filter_sublist | exact List.filter_sublist | exact List.tail_sublist _)) | (simp; done))

theorem forgetRecording_calm (i : Nat) : Calm s (u.forgetRecording i) := by
  unfold State.forgetRecording
  (try dsimp only) <;> (repeat' split) <;> (try dsimp only) <;> repeat' (first | with_reducible exact h | with_reducible assumption | with_reducible apply onCh_calm | (intro _; exact Nat.le_refl _) | (intro _; exact Nat.zero_le _) | (intro _; simp; done) | rfl | (intro hb; exact hb) | (refine lampBounded ?_ ?_ <;> (first | exact List.Sublist.refl _ | exact List.nil_sublist _ | exact List.Sublist.map _ List.filter_sublist | exact List.filter_sublist | exact List.tail_sublist _)) | (refine linkBounded ?_ ?_ <;> (first | exact List.Sublist.refl _ | exact List.nil_sublist _ | exact List.Sublist.map _ List.filter_sublist | exact List.filter_sublist | exact List.tail_sublist _)) | (refine delivBounded ?_ ?_ <;> (first | exact List.Sublist.refl _ | exact List.nil_sublist _ | exact List.Sublist.map _ List.filter_sublist | exact List.filter_sublist | exact List.tail_sublist _)) | (simp; done))

theorem toIdle_calm (i : Nat) : Calm s (u.toIdle i) := by
  unfold State.toIdle
  (try dsimp only) <;> (repeat' split) <;> (try dsimp only) <;> repeat' (first | with_reducible exact h | with_reducible assumption | with_reducible apply onCh_calm | with_reducible apply dropPlaying_calm | with_reducible apply dropRecording_calm | (intro _; exact Nat.le_refl _) | (intro _; exact Nat.zero_le _) | (intro _; simp; done) | rfl | (intro hb; exact hb) | (refine lampBounded ?_ ?_ <;> (first | exact List.Sublist.refl _ | exact List.nil_sublist _ | exact List.Sublist.map _ List.filter_sublist | exact List.filter_sublist | exact List.tail_sublist _)) | (refine linkBounded ?_ ?_ <;> (first | exact List.Sublist.refl _ | exact List.nil_sublist _ | exact List.Sublist.map _ List.filter_sublist | exact List.filter_sublist | exact List.tail_sublist _)) | (refine delivBounded ?_ ?_ <;> (first | exact List.Sublist.refl _ | exact List.nil_sublist _ | exact List.Sublist.map _ List.filter_sublist | exact List.filter_sublist | exact List.tail_sublist _)) | (simp; done))

theorem clearWith_calm (i : Nat) (ps : List Prompt) : Calm s (u.clearWith i ps) := by
  unfold State.clearWith
  (try dsimp only) <;> (repeat' split) <;> (try dsimp only) <;> repeat' (first | with_reducible exact h | with_reducible assumption | with_reducible apply onCh_calm | (intro _; exact Nat.le_refl _) | (intro _; exact Nat.zero_le _) | (intro _; simp; done) | rfl | (intro hb; exact hb) | (refine lampBounded ?_ ?_ <;> (first | exact List.Sublist.refl _ | exact List.nil_sublist _ | exact List.Sublist.map _ List.filter_sublist | exact List.filter_sublist | exact List.tail_sublist _)) | (refine linkBounded ?_ ?_ <;> (first | exact List.Sublist.refl _ | exact List.nil_sublist _ | exact List.Sublist.map _ List.filter_sublist | exact List.filter_sublist | exact List.tail_sublist _)) | (refine delivBounded ?_ ?_ <;> (first | exact List.Sublist.refl _ | exact List.nil_sublist _ | exact List.Sublist.map _ List.filter_sublist | exact List.filter_sublist | exact List.tail_sublist _)) | (simp; done))

theorem toClearing_calm (i : Nat) : Calm s (u.toClearing i) := by
  unfold State.toClearing
  (try dsimp only) <;> (repeat' split) <;> (try dsimp only) <;> repeat' (first | with_reducible exact h | with_reducible assumption | with_reducible apply onCh_calm | with_reducible apply send_calm | (intro _; exact Nat.le_refl _) | (intro _; exact Nat.zero_le _) | (intro _; simp; done) | rfl | (intro hb; exact hb) | (refine lampBounded ?_ ?_ <;> (first | exact List.Sublist.refl _ | exact List.nil_sublist _ | exact List.Sublist.map _ List.filter_sublist | exact List.filter_sublist | exact List.tail_sublist _)) | (refine linkBounded ?_ ?_ <;> (first | exact List.Sublist.refl _ | exact List.nil_sublist _ | exact List.Sublist.map _ List.filter_sublist | exact List.filter_sublist | exact List.tail_sublist _)) | (refine delivBounded ?_ ?_ <;> (first | exact List.Sublist.refl _ | exact List.nil_sublist _ | exact List.Sublist.map _ List.filter_sublist | exact List.filter_sublist | exact List.tail_sublist _)) | (simp; done))

theorem playMenu_calm (i : Nat) : Calm s (u.playMenu i) := by
  unfold State.playMenu
  (try dsimp only) <;> (repeat' split) <;> (try dsimp only) <;> repeat' (first | with_reducible exact h | with_reducible assumption | with_reducible apply onCh_calm | (intro _; exact Nat.le_refl _) | (intro _; exact Nat.zero_le _) | (intro _; simp; done) | rfl | (intro hb; exact hb) | (refine lampBounded ?_ ?_ <;> (first | exact List.Sublist.refl _ | exact List.nil_sublist _ | exact List.Sublist.map _ List.filter_sublist | exact List.filter_sublist | exact List.tail_sublist _)) | (refine linkBounded ?_ ?_ <;> (first | exact List.Sublist.refl _ | exact List.nil_sublist _ | exact List.Sublist.map _ List.filter_sublist | exact List.filter_sublist | exact List.tail_sublist _)) | (refine delivBounded ?_ ?_ <;> (first | exact List.Sublist.refl _ | exact List.nil_sublist _ | exact List.Sublist.map _ List.filter_sublist | exact List.filter_sublist | exact List.tail_sublist _)) | (simp; done))

theorem enterMenu_calm (i : Nat) (st : ChanState) : Calm s (u.enterMenu i st) := by
  unfold State.enterMenu
  (try dsimp only) <;> (repeat' split) <;> (try dsimp only) <;> repeat' (first | with_reducible exact h | with_reducible assumption | with_reducible apply onCh_calm | with_reducible apply playMenu_calm | (intro _; exact Nat.le_refl _) | (intro _; exact Nat.zero_le _) | (intro _; simp; done) | rfl | (intro hb; exact hb) | (refine lampBounded ?_ ?_ <;> (first | exact List.Sublist.refl _ | exact List.nil_sublist _ | exact List.Sublist.map _ List.filter_sublist | exact List.filter_sublist | exact List.tail_sublist _)) | (refine linkBounded ?_ ?_ <;> (first | exact List.Sublist.refl _ | exact List.nil_sublist _ | exact List.Sublist.map _ List.filter_sublist | exact List.filter_sublist | exact List.tail_sublist _)) | (refine delivBounded ?_ ?_ <;> (first | exact List.Sublist.refl _ | exact List.nil_sublist _ | exact List.Sublist.map _ List.filter_sublist | exact List.filter_sublist | exact List.tail_sublist _)) | (simp; done))

theorem keyTaken_calm (i : Nat) : Calm s (u.keyTaken i) := by
  unfold State.keyTaken
  (try dsimp only) <;> (repeat' split) <;> (try dsimp only) <;> repeat' (first | with_reducible exact h | with_reducible assumption | with_reducible apply onCh_calm | (intro _; exact Nat.le_refl _) | (intro _; exact Nat.zero_le _) | (intro _; simp; done) | rfl | (intro hb; exact hb) | (refine lampBounded ?_ ?_ <;> (first | exact List.Sublist.refl _ | exact List.nil_sublist _ | exact List.Sublist.map _ List.filter_sublist | exact List.filter_sublist | exact List.tail_sublist _)) | (refine linkBounded ?_ ?_ <;> (first | exact List.Sublist.refl _ | exact List.nil_sublist _ | exact List.Sublist.map _ List.filter_sublist | exact List.filter_sublist | exact List.tail_sublist _)) | (refine delivBounded ?_ ?_ <;> (first | exact List.Sublist.refl _ | exact List.nil_sublist _ | exact List.Sublist.map _ List.filter_sublist | exact List.filter_sublist | exact List.tail_sublist _)) | (simp; done))

theorem noMeaning_calm (i : Nat) : Calm s (u.noMeaning i) := by
  unfold State.noMeaning
  (try dsimp only) <;> (repeat' split) <;> (try dsimp only) <;> repeat' (first | with_reducible exact h | with_reducible assumption | with_reducible apply onCh_calm | (intro _; exact Nat.le_refl _) | (intro _; exact Nat.zero_le _) | (intro _; simp; done) | rfl | (intro hb; exact hb) | (refine lampBounded ?_ ?_ <;> (first | exact List.Sublist.refl _ | exact List.nil_sublist _ | exact List.Sublist.map _ List.filter_sublist | exact List.filter_sublist | exact List.tail_sublist _)) | (refine linkBounded ?_ ?_ <;> (first | exact List.Sublist.refl _ | exact List.nil_sublist _ | exact List.Sublist.map _ List.filter_sublist | exact List.filter_sublist | exact List.tail_sublist _)) | (refine delivBounded ?_ ?_ <;> (first | exact List.Sublist.refl _ | exact List.nil_sublist _ | exact List.Sublist.map _ List.filter_sublist | exact List.filter_sublist | exact List.tail_sublist _)) | (simp; done))

theorem prompting_calm (i : Nat) (ss : List Sound) (a : After) : Calm s (u.prompting i ss a) := by
  unfold State.prompting
  (try dsimp only) <;> (repeat' split) <;> (try dsimp only) <;> repeat' (first | with_reducible exact h | with_reducible assumption | with_reducible apply onCh_calm | (intro _; exact Nat.le_refl _) | (intro _; exact Nat.zero_le _) | (intro _; simp; done) | rfl | (intro hb; exact hb) | (refine lampBounded ?_ ?_ <;> (first | exact List.Sublist.refl _ | exact List.nil_sublist _ | exact List.Sublist.map _ List.filter_sublist | exact List.filter_sublist | exact List.tail_sublist _)) | (refine linkBounded ?_ ?_ <;> (first | exact List.Sublist.refl _ | exact List.nil_sublist _ | exact List.Sublist.map _ List.filter_sublist | exact List.filter_sublist | exact List.tail_sublist _)) | (refine delivBounded ?_ ?_ <;> (first | exact List.Sublist.refl _ | exact List.nil_sublist _ | exact List.Sublist.map _ List.filter_sublist | exact List.filter_sublist | exact List.tail_sublist _)) | (simp; done))

theorem promptThen_calm (i : Nat) (p : Prompt) (a : After) : Calm s (u.promptThen i p a) := by
  unfold State.promptThen
  (try dsimp only) <;> (repeat' split) <;> (try dsimp only) <;> repeat' (first | with_reducible exact h | with_reducible assumption | with_reducible apply prompting_calm | (intro _; exact Nat.le_refl _) | (intro _; exact Nat.zero_le _) | (intro _; simp; done) | rfl | (intro hb; exact hb) | (refine lampBounded ?_ ?_ <;> (first | exact List.Sublist.refl _ | exact List.nil_sublist _ | exact List.Sublist.map _ List.filter_sublist | exact List.filter_sublist | exact List.tail_sublist _)) | (refine linkBounded ?_ ?_ <;> (first | exact List.Sublist.refl _ | exact List.nil_sublist _ | exact List.Sublist.map _ List.filter_sublist | exact List.filter_sublist | exact List.tail_sublist _)) | (refine delivBounded ?_ ?_ <;> (first | exact List.Sublist.refl _ | exact List.nil_sublist _ | exact List.Sublist.map _ List.filter_sublist | exact List.filter_sublist | exact List.tail_sublist _)) | (simp; done))

theorem answerCall_calm (i : Nat) : Calm s (u.answerCall i) := by
  unfold State.answerCall
  (try dsimp only) <;> (repeat' split) <;> (try dsimp only) <;> repeat' (first | with_reducible exact h | with_reducible assumption | with_reducible apply onCh_calm | with_reducible apply send_calm | with_reducible apply answer_calm | (intro _; exact Nat.le_refl _) | (intro _; exact Nat.zero_le _) | (intro _; simp; done) | rfl | (intro hb; exact hb) | (refine lampBounded ?_ ?_ <;> (first | exact List.Sublist.refl _ | exact List.nil_sublist _ | exact List.Sublist.map _ List.filter_sublist | exact List.filter_sublist | exact List.tail_sublist _)) | (refine linkBounded ?_ ?_ <;> (first | exact List.Sublist.refl _ | exact List.nil_sublist _ | exact List.Sublist.map _ List.filter_sublist | exact List.filter_sublist | exact List.tail_sublist _)) | (refine delivBounded ?_ ?_ <;> (first | exact List.Sublist.refl _ | exact List.nil_sublist _ | exact List.Sublist.map _ List.filter_sublist | exact List.filter_sublist | exact List.tail_sublist _)) | (simp; done))

theorem startGreeting_calm (i k : Nat) (r : CallReason) : Calm s (u.startGreeting i k r) := by
  unfold State.startGreeting
  refine onCh_calm (heldRef_calm h _) _ _ ?_
  intro _; exact Nat.le_refl _

theorem admitTone_calm (i : Nat) : Calm s (u.admitTone i) := by
  unfold State.admitTone
  (try dsimp only) <;> (repeat' split) <;> (try dsimp only) <;> repeat' (first | with_reducible exact h | with_reducible assumption | with_reducible apply onCh_calm | with_reducible apply returnRes_calm | with_reducible apply admitDeposit_calm | with_reducible apply clearWith_calm | (with_reducible apply admitDeposit_calm'; on_goal 2 => assumption) | (intro _; exact Nat.le_refl _) | (intro _; exact Nat.zero_le _) | (intro _; simp; done) | rfl | (intro hb; exact hb) | (refine lampBounded ?_ ?_ <;> (first | exact List.Sublist.refl _ | exact List.nil_sublist _ | exact List.Sublist.map _ List.filter_sublist | exact List.filter_sublist | exact List.tail_sublist _)) | (refine linkBounded ?_ ?_ <;> (first | exact List.Sublist.refl _ | exact List.nil_sublist _ | exact List.Sublist.map _ List.filter_sublist | exact List.filter_sublist | exact List.tail_sublist _)) | (refine delivBounded ?_ ?_ <;> (first | exact List.Sublist.refl _ | exact List.nil_sublist _ | exact List.Sublist.map _ List.filter_sublist | exact List.filter_sublist | exact List.tail_sublist _)) | (simp; done))

theorem goToTone_calm (i : Nat) : Calm s (u.goToTone i) := by
  unfold State.goToTone
  (try dsimp only) <;> (repeat' split) <;> (try dsimp only) <;> repeat' (first | with_reducible exact h | with_reducible assumption | with_reducible apply onCh_calm | with_reducible apply reserve_calm | with_reducible apply clearWith_calm | with_reducible apply admitTone_calm | (with_reducible apply reserve_calm'; on_goal 2 => assumption) | (intro _; exact Nat.le_refl _) | (intro _; exact Nat.zero_le _) | (intro _; simp; done) | rfl | (intro hb; exact hb) | (refine lampBounded ?_ ?_ <;> (first | exact List.Sublist.refl _ | exact List.nil_sublist _ | exact List.Sublist.map _ List.filter_sublist | exact List.filter_sublist | exact List.tail_sublist _)) | (refine linkBounded ?_ ?_ <;> (first | exact List.Sublist.refl _ | exact List.nil_sublist _ | exact List.Sublist.map _ List.filter_sublist | exact List.filter_sublist | exact List.tail_sublist _)) | (refine delivBounded ?_ ?_ <;> (first | exact List.Sublist.refl _ | exact List.nil_sublist _ | exact List.Sublist.map _ List.filter_sublist | exact List.filter_sublist | exact List.tail_sublist _)) | (simp; done))

theorem greetingEnded_calm (i : Nat) : Calm s (u.greetingEnded i) := by
  unfold State.greetingEnded
  (try dsimp only) <;> (repeat' split) <;> (try dsimp only) <;> repeat' (first | with_reducible exact h | with_reducible assumption | with_reducible apply dropPlaying_calm | with_reducible apply clearWith_calm | with_reducible apply goToTone_calm | (intro _; exact Nat.le_refl _) | (intro _; exact Nat.zero_le _) | (intro _; simp; done) | rfl | (intro hb; exact hb) | (refine lampBounded ?_ ?_ <;> (first | exact List.Sublist.refl _ | exact List.nil_sublist _ | exact List.Sublist.map _ List.filter_sublist | exact List.filter_sublist | exact List.tail_sublist _)) | (refine linkBounded ?_ ?_ <;> (first | exact List.Sublist.refl _ | exact List.nil_sublist _ | exact List.Sublist.map _ List.filter_sublist | exact List.filter_sublist | exact List.tail_sublist _)) | (refine delivBounded ?_ ?_ <;> (first | exact List.Sublist.refl _ | exact List.nil_sublist _ | exact List.Sublist.map _ List.filter_sublist | exact List.filter_sublist | exact List.tail_sublist _)) | (simp; done))

theorem greetingKey_calm (i : Nat) (key : Key) : Calm s (u.greetingKey i key) := by
  unfold State.greetingKey
  (try dsimp only) <;> (repeat' split) <;> (try dsimp only) <;> repeat' (first | with_reducible exact h | with_reducible assumption | with_reducible apply onCh_calm | with_reducible apply send_calm | with_reducible apply dropPlaying_calm | with_reducible apply keyTaken_calm | with_reducible apply noMeaning_calm | with_reducible apply greetingEnded_calm | (intro _; exact Nat.le_refl _) | (intro _; exact Nat.zero_le _) | (intro _; simp; done) | rfl | (intro hb; exact hb) | (refine lampBounded ?_ ?_ <;> (first | exact List.Sublist.refl _ | exact List.nil_sublist _ | exact List.Sublist.map _ List.filter_sublist | exact List.filter_sublist | exact List.tail_sublist _)) | (refine linkBounded ?_ ?_ <;> (first | exact List.Sublist.refl _ | exact List.nil_sublist _ | exact List.Sublist.map _ List.filter_sublist | exact List.filter_sublist | exact List.tail_sublist _)) | (refine delivBounded ?_ ?_ <;> (first | exact List.Sublist.refl _ | exact List.nil_sublist _ | exact List.Sublist.map _ List.filter_sublist | exact List.filter_sublist | exact List.tail_sublist _)) | (simp; done))

theorem giveBack_calm (i grant : Nat) : Calm s (u.giveBack i grant) := by
  unfold State.giveBack
  (try dsimp only) <;> (repeat' split) <;> (try dsimp only) <;> repeat' (first | with_reducible exact h | with_reducible assumption | with_reducible apply onCh_calm | with_reducible apply returnRes_calm | (intro _; exact Nat.le_refl _) | (intro _; exact Nat.zero_le _) | (intro _; simp; done) | rfl | (intro hb; exact hb) | (refine lampBounded ?_ ?_ <;> (first | exact List.Sublist.refl _ | exact List.nil_sublist _ | exact List.Sublist.map _ List.filter_sublist | exact List.filter_sublist | exact List.tail_sublist _)) | (refine linkBounded ?_ ?_ <;> (first | exact List.Sublist.refl _ | exact List.nil_sublist _ | exact List.Sublist.map _ List.filter_sublist | exact List.filter_sublist | exact List.tail_sublist _)) | (refine delivBounded ?_ ?_ <;> (first | exact List.Sublist.refl _ | exact List.nil_sublist _ | exact List.Sublist.map _ List.filter_sublist | exact List.filter_sublist | exact List.tail_sublist _)) | (simp; done))

theorem closeDeposit_calm (i trim : Nat) (spent : Bool) : Calm s (u.closeDeposit i trim spent) := by
  unfold State.closeDeposit
  (try dsimp only) <;> (repeat' split) <;> (try dsimp only) <;> repeat' (first | with_reducible exact h | with_reducible assumption | with_reducible apply onCh_calm | with_reducible apply closeObj_calm | with_reducible apply clearWith_calm | with_reducible apply enterMenu_calm | with_reducible apply giveBack_calm | (with_reducible apply closeObj_calm'; on_goal 2 => assumption) | (intro _; exact Nat.le_refl _) | (intro _; exact Nat.zero_le _) | (intro _; simp; done) | rfl | (intro hb; exact hb) | (refine lampBounded ?_ ?_ <;> (first | exact List.Sublist.refl _ | exact List.nil_sublist _ | exact List.Sublist.map _ List.filter_sublist | exact List.filter_sublist | exact List.tail_sublist _)) | (refine linkBounded ?_ ?_ <;> (first | exact List.Sublist.refl _ | exact List.nil_sublist _ | exact List.Sublist.map _ List.filter_sublist | exact List.filter_sublist | exact List.tail_sublist _)) | (refine delivBounded ?_ ?_ <;> (first | exact List.Sublist.refl _ | exact List.nil_sublist _ | exact List.Sublist.map _ List.filter_sublist | exact List.filter_sublist | exact List.tail_sublist _)) | (simp; done))

theorem recordAgain_calm (i : Nat) : Calm s (u.recordAgain i) := by
  unfold State.recordAgain
  (try dsimp only) <;> (repeat' split) <;> (try dsimp only) <;> repeat' (first | with_reducible exact h | with_reducible assumption | with_reducible apply onCh_calm | with_reducible apply returnGrant_calm | with_reducible apply forgetRecording_calm | (intro _; exact Nat.le_refl _) | (intro _; exact Nat.zero_le _) | (intro _; simp; done) | rfl | (intro hb; exact hb) | (refine lampBounded ?_ ?_ <;> (first | exact List.Sublist.refl _ | exact List.nil_sublist _ | exact List.Sublist.map _ List.filter_sublist | exact List.filter_sublist | exact List.tail_sublist _)) | (refine linkBounded ?_ ?_ <;> (first | exact List.Sublist.refl _ | exact List.nil_sublist _ | exact List.Sublist.map _ List.filter_sublist | exact List.filter_sublist | exact List.tail_sublist _)) | (refine delivBounded ?_ ?_ <;> (first | exact List.Sublist.refl _ | exact List.nil_sublist _ | exact List.Sublist.map _ List.filter_sublist | exact List.filter_sublist | exact List.tail_sublist _)) | (simp; done))

theorem cancelDeposit_calm (i : Nat) : Calm s (u.cancelDeposit i) := by
  unfold State.cancelDeposit
  (try dsimp only) <;> (repeat' split) <;> (try dsimp only) <;> repeat' (first | with_reducible exact h | with_reducible assumption | with_reducible apply discardObj_calm | with_reducible apply recordAgain_calm | (intro _; exact Nat.le_refl _) | (intro _; exact Nat.zero_le _) | (intro _; simp; done) | rfl | (intro hb; exact hb) | (refine lampBounded ?_ ?_ <;> (first | exact List.Sublist.refl _ | exact List.nil_sublist _ | exact List.Sublist.map _ List.filter_sublist | exact List.filter_sublist | exact List.tail_sublist _)) | (refine linkBounded ?_ ?_ <;> (first | exact List.Sublist.refl _ | exact List.nil_sublist _ | exact List.Sublist.map _ List.filter_sublist | exact List.filter_sublist | exact List.tail_sublist _)) | (refine delivBounded ?_ ?_ <;> (first | exact List.Sublist.refl _ | exact List.nil_sublist _ | exact List.Sublist.map _ List.filter_sublist | exact List.filter_sublist | exact List.tail_sublist _)) | (simp; done))

theorem recordingKey_calm (i : Nat) (key : Key) : Calm s (u.recordingKey i key) := by
  unfold State.recordingKey
  (try dsimp only) <;> (repeat' split) <;> (try dsimp only) <;> repeat' (first | with_reducible exact h | with_reducible assumption | with_reducible apply closeDeposit_calm | with_reducible apply cancelDeposit_calm | (intro _; exact Nat.le_refl _) | (intro _; exact Nat.zero_le _) | (intro _; simp; done) | rfl | (intro hb; exact hb) | (refine lampBounded ?_ ?_ <;> (first | exact List.Sublist.refl _ | exact List.nil_sublist _ | exact List.Sublist.map _ List.filter_sublist | exact List.filter_sublist | exact List.tail_sublist _)) | (refine linkBounded ?_ ?_ <;> (first | exact List.Sublist.refl _ | exact List.nil_sublist _ | exact List.Sublist.map _ List.filter_sublist | exact List.filter_sublist | exact List.tail_sublist _)) | (refine delivBounded ?_ ?_ <;> (first | exact List.Sublist.refl _ | exact List.nil_sublist _ | exact List.Sublist.map _ List.filter_sublist | exact List.filter_sublist | exact List.tail_sublist _)) | (simp; done))

theorem depositSegment_calm (i : Nat) (seg : Segment) : Calm s (u.depositSegment i seg) := by
  unfold State.depositSegment
  (try dsimp only) <;> (repeat' split) <;> (try dsimp only) <;> repeat' (first | with_reducible exact h | with_reducible assumption | with_reducible apply closeDeposit_calm | (with_reducible apply append_calm; on_goal 2 => assumption) | (intro _; exact Nat.le_refl _) | (intro _; exact Nat.zero_le _) | (intro _; simp; done) | rfl | (intro hb; exact hb) | (refine lampBounded ?_ ?_ <;> (first | exact List.Sublist.refl _ | exact List.nil_sublist _ | exact List.Sublist.map _ List.filter_sublist | exact List.filter_sublist | exact List.tail_sublist _)) | (refine linkBounded ?_ ?_ <;> (first | exact List.Sublist.refl _ | exact List.nil_sublist _ | exact List.Sublist.map _ List.filter_sublist | exact List.filter_sublist | exact List.tail_sublist _)) | (refine delivBounded ?_ ?_ <;> (first | exact List.Sublist.refl _ | exact List.nil_sublist _ | exact List.Sublist.map _ List.filter_sublist | exact List.filter_sublist | exact List.tail_sublist _)) | (simp; done))

theorem sendDeposit_calm (i : Nat) (urgent : Bool) : Calm s (u.sendDeposit i urgent) := by
  unfold State.sendDeposit
  (try dsimp only) <;> (repeat' split) <;> (try dsimp only) <;> repeat' (first | with_reducible exact h | with_reducible assumption | with_reducible apply onCh_calm | with_reducible apply commit_calm | (intro _; exact Nat.le_refl _) | (intro _; exact Nat.zero_le _) | (intro _; simp; done) | rfl | (intro hb; exact hb) | (refine lampBounded ?_ ?_ <;> (first | exact List.Sublist.refl _ | exact List.nil_sublist _ | exact List.Sublist.map _ List.filter_sublist | exact List.filter_sublist | exact List.tail_sublist _)) | (refine linkBounded ?_ ?_ <;> (first | exact List.Sublist.refl _ | exact List.nil_sublist _ | exact List.Sublist.map _ List.filter_sublist | exact List.filter_sublist | exact List.tail_sublist _)) | (refine delivBounded ?_ ?_ <;> (first | exact List.Sublist.refl _ | exact List.nil_sublist _ | exact List.Sublist.map _ List.filter_sublist | exact List.filter_sublist | exact List.tail_sublist _)) | (simp; done))

theorem sentAndClear_calm (i : Nat) (urgent : Bool) : Calm s (u.sentAndClear i urgent) := by
  unfold State.sentAndClear
  (try dsimp only) <;> (repeat' split) <;> (try dsimp only) <;> repeat' (first | with_reducible exact h | with_reducible assumption | with_reducible apply clearWith_calm | with_reducible apply sendDeposit_calm | (intro _; exact Nat.le_refl _) | (intro _; exact Nat.zero_le _) | (intro _; simp; done) | rfl | (intro hb; exact hb) | (refine lampBounded ?_ ?_ <;> (first | exact List.Sublist.refl _ | exact List.nil_sublist _ | exact List.Sublist.map _ List.filter_sublist | exact List.filter_sublist | exact List.tail_sublist _)) | (refine linkBounded ?_ ?_ <;> (first | exact List.Sublist.refl _ | exact List.nil_sublist _ | exact List.Sublist.map _ List.filter_sublist | exact List.filter_sublist | exact List.tail_sublist _)) | (refine delivBounded ?_ ?_ <;> (first | exact List.Sublist.refl _ | exact List.nil_sublist _ | exact List.Sublist.map _ List.filter_sublist | exact List.filter_sublist | exact List.tail_sublist _)) | (simp; done))

theorem optionsKey_calm (i : Nat) (key : Key) : Calm s (u.optionsKey i key) := by
  unfold State.optionsKey
  (try dsimp only) <;> (repeat' split) <;> (try dsimp only) <;> repeat' (first | with_reducible exact h | with_reducible assumption | with_reducible apply dropRef_calm | with_reducible apply clearWith_calm | with_reducible apply playMenu_calm | with_reducible apply keyTaken_calm | with_reducible apply giveBack_calm | with_reducible apply recordAgain_calm | with_reducible apply sentAndClear_calm | (intro _; exact Nat.le_refl _) | (intro _; exact Nat.zero_le _) | (intro _; simp; done) | rfl | (intro hb; exact hb) | (refine lampBounded ?_ ?_ <;> (first | exact List.Sublist.refl _ | exact List.nil_sublist _ | exact List.Sublist.map _ List.filter_sublist | exact List.filter_sublist | exact List.tail_sublist _)) | (refine linkBounded ?_ ?_ <;> (first | exact List.Sublist.refl _ | exact List.nil_sublist _ | exact List.Sublist.map _ List.filter_sublist | exact List.filter_sublist | exact List.tail_sublist _)) | (refine delivBounded ?_ ?_ <;> (first | exact List.Sublist.refl _ | exact List.nil_sublist _ | exact List.Sublist.map _ List.filter_sublist | exact List.filter_sublist | exact List.tail_sublist _)) | (simp; done))

theorem padAndSend_calm (i : Nat) (gathered : Option Segment) : Calm s (u.padAndSend i gathered) := by
  unfold State.padAndSend
  dsimp only
  split
  · exact h
  · split
    · exact giveBack_calm (closeObj_calm' (heldAppend_calm h _ _) _ _ _ (by assumption)) _ _
    · exact sendDeposit_calm (closeObj_calm' (heldAppend_calm h _ _) _ _ _ (by assumption)) _ _

theorem leaveTone_calm (i : Nat) : Calm s (u.leaveTone i) := by
  unfold State.leaveTone
  (try dsimp only) <;> (repeat' split) <;> (try dsimp only) <;> repeat' (first | with_reducible exact h | with_reducible assumption | with_reducible apply discardObj_calm | with_reducible apply giveBack_calm | (intro _; exact Nat.le_refl _) | (intro _; exact Nat.zero_le _) | (intro _; simp; done) | rfl | (intro hb; exact hb) | (refine lampBounded ?_ ?_ <;> (first | exact List.Sublist.refl _ | exact List.nil_sublist _ | exact List.Sublist.map _ List.filter_sublist | exact List.filter_sublist | exact List.tail_sublist _)) | (refine linkBounded ?_ ?_ <;> (first | exact List.Sublist.refl _ | exact List.nil_sublist _ | exact List.Sublist.map _ List.filter_sublist | exact List.filter_sublist | exact List.tail_sublist _)) | (refine delivBounded ?_ ?_ <;> (first | exact List.Sublist.refl _ | exact List.nil_sublist _ | exact List.Sublist.map _ List.filter_sublist | exact List.filter_sublist | exact List.tail_sublist _)) | (simp; done))

theorem present_calm (i : Nat) (e : Entry) : Calm s (u.present i e) := by
  unfold State.present
  dsimp only
  have h1 := onCh_calm h i (fun c => { c with
    current := some e.number, currentGone := false, presented := joinSet c.presented e.number,
    digitTimer := none, interDigitTimer := none, silentRepeats := 0 }) (fun _ => Nat.le_refl _)
  split
  · refine onCh_calm h1 _ _ ?_
    intro _; exact Nat.le_refl _
  · split
    · rename_i e1
      refine onCh_calm (heldRef_calm' h1 _ e1) _ _ ?_
      intro _; exact Nat.le_refl _
    · refine onCh_calm h1 _ _ ?_
      intro _; exact Nat.le_refl _

theorem presentNext_calm (i : Nat) : Calm s (u.presentNext i) := by
  unfold State.presentNext
  (try dsimp only) <;> (repeat' split) <;> (try dsimp only) <;> repeat' (first | with_reducible exact h | with_reducible assumption | with_reducible apply onCh_calm | with_reducible apply promptThen_calm | with_reducible apply present_calm | (intro _; exact Nat.le_refl _) | (intro _; exact Nat.zero_le _) | (intro _; simp; done) | rfl | (intro hb; exact hb) | (refine lampBounded ?_ ?_ <;> (first | exact List.Sublist.refl _ | exact List.nil_sublist _ | exact List.Sublist.map _ List.filter_sublist | exact List.filter_sublist | exact List.tail_sublist _)) | (refine linkBounded ?_ ?_ <;> (first | exact List.Sublist.refl _ | exact List.nil_sublist _ | exact List.Sublist.map _ List.filter_sublist | exact List.filter_sublist | exact List.tail_sublist _)) | (refine delivBounded ?_ ?_ <;> (first | exact List.Sublist.refl _ | exact List.nil_sublist _ | exact List.Sublist.map _ List.filter_sublist | exact List.filter_sublist | exact List.tail_sublist _)) | (simp; done))

theorem listen_calm (i : Nat) : Calm s (u.listen i) := by
  unfold State.listen
  (try dsimp only) <;> (repeat' split) <;> (try dsimp only) <;> repeat' (first | with_reducible exact h | with_reducible assumption | with_reducible apply onCh_calm | with_reducible apply promptThen_calm | with_reducible apply present_calm | (intro _; exact Nat.le_refl _) | (intro _; exact Nat.zero_le _) | (intro _; simp; done) | rfl | (intro hb; exact hb) | (refine lampBounded ?_ ?_ <;> (first | exact List.Sublist.refl _ | exact List.nil_sublist _ | exact List.Sublist.map _ List.filter_sublist | exact List.filter_sublist | exact List.tail_sublist _)) | (refine linkBounded ?_ ?_ <;> (first | exact List.Sublist.refl _ | exact List.nil_sublist _ | exact List.Sublist.map _ List.filter_sublist | exact List.filter_sublist | exact List.tail_sublist _)) | (refine delivBounded ?_ ?_ <;> (first | exact List.Sublist.refl _ | exact List.nil_sublist _ | exact List.Sublist.map _ List.filter_sublist | exact List.filter_sublist | exact List.tail_sublist _)) | (simp; done))

theorem endPlayback_calm (i : Nat) (release : Bool) : Calm s (u.endPlayback i release) := by
  unfold State.endPlayback
  (try dsimp only) <;> (repeat' split) <;> (try dsimp only) <;> repeat' (first | with_reducible exact h | with_reducible assumption | with_reducible apply askHeard_calm | with_reducible apply dropPlaying_calm | (intro _; exact Nat.le_refl _) | (intro _; exact Nat.zero_le _) | (intro _; simp; done) | rfl | (intro hb; exact hb) | (refine lampBounded ?_ ?_ <;> (first | exact List.Sublist.refl _ | exact List.nil_sublist _ | exact List.Sublist.map _ List.filter_sublist | exact List.filter_sublist | exact List.tail_sublist _)) | (refine linkBounded ?_ ?_ <;> (first | exact List.Sublist.refl _ | exact List.nil_sublist _ | exact List.Sublist.map _ List.filter_sublist | exact List.filter_sublist | exact List.tail_sublist _)) | (refine delivBounded ?_ ?_ <;> (first | exact List.Sublist.refl _ | exact List.nil_sublist _ | exact List.Sublist.map _ List.filter_sublist | exact List.filter_sublist | exact List.tail_sublist _)) | (simp; done))

theorem enterAddressing_calm (i : Nat) (r : ReturnState) : Calm s (u.enterAddressing i r) := by
  unfold State.enterAddressing
  (try dsimp only) <;> (repeat' split) <;> (try dsimp only) <;> repeat' (first | with_reducible exact h | with_reducible assumption | with_reducible apply onCh_calm | with_reducible apply enterMenu_calm | (intro _; exact Nat.le_refl _) | (intro _; exact Nat.zero_le _) | (intro _; simp; done) | rfl | (intro hb; exact hb) | (refine lampBounded ?_ ?_ <;> (first | exact List.Sublist.refl _ | exact List.nil_sublist _ | exact List.Sublist.map _ List.filter_sublist | exact List.filter_sublist | exact List.tail_sublist _)) | (refine linkBounded ?_ ?_ <;> (first | exact List.Sublist.refl _ | exact List.nil_sublist _ | exact List.Sublist.map _ List.filter_sublist | exact List.filter_sublist | exact List.tail_sublist _)) | (refine delivBounded ?_ ?_ <;> (first | exact List.Sublist.refl _ | exact List.nil_sublist _ | exact List.Sublist.map _ List.filter_sublist | exact List.filter_sublist | exact List.tail_sublist _)) | (simp; done))

theorem enterList_calm (i : Nat) (r : ReturnState) : Calm s (u.enterList i r) := by
  unfold State.enterList
  (try dsimp only) <;> (repeat' split) <;> (try dsimp only) <;> repeat' (first | with_reducible exact h | with_reducible assumption | with_reducible apply onCh_calm | with_reducible apply enterMenu_calm | (intro _; exact Nat.le_refl _) | (intro _; exact Nat.zero_le _) | (intro _; simp; done) | rfl | (intro hb; exact hb) | (refine lampBounded ?_ ?_ <;> (first | exact List.Sublist.refl _ | exact List.nil_sublist _ | exact List.Sublist.map _ List.filter_sublist | exact List.filter_sublist | exact List.tail_sublist _)) | (refine linkBounded ?_ ?_ <;> (first | exact List.Sublist.refl _ | exact List.nil_sublist _ | exact List.Sublist.map _ List.filter_sublist | exact List.filter_sublist | exact List.tail_sublist _)) | (refine delivBounded ?_ ?_ <;> (first | exact List.Sublist.refl _ | exact List.nil_sublist _ | exact List.Sublist.map _ List.filter_sublist | exact List.filter_sublist | exact List.tail_sublist _)) | (simp; done))

theorem goReturn_calm (i : Nat) : Calm s (u.goReturn i) := by
  unfold State.goReturn
  (try dsimp only) <;> (repeat' split) <;> (try dsimp only) <;> repeat' (first | with_reducible exact h | with_reducible assumption | with_reducible apply onCh_calm | with_reducible apply enterMenu_calm | (intro _; exact Nat.le_refl _) | (intro _; exact Nat.zero_le _) | (intro _; simp; done) | rfl | (intro hb; exact hb) | (refine lampBounded ?_ ?_ <;> (first | exact List.Sublist.refl _ | exact List.nil_sublist _ | exact List.Sublist.map _ List.filter_sublist | exact List.filter_sublist | exact List.tail_sublist _)) | (refine linkBounded ?_ ?_ <;> (first | exact List.Sublist.refl _ | exact List.nil_sublist _ | exact List.Sublist.map _ List.filter_sublist | exact List.filter_sublist | exact List.tail_sublist _)) | (refine delivBounded ?_ ?_ <;> (first | exact List.Sublist.refl _ | exact List.nil_sublist _ | exact List.Sublist.map _ List.filter_sublist | exact List.filter_sublist | exact List.tail_sublist _)) | (simp; done))

theorem addressInvalid_calm (i : Nat) (p : Prompt) (again : After) : Calm s (u.addressInvalid i p again) := by
  unfold State.addressInvalid
  (try dsimp only) <;> (repeat' split) <;> (try dsimp only) <;> repeat' (first | with_reducible exact h | with_reducible assumption | with_reducible apply onCh_calm | with_reducible apply promptThen_calm | (intro _; exact Nat.le_refl _) | (intro _; exact Nat.zero_le _) | (intro _; simp; done) | rfl | (intro hb; exact hb) | (refine lampBounded ?_ ?_ <;> (first | exact List.Sublist.refl _ | exact List.nil_sublist _ | exact List.Sublist.map _ List.filter_sublist | exact List.filter_sublist | exact List.tail_sublist _)) | (refine linkBounded ?_ ?_ <;> (first | exact List.Sublist.refl _ | exact List.nil_sublist _ | exact List.Sublist.map _ List.filter_sublist | exact List.filter_sublist | exact List.tail_sublist _)) | (refine delivBounded ?_ ?_ <;> (first | exact List.Sublist.refl _ | exact List.nil_sublist _ | exact List.Sublist.map _ List.filter_sublist | exact List.filter_sublist | exact List.tail_sublist _)) | (simp; done))

theorem startSend_calm (i : Nat) (t : SendTarget) : Calm s (u.startSend i t) := by
  unfold State.startSend
  (try dsimp only) <;> (repeat' split) <;> (try dsimp only) <;> repeat' (first | with_reducible exact h | with_reducible assumption | with_reducible apply onCh_calm | with_reducible apply admitSend_calm | with_reducible apply promptThen_calm | (with_reducible apply admitSend_calm'; on_goal 2 => assumption) | (intro _; exact Nat.le_refl _) | (intro _; exact Nat.zero_le _) | (intro _; simp; done) | rfl | (intro hb; exact hb) | (refine lampBounded ?_ ?_ <;> (first | exact List.Sublist.refl _ | exact List.nil_sublist _ | exact List.Sublist.map _ List.filter_sublist | exact List.filter_sublist | exact List.tail_sublist _)) | (refine linkBounded ?_ ?_ <;> (first | exact List.Sublist.refl _ | exact List.nil_sublist _ | exact List.Sublist.map _ List.filter_sublist | exact List.filter_sublist | exact List.tail_sublist _)) | (refine delivBounded ?_ ?_ <;> (first | exact List.Sublist.refl _ | exact List.nil_sublist _ | exact List.Sublist.map _ List.filter_sublist | exact List.filter_sublist | exact List.tail_sublist _)) | (simp; done))

theorem closeSend_calm (i trim : Nat) (spent : Bool) : Calm s (u.closeSend i trim spent) := by
  unfold State.closeSend
  (try dsimp only) <;> (repeat' split) <;> (try dsimp only) <;> repeat' (first | with_reducible exact h | with_reducible assumption | with_reducible apply onCh_calm | with_reducible apply closeObj_calm | with_reducible apply forgetRecording_calm | with_reducible apply enterMenu_calm | with_reducible apply promptThen_calm | (with_reducible apply closeObj_calm'; on_goal 2 => assumption) | (intro _; exact Nat.le_refl _) | (intro _; exact Nat.zero_le _) | (intro _; simp; done) | rfl | (intro hb; exact hb) | (refine lampBounded ?_ ?_ <;> (first | exact List.Sublist.refl _ | exact List.nil_sublist _ | exact List.Sublist.map _ List.filter_sublist | exact List.filter_sublist | exact List.tail_sublist _)) | (refine linkBounded ?_ ?_ <;> (first | exact List.Sublist.refl _ | exact List.nil_sublist _ | exact List.Sublist.map _ List.filter_sublist | exact List.filter_sublist | exact List.tail_sublist _)) | (refine delivBounded ?_ ?_ <;> (first | exact List.Sublist.refl _ | exact List.nil_sublist _ | exact List.Sublist.map _ List.filter_sublist | exact List.filter_sublist | exact List.tail_sublist _)) | (simp; done))

theorem sendSegment_calm (i : Nat) (seg : Segment) : Calm s (u.sendSegment i seg) := by
  unfold State.sendSegment
  (try dsimp only) <;> (repeat' split) <;> (try dsimp only) <;> repeat' (first | with_reducible exact h | with_reducible assumption | with_reducible apply closeSend_calm | (with_reducible apply append_calm; on_goal 2 => assumption) | (intro _; exact Nat.le_refl _) | (intro _; exact Nat.zero_le _) | (intro _; simp; done) | rfl | (intro hb; exact hb) | (refine lampBounded ?_ ?_ <;> (first | exact List.Sublist.refl _ | exact List.nil_sublist _ | exact List.Sublist.map _ List.filter_sublist | exact List.filter_sublist | exact List.tail_sublist _)) | (refine linkBounded ?_ ?_ <;> (first | exact List.Sublist.refl _ | exact List.nil_sublist _ | exact List.Sublist.map _ List.filter_sublist | exact List.filter_sublist | exact List.tail_sublist _)) | (refine delivBounded ?_ ?_ <;> (first | exact List.Sublist.refl _ | exact List.nil_sublist _ | exact List.Sublist.map _ List.filter_sublist | exact List.filter_sublist | exact List.tail_sublist _)) | (simp; done))

theorem sendCaptureKey_calm (i : Nat) (key : Key) : Calm s (u.sendCaptureKey i key) := by
  unfold State.sendCaptureKey
  (try dsimp only) <;> (repeat' split) <;> (try dsimp only) <;> repeat' (first | with_reducible exact h | with_reducible assumption | with_reducible apply dropRecording_calm | with_reducible apply promptThen_calm | with_reducible apply closeSend_calm | (intro _; exact Nat.le_refl _) | (intro _; exact Nat.zero_le _) | (intro _; simp; done) | rfl | (intro hb; exact hb) | (refine lampBounded ?_ ?_ <;> (first | exact List.Sublist.refl _ | exact List.nil_sublist _ | exact List.Sublist.map _ List.filter_sublist | exact List.filter_sublist | exact List.tail_sublist _)) | (refine linkBounded ?_ ?_ <;> (first | exact List.Sublist.refl _ | exact List.nil_sublist _ | exact List.Sublist.map _ List.filter_sublist | exact List.filter_sublist | exact List.tail_sublist _)) | (refine delivBounded ?_ ?_ <;> (first | exact List.Sublist.refl _ | exact List.nil_sublist _ | exact List.Sublist.map _ List.filter_sublist | exact List.filter_sublist | exact List.tail_sublist _)) | (simp; done))

theorem forwardTo_calm (i ext : Nat) : Calm s (u.forwardTo i ext) := by
  unfold State.forwardTo
  (try dsimp only) <;> (repeat' split) <;> (try dsimp only) <;> repeat' (first | with_reducible exact h | with_reducible assumption | with_reducible apply forward_calm | with_reducible apply offerDirect_calm | with_reducible apply promptThen_calm | with_reducible apply presentNext_calm | (with_reducible apply forward_calm'; on_goal 2 => assumption) | (with_reducible apply offerDirect_calm'; on_goal 2 => assumption) | (intro _; exact Nat.le_refl _) | (intro _; exact Nat.zero_le _) | (intro _; simp; done) | rfl | (intro hb; exact hb) | (refine lampBounded ?_ ?_ <;> (first | exact List.Sublist.refl _ | exact List.nil_sublist _ | exact List.Sublist.map _ List.filter_sublist | exact List.filter_sublist | exact List.tail_sublist _)) | (refine linkBounded ?_ ?_ <;> (first | exact List.Sublist.refl _ | exact List.nil_sublist _ | exact List.Sublist.map _ List.filter_sublist | exact List.filter_sublist | exact List.tail_sublist _)) | (refine delivBounded ?_ ?_ <;> (first | exact List.Sublist.refl _ | exact List.nil_sublist _ | exact List.Sublist.map _ List.filter_sublist | exact List.filter_sublist | exact List.tail_sublist _)) | (simp; done))

theorem sendTo_calm (i ext : Nat) : Calm s (u.sendTo i ext) := by
  unfold State.sendTo
  (try dsimp only) <;> (repeat' split) <;> (try dsimp only) <;> repeat' (first | with_reducible exact h | with_reducible assumption | with_reducible apply addressInvalid_calm | with_reducible apply startSend_calm | (intro _; exact Nat.le_refl _) | (intro _; exact Nat.zero_le _) | (intro _; simp; done) | rfl | (intro hb; exact hb) | (refine lampBounded ?_ ?_ <;> (first | exact List.Sublist.refl _ | exact List.nil_sublist _ | exact List.Sublist.map _ List.filter_sublist | exact List.filter_sublist | exact List.tail_sublist _)) | (refine linkBounded ?_ ?_ <;> (first | exact List.Sublist.refl _ | exact List.nil_sublist _ | exact List.Sublist.map _ List.filter_sublist | exact List.filter_sublist | exact List.tail_sublist _)) | (refine delivBounded ?_ ?_ <;> (first | exact List.Sublist.refl _ | exact List.nil_sublist _ | exact List.Sublist.map _ List.filter_sublist | exact List.filter_sublist | exact List.tail_sublist _)) | (simp; done))

theorem addressEnd_calm (i : Nat) : Calm s (u.addressEnd i) := by
  unfold State.addressEnd
  (try dsimp only) <;> (repeat' split) <;> (try dsimp only) <;> repeat' (first | with_reducible exact h | with_reducible assumption | with_reducible apply addressInvalid_calm | with_reducible apply forwardTo_calm | with_reducible apply sendTo_calm | (intro _; exact Nat.le_refl _) | (intro _; exact Nat.zero_le _) | (intro _; simp; done) | rfl | (intro hb; exact hb) | (refine lampBounded ?_ ?_ <;> (first | exact List.Sublist.refl _ | exact List.nil_sublist _ | exact List.Sublist.map _ List.filter_sublist | exact List.filter_sublist | exact List.tail_sublist _)) | (refine linkBounded ?_ ?_ <;> (first | exact List.Sublist.refl _ | exact List.nil_sublist _ | exact List.Sublist.map _ List.filter_sublist | exact List.filter_sublist | exact List.tail_sublist _)) | (refine delivBounded ?_ ?_ <;> (first | exact List.Sublist.refl _ | exact List.nil_sublist _ | exact List.Sublist.map _ List.filter_sublist | exact List.filter_sublist | exact List.tail_sublist _)) | (simp; done))

theorem listEnd_calm (i : Nat) : Calm s (u.listEnd i) := by
  unfold State.listEnd
  (try dsimp only) <;> (repeat' split) <;> (try dsimp only) <;> repeat' (first | with_reducible exact h | with_reducible assumption | with_reducible apply addressInvalid_calm | with_reducible apply startSend_calm | (intro _; exact Nat.le_refl _) | (intro _; exact Nat.zero_le _) | (intro _; simp; done) | rfl | (intro hb; exact hb) | (refine lampBounded ?_ ?_ <;> (first | exact List.Sublist.refl _ | exact List.nil_sublist _ | exact List.Sublist.map _ List.filter_sublist | exact List.filter_sublist | exact List.tail_sublist _)) | (refine linkBounded ?_ ?_ <;> (first | exact List.Sublist.refl _ | exact List.nil_sublist _ | exact List.Sublist.map _ List.filter_sublist | exact List.filter_sublist | exact List.tail_sublist _)) | (refine delivBounded ?_ ?_ <;> (first | exact List.Sublist.refl _ | exact List.nil_sublist _ | exact List.Sublist.map _ List.filter_sublist | exact List.filter_sublist | exact List.tail_sublist _)) | (simp; done))

theorem joinAddress_calm (i d : Nat) : Calm s (u.joinAddress i d) := by
  unfold State.joinAddress
  (try dsimp only) <;> (repeat' split) <;> (try dsimp only) <;> repeat' (first | with_reducible exact h | with_reducible assumption | with_reducible apply onCh_calm | with_reducible apply keyTaken_calm | (intro _; exact Nat.le_refl _) | (intro _; exact Nat.zero_le _) | (intro _; simp; done) | rfl | (intro hb; exact hb) | (refine lampBounded ?_ ?_ <;> (first | exact List.Sublist.refl _ | exact List.nil_sublist _ | exact List.Sublist.map _ List.filter_sublist | exact List.filter_sublist | exact List.tail_sublist _)) | (refine linkBounded ?_ ?_ <;> (first | exact List.Sublist.refl _ | exact List.nil_sublist _ | exact List.Sublist.map _ List.filter_sublist | exact List.filter_sublist | exact List.tail_sublist _)) | (refine delivBounded ?_ ?_ <;> (first | exact List.Sublist.refl _ | exact List.nil_sublist _ | exact List.Sublist.map _ List.filter_sublist | exact List.filter_sublist | exact List.tail_sublist _)) | (simp; done))

theorem stopInterDigit_calm (i : Nat) : Calm s (u.stopInterDigit i) := by
  unfold State.stopInterDigit
  (try dsimp only) <;> (repeat' split) <;> (try dsimp only) <;> repeat' (first | with_reducible exact h | with_reducible assumption | with_reducible apply onCh_calm | (intro _; exact Nat.le_refl _) | (intro _; exact Nat.zero_le _) | (intro _; simp; done) | rfl | (intro hb; exact hb) | (refine lampBounded ?_ ?_ <;> (first | exact List.Sublist.refl _ | exact List.nil_sublist _ | exact List.Sublist.map _ List.filter_sublist | exact List.filter_sublist | exact List.tail_sublist _)) | (refine linkBounded ?_ ?_ <;> (first | exact List.Sublist.refl _ | exact List.nil_sublist _ | exact List.Sublist.map _ List.filter_sublist | exact List.filter_sublist | exact List.tail_sublist _)) | (refine delivBounded ?_ ?_ <;> (first | exact List.Sublist.refl _ | exact List.nil_sublist _ | exact List.Sublist.map _ List.filter_sublist | exact List.filter_sublist | exact List.tail_sublist _)) | (simp; done))

theorem addressKey_calm (i : Nat) (key : Key) : Calm s (u.addressKey i key) := by
  unfold State.addressKey
  (try dsimp only) <;> (repeat' split) <;> (try dsimp only) <;> repeat' (first | with_reducible exact h | with_reducible assumption | with_reducible apply keyTaken_calm | with_reducible apply goReturn_calm | with_reducible apply addressEnd_calm | with_reducible apply joinAddress_calm | with_reducible apply stopInterDigit_calm | (intro _; exact Nat.le_refl _) | (intro _; exact Nat.zero_le _) | (intro _; simp; done) | rfl | (intro hb; exact hb) | (refine lampBounded ?_ ?_ <;> (first | exact List.Sublist.refl _ | exact List.nil_sublist _ | exact List.Sublist.map _ List.filter_sublist | exact List.filter_sublist | exact List.tail_sublist _)) | (refine linkBounded ?_ ?_ <;> (first | exact List.Sublist.refl _ | exact List.nil_sublist _ | exact List.Sublist.map _ List.filter_sublist | exact List.filter_sublist | exact List.tail_sublist _)) | (refine delivBounded ?_ ?_ <;> (first | exact List.Sublist.refl _ | exact List.nil_sublist _ | exact List.Sublist.map _ List.filter_sublist | exact List.filter_sublist | exact List.tail_sublist _)) | (simp; done))

theorem listKey_calm (i : Nat) (key : Key) : Calm s (u.listKey i key) := by
  unfold State.listKey
  (try dsimp only) <;> (repeat' split) <;> (try dsimp only) <;> repeat' (first | with_reducible exact h | with_reducible assumption | with_reducible apply keyTaken_calm | with_reducible apply goReturn_calm | with_reducible apply listEnd_calm | with_reducible apply joinAddress_calm | with_reducible apply stopInterDigit_calm | (intro _; exact Nat.le_refl _) | (intro _; exact Nat.zero_le _) | (intro _; simp; done) | rfl | (intro hb; exact hb) | (refine lampBounded ?_ ?_ <;> (first | exact List.Sublist.refl _ | exact List.nil_sublist _ | exact List.Sublist.map _ List.filter_sublist | exact List.filter_sublist | exact List.tail_sublist _)) | (refine linkBounded ?_ ?_ <;> (first | exact List.Sublist.refl _ | exact List.nil_sublist _ | exact List.Sublist.map _ List.filter_sublist | exact List.filter_sublist | exact List.tail_sublist _)) | (refine delivBounded ?_ ?_ <;> (first | exact List.Sublist.refl _ | exact List.nil_sublist _ | exact List.Sublist.map _ List.filter_sublist | exact List.filter_sublist | exact List.tail_sublist _)) | (simp; done))

theorem sendList_calm (i n l : Nat) (urgent : Bool) : Calm s (u.sendList i n l urgent) := by
  unfold State.sendList
  dsimp only
  split
  · exact promptThen_calm (forgetRecording_calm (dropRef_calm h _) _) _ _ _
  · rename_i e1
    have h1 := convert_calm h _ e1
    split
    · rename_i e2
      have h2 := listOffer_calm h1 _ _ (offerLists_calm h1 _ _ _ _ _) e2
      exact promptThen_calm (forgetRecording_calm (dropRef_calm h2 _) _) _ _ _
    · rename_i e2
      have h2 := listOffer_calm h1 _ _ (offerLists_calm h1 _ _ _ _ _) e2
      exact prompting_calm (forgetRecording_calm (dropRef_calm (broadcast_calm h2 _ _ _ _) _) _) _ _ _

theorem sendRecording_calm (i : Nat) (urgent : Bool) : Calm s (u.sendRecording i urgent) := by
  unfold State.sendRecording
  (try dsimp only) <;> (repeat' split) <;> (try dsimp only) <;> repeat' (first | with_reducible exact h | with_reducible assumption | with_reducible apply onCh_calm | with_reducible apply dropRef_calm | with_reducible apply forward_calm | with_reducible apply offerDirect_calm | with_reducible apply forgetRecording_calm | with_reducible apply promptThen_calm | with_reducible apply goReturn_calm | with_reducible apply sendList_calm | (with_reducible apply forward_calm'; on_goal 2 => assumption) | (with_reducible apply offerDirect_calm'; on_goal 2 => assumption) | (intro _; exact Nat.le_refl _) | (intro _; exact Nat.zero_le _) | (intro _; simp; done) | rfl | (intro hb; exact hb) | (refine lampBounded ?_ ?_ <;> (first | exact List.Sublist.refl _ | exact List.nil_sublist _ | exact List.Sublist.map _ List.filter_sublist | exact List.filter_sublist | exact List.tail_sublist _)) | (refine linkBounded ?_ ?_ <;> (first | exact List.Sublist.refl _ | exact List.nil_sublist _ | exact List.Sublist.map _ List.filter_sublist | exact List.filter_sublist | exact List.tail_sublist _)) | (refine delivBounded ?_ ?_ <;> (first | exact List.Sublist.refl _ | exact List.nil_sublist _ | exact List.Sublist.map _ List.filter_sublist | exact List.filter_sublist | exact List.tail_sublist _)) | (simp; done))

theorem sendOptionsKey_calm (i : Nat) (key : Key) : Calm s (u.sendOptionsKey i key) := by
  unfold State.sendOptionsKey
  (try dsimp only) <;> (repeat' split) <;> (try dsimp only) <;> repeat' (first | with_reducible exact h | with_reducible assumption | with_reducible apply dropRecording_calm | with_reducible apply keyTaken_calm | with_reducible apply noMeaning_calm | with_reducible apply promptThen_calm | with_reducible apply goReturn_calm | with_reducible apply startSend_calm | with_reducible apply sendRecording_calm | (intro _; exact Nat.le_refl _) | (intro _; exact Nat.zero_le _) | (intro _; simp; done) | rfl | (intro hb; exact hb) | (refine lampBounded ?_ ?_ <;> (first | exact List.Sublist.refl _ | exact List.nil_sublist _ | exact List.Sublist.map _ List.filter_sublist | exact List.filter_sublist | exact List.tail_sublist _)) | (refine linkBounded ?_ ?_ <;> (first | exact List.Sublist.refl _ | exact List.nil_sublist _ | exact List.Sublist.map _ List.filter_sublist | exact List.filter_sublist | exact List.tail_sublist _)) | (refine delivBounded ?_ ?_ <;> (first | exact List.Sublist.refl _ | exact List.nil_sublist _ | exact List.Sublist.map _ List.filter_sublist | exact List.filter_sublist | exact List.tail_sublist _)) | (simp; done))

theorem reply_calm (i : Nat) (e : Entry) : Calm s (u.reply i e) := by
  unfold State.reply
  (try dsimp only) <;> (repeat' split) <;> (try dsimp only) <;> repeat' (first | with_reducible exact h | with_reducible assumption | with_reducible apply onCh_calm | with_reducible apply promptThen_calm | with_reducible apply startSend_calm | (intro _; exact Nat.le_refl _) | (intro _; exact Nat.zero_le _) | (intro _; simp; done) | rfl | (intro hb; exact hb) | (refine lampBounded ?_ ?_ <;> (first | exact List.Sublist.refl _ | exact List.nil_sublist _ | exact List.Sublist.map _ List.filter_sublist | exact List.filter_sublist | exact List.tail_sublist _)) | (refine linkBounded ?_ ?_ <;> (first | exact List.Sublist.refl _ | exact List.nil_sublist _ | exact List.Sublist.map _ List.filter_sublist | exact List.filter_sublist | exact List.tail_sublist _)) | (refine delivBounded ?_ ?_ <;> (first | exact List.Sublist.refl _ | exact List.nil_sublist _ | exact List.Sublist.map _ List.filter_sublist | exact List.filter_sublist | exact List.tail_sublist _)) | (simp; done))

theorem messageTaken_calm (i : Nat) : Calm s (u.messageTaken i) := by
  unfold State.messageTaken
  (try dsimp only) <;> (repeat' split) <;> (try dsimp only) <;> repeat' (first | with_reducible exact h | with_reducible assumption | with_reducible apply keyTaken_calm | with_reducible apply endPlayback_calm | (intro _; exact Nat.le_refl _) | (intro _; exact Nat.zero_le _) | (intro _; simp; done) | rfl | (intro hb; exact hb) | (refine lampBounded ?_ ?_ <;> (first | exact List.Sublist.refl _ | exact List.nil_sublist _ | exact List.Sublist.map _ List.filter_sublist | exact List.filter_sublist | exact List.tail_sublist _)) | (refine linkBounded ?_ ?_ <;> (first | exact List.Sublist.refl _ | exact List.nil_sublist _ | exact List.Sublist.map _ List.filter_sublist | exact List.filter_sublist | exact List.tail_sublist _)) | (refine delivBounded ?_ ?_ <;> (first | exact List.Sublist.refl _ | exact List.nil_sublist _ | exact List.Sublist.map _ List.filter_sublist | exact List.filter_sublist | exact List.tail_sublist _)) | (simp; done))

theorem entryKey_calm (i n : Nat) : Calm s (u.entryKey i n) := by
  unfold State.entryKey
  (try dsimp only) <;> (repeat' split) <;> (try dsimp only) <;> repeat' (first | with_reducible exact h | with_reducible assumption | with_reducible apply askSave_calm | with_reducible apply askErase_calm | with_reducible apply promptThen_calm | with_reducible apply present_calm | with_reducible apply presentNext_calm | with_reducible apply enterAddressing_calm | with_reducible apply reply_calm | (intro _; exact Nat.le_refl _) | (intro _; exact Nat.zero_le _) | (intro _; simp; done) | rfl | (intro hb; exact hb) | (refine lampBounded ?_ ?_ <;> (first | exact List.Sublist.refl _ | exact List.nil_sublist _ | exact List.Sublist.map _ List.filter_sublist | exact List.filter_sublist | exact List.tail_sublist _)) | (refine linkBounded ?_ ?_ <;> (first | exact List.Sublist.refl _ | exact List.nil_sublist _ | exact List.Sublist.map _ List.filter_sublist | exact List.filter_sublist | exact List.tail_sublist _)) | (refine delivBounded ?_ ?_ <;> (first | exact List.Sublist.refl _ | exact List.nil_sublist _ | exact List.Sublist.map _ List.filter_sublist | exact List.filter_sublist | exact List.tail_sublist _)) | (simp; done))

theorem messageKey_calm (i : Nat) (key : Key) : Calm s (u.messageKey i key) := by
  unfold State.messageKey
  (try dsimp only) <;> (repeat' split) <;> (try dsimp only) <;> repeat' (first | with_reducible exact h | with_reducible assumption | with_reducible apply onCh_calm | with_reducible apply enterMenu_calm | with_reducible apply noMeaning_calm | with_reducible apply presentNext_calm | with_reducible apply messageTaken_calm | with_reducible apply entryKey_calm | (intro _; exact Nat.le_refl _) | (intro _; exact Nat.zero_le _) | (intro _; simp; done) | rfl | (intro hb; exact hb) | (refine lampBounded ?_ ?_ <;> (first | exact List.Sublist.refl _ | exact List.nil_sublist _ | exact List.Sublist.map _ List.filter_sublist | exact List.filter_sublist | exact List.tail_sublist _)) | (refine linkBounded ?_ ?_ <;> (first | exact List.Sublist.refl _ | exact List.nil_sublist _ | exact List.Sublist.map _ List.filter_sublist | exact List.filter_sublist | exact List.tail_sublist _)) | (refine delivBounded ?_ ?_ <;> (first | exact List.Sublist.refl _ | exact List.nil_sublist _ | exact List.Sublist.map _ List.filter_sublist | exact List.filter_sublist | exact List.tail_sublist _)) | (simp; done))

theorem endRetrieval_calm (i : Nat) (release : Bool) : Calm s (u.endRetrieval i release) := by
  unfold State.endRetrieval
  (try dsimp only) <;> (repeat' split) <;> (try dsimp only) <;> repeat' (first | with_reducible exact h | with_reducible assumption | with_reducible apply onCh_calm | with_reducible apply sessionEnd_calm | with_reducible apply dropPlaying_calm | with_reducible apply dropRecording_calm | with_reducible apply toIdle_calm | with_reducible apply clearWith_calm | with_reducible apply endPlayback_calm | (intro _; exact Nat.le_refl _) | (intro _; exact Nat.zero_le _) | (intro _; simp; done) | rfl | (intro hb; exact hb) | (refine lampBounded ?_ ?_ <;> (first | exact List.Sublist.refl _ | exact List.nil_sublist _ | exact List.Sublist.map _ List.filter_sublist | exact List.filter_sublist | exact List.tail_sublist _)) | (refine linkBounded ?_ ?_ <;> (first | exact List.Sublist.refl _ | exact List.nil_sublist _ | exact List.Sublist.map _ List.filter_sublist | exact List.filter_sublist | exact List.tail_sublist _)) | (refine delivBounded ?_ ?_ <;> (first | exact List.Sublist.refl _ | exact List.nil_sublist _ | exact List.Sublist.map _ List.filter_sublist | exact List.filter_sublist | exact List.tail_sublist _)) | (simp; done))

theorem mainKey_calm (i : Nat) (key : Key) : Calm s (u.mainKey i key) := by
  unfold State.mainKey
  (try dsimp only) <;> (repeat' split) <;> (try dsimp only) <;> repeat' (first | with_reducible exact h | with_reducible assumption | with_reducible apply enterMenu_calm | with_reducible apply keyTaken_calm | with_reducible apply noMeaning_calm | with_reducible apply promptThen_calm | with_reducible apply listen_calm | with_reducible apply enterAddressing_calm | with_reducible apply enterList_calm | with_reducible apply endRetrieval_calm | (intro _; exact Nat.le_refl _) | (intro _; exact Nat.zero_le _) | (intro _; simp; done) | rfl | (intro hb; exact hb) | (refine lampBounded ?_ ?_ <;> (first | exact List.Sublist.refl _ | exact List.nil_sublist _ | exact List.Sublist.map _ List.filter_sublist | exact List.filter_sublist | exact List.tail_sublist _)) | (refine linkBounded ?_ ?_ <;> (first | exact List.Sublist.refl _ | exact List.nil_sublist _ | exact List.Sublist.map _ List.filter_sublist | exact List.filter_sublist | exact List.tail_sublist _)) | (refine delivBounded ?_ ?_ <;> (first | exact List.Sublist.refl _ | exact List.nil_sublist _ | exact List.Sublist.map _ List.filter_sublist | exact List.filter_sublist | exact List.tail_sublist _)) | (simp; done))

theorem enterEndDay_calm (i : Nat) : Calm s (u.enterEndDay i) := by
  unfold State.enterEndDay
  (try dsimp only) <;> (repeat' split) <;> (try dsimp only) <;> repeat' (first | with_reducible exact h | with_reducible assumption | with_reducible apply onCh_calm | with_reducible apply enterMenu_calm | (intro _; exact Nat.le_refl _) | (intro _; exact Nat.zero_le _) | (intro _; simp; done) | rfl | (intro hb; exact hb) | (refine lampBounded ?_ ?_ <;> (first | exact List.Sublist.refl _ | exact List.nil_sublist _ | exact List.Sublist.map _ List.filter_sublist | exact List.filter_sublist | exact List.tail_sublist _)) | (refine linkBounded ?_ ?_ <;> (first | exact List.Sublist.refl _ | exact List.nil_sublist _ | exact List.Sublist.map _ List.filter_sublist | exact List.filter_sublist | exact List.tail_sublist _)) | (refine delivBounded ?_ ?_ <;> (first | exact List.Sublist.refl _ | exact List.nil_sublist _ | exact List.Sublist.map _ List.filter_sublist | exact List.filter_sublist | exact List.tail_sublist _)) | (simp; done))

theorem applyEnd_calm (i : Nat) (d : Option Nat) : Calm s (u.applyEnd i d) := by
  unfold State.applyEnd
  split
  · exact askEndDay_calm h _ _ _
  · exact onCh_calm h _ _ (fun _ => Nat.le_refl _)

theorem endInvalid_calm (i : Nat) : Calm s (u.endInvalid i) := by
  unfold State.endInvalid
  (try dsimp only) <;> (repeat' split) <;> (try dsimp only) <;> repeat' (first | with_reducible exact h | with_reducible assumption | with_reducible apply onCh_calm | with_reducible apply promptThen_calm | (intro _; exact Nat.le_refl _) | (intro _; exact Nat.zero_le _) | (intro _; simp; done) | rfl | (intro hb; exact hb) | (refine lampBounded ?_ ?_ <;> (first | exact List.Sublist.refl _ | exact List.nil_sublist _ | exact List.Sublist.map _ List.filter_sublist | exact List.filter_sublist | exact List.tail_sublist _)) | (refine linkBounded ?_ ?_ <;> (first | exact List.Sublist.refl _ | exact List.nil_sublist _ | exact List.Sublist.map _ List.filter_sublist | exact List.filter_sublist | exact List.tail_sublist _)) | (refine delivBounded ?_ ?_ <;> (first | exact List.Sublist.refl _ | exact List.nil_sublist _ | exact List.Sublist.map _ List.filter_sublist | exact List.filter_sublist | exact List.tail_sublist _)) | (simp; done))

theorem endDate_calm (i : Nat) : Calm s (u.endDate i) := by
  unfold State.endDate
  (try dsimp only) <;> (repeat' split) <;> (try dsimp only) <;> repeat' (first | with_reducible exact h | with_reducible assumption | with_reducible apply onCh_calm | with_reducible apply enterMenu_calm | with_reducible apply promptThen_calm | with_reducible apply applyEnd_calm | with_reducible apply endInvalid_calm | (intro _; exact Nat.le_refl _) | (intro _; exact Nat.zero_le _) | (intro _; simp; done) | rfl | (intro hb; exact hb) | (refine lampBounded ?_ ?_ <;> (first | exact List.Sublist.refl _ | exact List.nil_sublist _ | exact List.Sublist.map _ List.filter_sublist | exact List.filter_sublist | exact List.tail_sublist _)) | (refine linkBounded ?_ ?_ <;> (first | exact List.Sublist.refl _ | exact List.nil_sublist _ | exact List.Sublist.map _ List.filter_sublist | exact List.filter_sublist | exact List.tail_sublist _)) | (refine delivBounded ?_ ?_ <;> (first | exact List.Sublist.refl _ | exact List.nil_sublist _ | exact List.Sublist.map _ List.filter_sublist | exact List.filter_sublist | exact List.tail_sublist _)) | (simp; done))

theorem endDayKey_calm (i : Nat) (key : Key) : Calm s (u.endDayKey i key) := by
  unfold State.endDayKey
  (try dsimp only) <;> (repeat' split) <;> (try dsimp only) <;> repeat' (first | with_reducible exact h | with_reducible assumption | with_reducible apply onCh_calm | with_reducible apply enterMenu_calm | with_reducible apply keyTaken_calm | with_reducible apply noMeaning_calm | with_reducible apply applyEnd_calm | with_reducible apply endDate_calm | (intro _; exact Nat.le_refl _) | (intro _; exact Nat.zero_le _) | (intro _; simp; done) | rfl | (intro hb; exact hb) | (refine lampBounded ?_ ?_ <;> (first | exact List.Sublist.refl _ | exact List.nil_sublist _ | exact List.Sublist.map _ List.filter_sublist | exact List.filter_sublist | exact List.tail_sublist _)) | (refine linkBounded ?_ ?_ <;> (first | exact List.Sublist.refl _ | exact List.nil_sublist _ | exact List.Sublist.map _ List.filter_sublist | exact List.filter_sublist | exact List.tail_sublist _)) | (refine delivBounded ?_ ?_ <;> (first | exact List.Sublist.refl _ | exact List.nil_sublist _ | exact List.Sublist.map _ List.filter_sublist | exact List.filter_sublist | exact List.tail_sublist _)) | (simp; done))

theorem chooseSlot_calm (i : Nat) (g : GreetSlot) : Calm s (u.chooseSlot i g) := by
  unfold State.chooseSlot
  (try dsimp only) <;> (repeat' split) <;> (try dsimp only) <;> repeat' (first | with_reducible exact h | with_reducible assumption | with_reducible apply onCh_calm | with_reducible apply enterMenu_calm | with_reducible apply keyTaken_calm | with_reducible apply enterEndDay_calm | (intro _; exact Nat.le_refl _) | (intro _; exact Nat.zero_le _) | (intro _; simp; done) | rfl | (intro hb; exact hb) | (refine lampBounded ?_ ?_ <;> (first | exact List.Sublist.refl _ | exact List.nil_sublist _ | exact List.Sublist.map _ List.filter_sublist | exact List.filter_sublist | exact List.tail_sublist _)) | (refine linkBounded ?_ ?_ <;> (first | exact List.Sublist.refl _ | exact List.nil_sublist _ | exact List.Sublist.map _ List.filter_sublist | exact List.filter_sublist | exact List.tail_sublist _)) | (refine delivBounded ?_ ?_ <;> (first | exact List.Sublist.refl _ | exact List.nil_sublist _ | exact List.Sublist.map _ List.filter_sublist | exact List.filter_sublist | exact List.tail_sublist _)) | (simp; done))

theorem leaveSlot_calm (i : Nat) (st : ChanState) : Calm s (u.leaveSlot i st) := by
  unfold State.leaveSlot
  (try dsimp only) <;> (repeat' split) <;> (try dsimp only) <;> repeat' (first | with_reducible exact h | with_reducible assumption | with_reducible apply onCh_calm | with_reducible apply enterMenu_calm | (intro _; exact Nat.le_refl _) | (intro _; exact Nat.zero_le _) | (intro _; simp; done) | rfl | (intro hb; exact hb) | (refine lampBounded ?_ ?_ <;> (first | exact List.Sublist.refl _ | exact List.nil_sublist _ | exact List.Sublist.map _ List.filter_sublist | exact List.filter_sublist | exact List.tail_sublist _)) | (refine linkBounded ?_ ?_ <;> (first | exact List.Sublist.refl _ | exact List.nil_sublist _ | exact List.Sublist.map _ List.filter_sublist | exact List.filter_sublist | exact List.tail_sublist _)) | (refine delivBounded ?_ ?_ <;> (first | exact List.Sublist.refl _ | exact List.nil_sublist _ | exact List.Sublist.map _ List.filter_sublist | exact List.filter_sublist | exact List.tail_sublist _)) | (simp; done))

theorem greetingsKey_calm (i : Nat) (key : Key) : Calm s (u.greetingsKey i key) := by
  unfold State.greetingsKey
  (try dsimp only) <;> (repeat' split) <;> (try dsimp only) <;> repeat' (first | with_reducible exact h | with_reducible assumption | with_reducible apply keyTaken_calm | with_reducible apply noMeaning_calm | with_reducible apply chooseSlot_calm | with_reducible apply leaveSlot_calm | (intro _; exact Nat.le_refl _) | (intro _; exact Nat.zero_le _) | (intro _; simp; done) | rfl | (intro hb; exact hb) | (refine lampBounded ?_ ?_ <;> (first | exact List.Sublist.refl _ | exact List.nil_sublist _ | exact List.Sublist.map _ List.filter_sublist | exact List.filter_sublist | exact List.tail_sublist _)) | (refine linkBounded ?_ ?_ <;> (first | exact List.Sublist.refl _ | exact List.nil_sublist _ | exact List.Sublist.map _ List.filter_sublist | exact List.filter_sublist | exact List.tail_sublist _)) | (refine delivBounded ?_ ?_ <;> (first | exact List.Sublist.refl _ | exact List.nil_sublist _ | exact List.Sublist.map _ List.filter_sublist | exact List.filter_sublist | exact List.tail_sublist _)) | (simp; done))

theorem playSlot_calm (i : Nat) : Calm s (u.playSlot i) := by
  unfold State.playSlot
  (try dsimp only) <;> (repeat' split) <;> (try dsimp only) <;> repeat' (first | with_reducible exact h | with_reducible assumption | with_reducible apply onCh_calm | with_reducible apply promptThen_calm | (with_reducible apply addRef_calm; on_goal 2 => assumption) | (intro _; exact Nat.le_refl _) | (intro _; exact Nat.zero_le _) | (intro _; simp; done) | rfl | (intro hb; exact hb) | (refine lampBounded ?_ ?_ <;> (first | exact List.Sublist.refl _ | exact List.nil_sublist _ | exact List.Sublist.map _ List.filter_sublist | exact List.filter_sublist | exact List.tail_sublist _)) | (refine linkBounded ?_ ?_ <;> (first | exact List.Sublist.refl _ | exact List.nil_sublist _ | exact List.Sublist.map _ List.filter_sublist | exact List.filter_sublist | exact List.tail_sublist _)) | (refine delivBounded ?_ ?_ <;> (first | exact List.Sublist.refl _ | exact List.nil_sublist _ | exact List.Sublist.map _ List.filter_sublist | exact List.filter_sublist | exact List.tail_sublist _)) | (simp; done))

theorem recordSlot_calm (i : Nat) : Calm s (u.recordSlot i) := by
  unfold State.recordSlot
  (try dsimp only) <;> (repeat' split) <;> (try dsimp only) <;> repeat' (first | with_reducible exact h | with_reducible assumption | with_reducible apply onCh_calm | with_reducible apply admitGreeting_calm | with_reducible apply promptThen_calm | (with_reducible apply admitGreeting_calm'; on_goal 2 => assumption) | (intro _; exact Nat.le_refl _) | (intro _; exact Nat.zero_le _) | (intro _; simp; done) | rfl | (intro hb; exact hb) | (refine lampBounded ?_ ?_ <;> (first | exact List.Sublist.refl _ | exact List.nil_sublist _ | exact List.Sublist.map _ List.filter_sublist | exact List.filter_sublist | exact List.tail_sublist _)) | (refine linkBounded ?_ ?_ <;> (first | exact List.Sublist.refl _ | exact List.nil_sublist _ | exact List.Sublist.map _ List.filter_sublist | exact List.filter_sublist | exact List.tail_sublist _)) | (refine delivBounded ?_ ?_ <;> (first | exact List.Sublist.refl _ | exact List.nil_sublist _ | exact List.Sublist.map _ List.filter_sublist | exact List.filter_sublist | exact List.tail_sublist _)) | (simp; done))

theorem deleteSlot_calm (i : Nat) : Calm s (u.deleteSlot i) := by
  unfold State.deleteSlot
  dsimp only
  split
  · have he := askEmpty_calm h (u.served i) i (u.slotOf i)
    split <;> rename_i e <;> rw [e] at he
    · exact promptThen_calm he _ _ _
    · exact enterMenu_calm he _ _
  · split
    · exact promptThen_calm (askEndDay_calm h _ _ _) _ _ _
    · exact promptThen_calm h _ _ _

theorem slotTaken_calm (i : Nat) : Calm s (u.slotTaken i) := by
  unfold State.slotTaken
  (try dsimp only) <;> (repeat' split) <;> (try dsimp only) <;> repeat' (first | with_reducible exact h | with_reducible assumption | with_reducible apply dropPlaying_calm | with_reducible apply keyTaken_calm | (intro _; exact Nat.le_refl _) | (intro _; exact Nat.zero_le _) | (intro _; simp; done) | rfl | (intro hb; exact hb) | (refine lampBounded ?_ ?_ <;> (first | exact List.Sublist.refl _ | exact List.nil_sublist _ | exact List.Sublist.map _ List.filter_sublist | exact List.filter_sublist | exact List.tail_sublist _)) | (refine linkBounded ?_ ?_ <;> (first | exact List.Sublist.refl _ | exact List.nil_sublist _ | exact List.Sublist.map _ List.filter_sublist | exact List.filter_sublist | exact List.tail_sublist _)) | (refine delivBounded ?_ ?_ <;> (first | exact List.Sublist.refl _ | exact List.nil_sublist _ | exact List.Sublist.map _ List.filter_sublist | exact List.filter_sublist | exact List.tail_sublist _)) | (simp; done))

theorem slotKey_calm (i : Nat) (key : Key) : Calm s (u.slotKey i key) := by
  unfold State.slotKey
  (try dsimp only) <;> (repeat' split) <;> (try dsimp only) <;> repeat' (first | with_reducible exact h | with_reducible assumption | with_reducible apply noMeaning_calm | with_reducible apply leaveSlot_calm | with_reducible apply playSlot_calm | with_reducible apply recordSlot_calm | with_reducible apply deleteSlot_calm | with_reducible apply slotTaken_calm | (intro _; exact Nat.le_refl _) | (intro _; exact Nat.zero_le _) | (intro _; simp; done) | rfl | (intro hb; exact hb) | (refine lampBounded ?_ ?_ <;> (first | exact List.Sublist.refl _ | exact List.nil_sublist _ | exact List.Sublist.map _ List.filter_sublist | exact List.filter_sublist | exact List.tail_sublist _)) | (refine linkBounded ?_ ?_ <;> (first | exact List.Sublist.refl _ | exact List.nil_sublist _ | exact List.Sublist.map _ List.filter_sublist | exact List.filter_sublist | exact List.tail_sublist _)) | (refine delivBounded ?_ ?_ <;> (first | exact List.Sublist.refl _ | exact List.nil_sublist _ | exact List.Sublist.map _ List.filter_sublist | exact List.filter_sublist | exact List.tail_sublist _)) | (simp; done))

theorem startReview_calm (i : Nat) : Calm s (u.startReview i) := by
  unfold State.startReview
  (try dsimp only) <;> (repeat' split) <;> (try dsimp only) <;> repeat' (first | with_reducible exact h | with_reducible assumption | with_reducible apply onCh_calm | (intro _; exact Nat.le_refl _) | (intro _; exact Nat.zero_le _) | (intro _; simp; done) | rfl | (intro hb; exact hb) | (refine lampBounded ?_ ?_ <;> (first | exact List.Sublist.refl _ | exact List.nil_sublist _ | exact List.Sublist.map _ List.filter_sublist | exact List.filter_sublist | exact List.tail_sublist _)) | (refine linkBounded ?_ ?_ <;> (first | exact List.Sublist.refl _ | exact List.nil_sublist _ | exact List.Sublist.map _ List.filter_sublist | exact List.filter_sublist | exact List.tail_sublist _)) | (refine delivBounded ?_ ?_ <;> (first | exact List.Sublist.refl _ | exact List.nil_sublist _ | exact List.Sublist.map _ List.filter_sublist | exact List.filter_sublist | exact List.tail_sublist _)) | (simp; done))

theorem closeGreet_calm (i : Nat) (spent : Bool) : Calm s (u.closeGreet i spent) := by
  unfold State.closeGreet
  (try dsimp only) <;> (repeat' split) <;> (try dsimp only) <;> repeat' (first | with_reducible exact h | with_reducible assumption | with_reducible apply onCh_calm | with_reducible apply closeObj_calm | with_reducible apply forgetRecording_calm | with_reducible apply promptThen_calm | with_reducible apply startReview_calm | (with_reducible apply closeObj_calm'; on_goal 2 => assumption) | (intro _; exact Nat.le_refl _) | (intro _; exact Nat.zero_le _) | (intro _; simp; done) | rfl | (intro hb; exact hb) | (refine lampBounded ?_ ?_ <;> (first | exact List.Sublist.refl _ | exact List.nil_sublist _ | exact List.Sublist.map _ List.filter_sublist | exact List.filter_sublist | exact List.tail_sublist _)) | (refine linkBounded ?_ ?_ <;> (first | exact List.Sublist.refl _ | exact List.nil_sublist _ | exact List.Sublist.map _ List.filter_sublist | exact List.filter_sublist | exact List.tail_sublist _)) | (refine delivBounded ?_ ?_ <;> (first | exact List.Sublist.refl _ | exact List.nil_sublist _ | exact List.Sublist.map _ List.filter_sublist | exact List.filter_sublist | exact List.tail_sublist _)) | (simp; done))

theorem greetSegment_calm (i : Nat) (seg : Segment) : Calm s (u.greetSegment i seg) := by
  unfold State.greetSegment
  (try dsimp only) <;> (repeat' split) <;> (try dsimp only) <;> repeat' (first | with_reducible exact h | with_reducible assumption | with_reducible apply closeGreet_calm | (with_reducible apply append_calm; on_goal 2 => assumption) | (intro _; exact Nat.le_refl _) | (intro _; exact Nat.zero_le _) | (intro _; simp; done) | rfl | (intro hb; exact hb) | (refine lampBounded ?_ ?_ <;> (first | exact List.Sublist.refl _ | exact List.nil_sublist _ | exact List.Sublist.map _ List.filter_sublist | exact List.filter_sublist | exact List.tail_sublist _)) | (refine linkBounded ?_ ?_ <;> (first | exact List.Sublist.refl _ | exact List.nil_sublist _ | exact List.Sublist.map _ List.filter_sublist | exact List.filter_sublist | exact List.tail_sublist _)) | (refine delivBounded ?_ ?_ <;> (first | exact List.Sublist.refl _ | exact List.nil_sublist _ | exact List.Sublist.map _ List.filter_sublist | exact List.filter_sublist | exact List.tail_sublist _)) | (simp; done))

theorem greetCaptureKey_calm (i : Nat) (key : Key) : Calm s (u.greetCaptureKey i key) := by
  unfold State.greetCaptureKey
  (try dsimp only) <;> (repeat' split) <;> (try dsimp only) <;> repeat' (first | with_reducible exact h | with_reducible assumption | with_reducible apply dropRecording_calm | with_reducible apply enterMenu_calm | with_reducible apply closeGreet_calm | (intro _; exact Nat.le_refl _) | (intro _; exact Nat.zero_le _) | (intro _; simp; done) | rfl | (intro hb; exact hb) | (refine lampBounded ?_ ?_ <;> (first | exact List.Sublist.refl _ | exact List.nil_sublist _ | exact List.Sublist.map _ List.filter_sublist | exact List.filter_sublist | exact List.tail_sublist _)) | (refine linkBounded ?_ ?_ <;> (first | exact List.Sublist.refl _ | exact List.nil_sublist _ | exact List.Sublist.map _ List.filter_sublist | exact List.filter_sublist | exact List.tail_sublist _)) | (refine delivBounded ?_ ?_ <;> (first | exact List.Sublist.refl _ | exact List.nil_sublist _ | exact List.Sublist.map _ List.filter_sublist | exact List.filter_sublist | exact List.tail_sublist _)) | (simp; done))

theorem acceptGreeting_calm (i : Nat) : Calm s (u.acceptGreeting i) := by
  unfold State.acceptGreeting
  split
  · exact h
  · rename_i n _
    have ha := askAccept_calm h (u.served i) i (u.slotOf i) n (u.ch i).pendingEnd
    split <;> rename_i e <;> rw [e] at ha
    · exact ha
    · apply promptThen_calm
      apply onCh_calm
      · exact forgetRecording_calm ha i
      · exact fun _ => Nat.le_refl _

theorem reviewKey_calm (i : Nat) (key : Key) : Calm s (u.reviewKey i key) := by
  unfold State.reviewKey
  (try dsimp only) <;> (repeat' split) <;> (try dsimp only) <;> repeat' (first | with_reducible exact h | with_reducible assumption | with_reducible apply dropRecording_calm | with_reducible apply enterMenu_calm | with_reducible apply keyTaken_calm | with_reducible apply noMeaning_calm | with_reducible apply recordSlot_calm | with_reducible apply acceptGreeting_calm | (intro _; exact Nat.le_refl _) | (intro _; exact Nat.zero_le _) | (intro _; simp; done) | rfl | (intro hb; exact hb) | (refine lampBounded ?_ ?_ <;> (first | exact List.Sublist.refl _ | exact List.nil_sublist _ | exact List.Sublist.map _ List.filter_sublist | exact List.filter_sublist | exact List.tail_sublist _)) | (refine linkBounded ?_ ?_ <;> (first | exact List.Sublist.refl _ | exact List.nil_sublist _ | exact List.Sublist.map _ List.filter_sublist | exact List.filter_sublist | exact List.tail_sublist _)) | (refine delivBounded ?_ ?_ <;> (first | exact List.Sublist.refl _ | exact List.nil_sublist _ | exact List.Sublist.map _ List.filter_sublist | exact List.filter_sublist | exact List.tail_sublist _)) | (simp; done))

theorem onKey_calm (i : Nat) (key : Key) : Calm s (u.onKey i key) := by
  unfold State.onKey
  (try dsimp only) <;> (repeat' split) <;> (try dsimp only) <;> repeat' (first | with_reducible exact h | with_reducible assumption | with_reducible apply greetingKey_calm | with_reducible apply recordingKey_calm | with_reducible apply optionsKey_calm | with_reducible apply sendCaptureKey_calm | with_reducible apply addressKey_calm | with_reducible apply listKey_calm | with_reducible apply sendOptionsKey_calm | with_reducible apply messageKey_calm | with_reducible apply mainKey_calm | with_reducible apply endDayKey_calm | with_reducible apply greetingsKey_calm | with_reducible apply slotKey_calm | with_reducible apply greetCaptureKey_calm | with_reducible apply reviewKey_calm | (intro _; exact Nat.le_refl _) | (intro _; exact Nat.zero_le _) | (intro _; simp; done) | rfl | (intro hb; exact hb) | (refine lampBounded ?_ ?_ <;> (first | exact List.Sublist.refl _ | exact List.nil_sublist _ | exact List.Sublist.map _ List.filter_sublist | exact List.filter_sublist | exact List.tail_sublist _)) | (refine linkBounded ?_ ?_ <;> (first | exact List.Sublist.refl _ | exact List.nil_sublist _ | exact List.Sublist.map _ List.filter_sublist | exact List.filter_sublist | exact List.tail_sublist _)) | (refine delivBounded ?_ ?_ <;> (first | exact List.Sublist.refl _ | exact List.nil_sublist _ | exact List.Sublist.map _ List.filter_sublist | exact List.filter_sublist | exact List.tail_sublist _)) | (simp; done))

theorem takeDigitsFuel_calm (n i : Nat) : Calm s (State.takeDigitsFuel n u i) := by
  induction n generalizing u with
  | zero => exact h
  | succ n ih =>
    unfold State.takeDigitsFuel
    split
    · split
      · exact h
      · rename_i key rest e
        refine ih (onKey_calm (onChAt_calm h _ _ ?_) _ _)
        rw [e]
        exact Nat.le_succ _
    · exact h

theorem takeDigits_calm (i : Nat) : Calm s (u.takeDigits i) := takeDigitsFuel_calm h _ _

theorem notInService_calm (i : Nat) : Calm s (u.notInService i) := by
  unfold State.notInService
  (try dsimp only) <;> (repeat' split) <;> (try dsimp only) <;> repeat' (first | with_reducible exact h | with_reducible assumption | with_reducible apply clearWith_calm | with_reducible apply answerCall_calm | (intro _; exact Nat.le_refl _) | (intro _; exact Nat.zero_le _) | (intro _; simp; done) | rfl | (intro hb; exact hb) | (refine lampBounded ?_ ?_ <;> (first | exact List.Sublist.refl _ | exact List.nil_sublist _ | exact List.Sublist.map _ List.filter_sublist | exact List.filter_sublist | exact List.tail_sublist _)) | (refine linkBounded ?_ ?_ <;> (first | exact List.Sublist.refl _ | exact List.nil_sublist _ | exact List.Sublist.map _ List.filter_sublist | exact List.filter_sublist | exact List.tail_sublist _)) | (refine delivBounded ?_ ?_ <;> (first | exact List.Sublist.refl _ | exact List.nil_sublist _ | exact List.Sublist.map _ List.filter_sublist | exact List.filter_sublist | exact List.tail_sublist _)) | (simp; done))

theorem openDeposit_calm (i k : Nat) (r : CallReason) (internal : Bool) (ids : List Nat) : Calm s (u.openDeposit i k r internal ids) := by
  unfold State.openDeposit
  (try dsimp only) <;> (repeat' split) <;> (try dsimp only) <;> repeat' (first | with_reducible exact h | with_reducible assumption | with_reducible apply onCh_calm | with_reducible apply answerCall_calm | with_reducible apply startGreeting_calm | (intro _; exact Nat.le_refl _) | (intro _; exact Nat.zero_le _) | (intro _; simp; done) | rfl | (intro hb; exact hb) | (refine lampBounded ?_ ?_ <;> (first | exact List.Sublist.refl _ | exact List.nil_sublist _ | exact List.Sublist.map _ List.filter_sublist | exact List.filter_sublist | exact List.tail_sublist _)) | (refine linkBounded ?_ ?_ <;> (first | exact List.Sublist.refl _ | exact List.nil_sublist _ | exact List.Sublist.map _ List.filter_sublist | exact List.filter_sublist | exact List.tail_sublist _)) | (refine delivBounded ?_ ?_ <;> (first | exact List.Sublist.refl _ | exact List.nil_sublist _ | exact List.Sublist.map _ List.filter_sublist | exact List.filter_sublist | exact List.tail_sublist _)) | (simp; done))

theorem enterSummary_calm (i k : Nat) : Calm s (u.enterSummary i k) := by
  unfold State.enterSummary
  (try dsimp only) <;> (repeat' split) <;> (try dsimp only) <;> repeat' (first | with_reducible exact h | with_reducible assumption | with_reducible apply onCh_calm | (intro _; exact Nat.le_refl _) | (intro _; exact Nat.zero_le _) | (intro _; simp; done) | rfl | (intro hb; exact hb) | (refine lampBounded ?_ ?_ <;> (first | exact List.Sublist.refl _ | exact List.nil_sublist _ | exact List.Sublist.map _ List.filter_sublist | exact List.filter_sublist | exact List.tail_sublist _)) | (refine linkBounded ?_ ?_ <;> (first | exact List.Sublist.refl _ | exact List.nil_sublist _ | exact List.Sublist.map _ List.filter_sublist | exact List.filter_sublist | exact List.tail_sublist _)) | (refine delivBounded ?_ ?_ <;> (first | exact List.Sublist.refl _ | exact List.nil_sublist _ | exact List.Sublist.map _ List.filter_sublist | exact List.filter_sublist | exact List.tail_sublist _)) | (simp; done))

theorem openRetrieval_calm (i k : Nat) : Calm s (u.openRetrieval i k) := by
  unfold State.openRetrieval
  (try dsimp only) <;> (repeat' split) <;> (try dsimp only) <;> repeat' (first | with_reducible exact h | with_reducible assumption | with_reducible apply clearWith_calm | with_reducible apply answerCall_calm | with_reducible apply enterSummary_calm | (with_reducible apply askLock_calm'; on_goal 2 => assumption) | (intro _; exact Nat.le_refl _) | (intro _; exact Nat.zero_le _) | (intro _; simp; done) | rfl | (intro hb; exact hb) | (refine lampBounded ?_ ?_ <;> (first | exact List.Sublist.refl _ | exact List.nil_sublist _ | exact List.Sublist.map _ List.filter_sublist | exact List.filter_sublist | exact List.tail_sublist _)) | (refine linkBounded ?_ ?_ <;> (first | exact List.Sublist.refl _ | exact List.nil_sublist _ | exact List.Sublist.map _ List.filter_sublist | exact List.filter_sublist | exact List.tail_sublist _)) | (refine delivBounded ?_ ?_ <;> (first | exact List.Sublist.refl _ | exact List.nil_sublist _ | exact List.Sublist.map _ List.filter_sublist | exact List.filter_sublist | exact List.tail_sublist _)) | (simp; done))

theorem depositEnd_calm (i : Nat) (gathered : Option Segment) : Calm s (u.depositEnd i gathered) := by
  unfold State.depositEnd
  (try dsimp only) <;> (repeat' split) <;> (try dsimp only) <;> repeat' (first | with_reducible exact h | with_reducible assumption | with_reducible apply dropPlaying_calm | with_reducible apply giveBack_calm | with_reducible apply sendDeposit_calm | with_reducible apply padAndSend_calm | with_reducible apply leaveTone_calm | (intro _; exact Nat.le_refl _) | (intro _; exact Nat.zero_le _) | (intro _; simp; done) | rfl | (intro hb; exact hb) | (refine lampBounded ?_ ?_ <;> (first | exact List.Sublist.refl _ | exact List.nil_sublist _ | exact List.Sublist.map _ List.filter_sublist | exact List.filter_sublist | exact List.tail_sublist _)) | (refine linkBounded ?_ ?_ <;> (first | exact List.Sublist.refl _ | exact List.nil_sublist _ | exact List.Sublist.map _ List.filter_sublist | exact List.filter_sublist | exact List.tail_sublist _)) | (refine delivBounded ?_ ?_ <;> (first | exact List.Sublist.refl _ | exact List.nil_sublist _ | exact List.Sublist.map _ List.filter_sublist | exact List.filter_sublist | exact List.tail_sublist _)) | (simp; done))

theorem releaseChannel_calm (i : Nat) (gathered : Option Segment) : Calm s (u.releaseChannel i gathered) := by
  unfold State.releaseChannel
  (try dsimp only) <;> (repeat' split) <;> (try dsimp only) <;> repeat' (first | with_reducible exact h | with_reducible assumption | with_reducible apply toIdle_calm | with_reducible apply endRetrieval_calm | with_reducible apply depositEnd_calm | (intro _; exact Nat.le_refl _) | (intro _; exact Nat.zero_le _) | (intro _; simp; done) | rfl | (intro hb; exact hb) | (refine lampBounded ?_ ?_ <;> (first | exact List.Sublist.refl _ | exact List.nil_sublist _ | exact List.Sublist.map _ List.filter_sublist | exact List.filter_sublist | exact List.tail_sublist _)) | (refine linkBounded ?_ ?_ <;> (first | exact List.Sublist.refl _ | exact List.nil_sublist _ | exact List.Sublist.map _ List.filter_sublist | exact List.filter_sublist | exact List.tail_sublist _)) | (refine delivBounded ?_ ?_ <;> (first | exact List.Sublist.refl _ | exact List.nil_sublist _ | exact List.Sublist.map _ List.filter_sublist | exact List.filter_sublist | exact List.tail_sublist _)) | (simp; done))

theorem sessionLimit_calm (i : Nat) (gathered : Option Segment) : Calm s (u.sessionLimit i gathered) := by
  unfold State.sessionLimit
  (try dsimp only) <;> (repeat' split) <;> (try dsimp only) <;> repeat' (first | with_reducible exact h | with_reducible assumption | with_reducible apply clearWith_calm | with_reducible apply toClearing_calm | with_reducible apply endRetrieval_calm | with_reducible apply depositEnd_calm | (intro _; exact Nat.le_refl _) | (intro _; exact Nat.zero_le _) | (intro _; simp; done) | rfl | (intro hb; exact hb) | (refine lampBounded ?_ ?_ <;> (first | exact List.Sublist.refl _ | exact List.nil_sublist _ | exact List.Sublist.map _ List.filter_sublist | exact List.filter_sublist | exact List.tail_sublist _)) | (refine linkBounded ?_ ?_ <;> (first | exact List.Sublist.refl _ | exact List.nil_sublist _ | exact List.Sublist.map _ List.filter_sublist | exact List.filter_sublist | exact List.tail_sublist _)) | (refine delivBounded ?_ ?_ <;> (first | exact List.Sublist.refl _ | exact List.nil_sublist _ | exact List.Sublist.map _ List.filter_sublist | exact List.filter_sublist | exact List.tail_sublist _)) | (simp; done))

theorem silentRepeat_calm (i : Nat) : Calm s (u.silentRepeat i) := by
  unfold State.silentRepeat
  (try dsimp only) <;> (repeat' split) <;> (try dsimp only) <;> repeat' (first | with_reducible exact h | with_reducible assumption | with_reducible apply onCh_calm | with_reducible apply playMenu_calm | with_reducible apply endRetrieval_calm | (intro _; exact Nat.le_refl _) | (intro _; exact Nat.zero_le _) | (intro _; simp; done) | rfl | (intro hb; exact hb) | (refine lampBounded ?_ ?_ <;> (first | exact List.Sublist.refl _ | exact List.nil_sublist _ | exact List.Sublist.map _ List.filter_sublist | exact List.filter_sublist | exact List.tail_sublist _)) | (refine linkBounded ?_ ?_ <;> (first | exact List.Sublist.refl _ | exact List.nil_sublist _ | exact List.Sublist.map _ List.filter_sublist | exact List.filter_sublist | exact List.tail_sublist _)) | (refine delivBounded ?_ ?_ <;> (first | exact List.Sublist.refl _ | exact List.nil_sublist _ | exact List.Sublist.map _ List.filter_sublist | exact List.filter_sublist | exact List.tail_sublist _)) | (simp; done))

theorem menuTimeout_calm (i : Nat) : Calm s (u.menuTimeout i) := by
  unfold State.menuTimeout
  (try dsimp only) <;> (repeat' split) <;> (try dsimp only) <;> repeat' (first | with_reducible exact h | with_reducible assumption | with_reducible apply sentAndClear_calm | with_reducible apply endInvalid_calm | with_reducible apply silentRepeat_calm | (intro _; exact Nat.le_refl _) | (intro _; exact Nat.zero_le _) | (intro _; simp; done) | rfl | (intro hb; exact hb) | (refine lampBounded ?_ ?_ <;> (first | exact List.Sublist.refl _ | exact List.nil_sublist _ | exact List.Sublist.map _ List.filter_sublist | exact List.filter_sublist | exact List.tail_sublist _)) | (refine linkBounded ?_ ?_ <;> (first | exact List.Sublist.refl _ | exact List.nil_sublist _ | exact List.Sublist.map _ List.filter_sublist | exact List.filter_sublist | exact List.tail_sublist _)) | (refine delivBounded ?_ ?_ <;> (first | exact List.Sublist.refl _ | exact List.nil_sublist _ | exact List.Sublist.map _ List.filter_sublist | exact List.filter_sublist | exact List.tail_sublist _)) | (simp; done))

theorem beginCapture_calm (i : Nat) (st : ChanState) : Calm s (u.beginCapture i st) := by
  unfold State.beginCapture
  (try dsimp only) <;> (repeat' split) <;> (try dsimp only) <;> repeat' (first | with_reducible exact h | with_reducible assumption | with_reducible apply onCh_calm | (intro _; exact Nat.le_refl _) | (intro _; exact Nat.zero_le _) | (intro _; simp; done) | rfl | (intro hb; exact hb) | (refine lampBounded ?_ ?_ <;> (first | exact List.Sublist.refl _ | exact List.nil_sublist _ | exact List.Sublist.map _ List.filter_sublist | exact List.filter_sublist | exact List.tail_sublist _)) | (refine linkBounded ?_ ?_ <;> (first | exact List.Sublist.refl _ | exact List.nil_sublist _ | exact List.Sublist.map _ List.filter_sublist | exact List.filter_sublist | exact List.tail_sublist _)) | (refine delivBounded ?_ ?_ <;> (first | exact List.Sublist.refl _ | exact List.nil_sublist _ | exact List.Sublist.map _ List.filter_sublist | exact List.filter_sublist | exact List.tail_sublist _)) | (simp; done))

theorem playTone_calm (i : Nat) (st : ChanState) : Calm s (u.playTone i st) := by
  unfold State.playTone
  (try dsimp only) <;> (repeat' split) <;> (try dsimp only) <;> repeat' (first | with_reducible exact h | with_reducible assumption | with_reducible apply onCh_calm | (intro _; exact Nat.le_refl _) | (intro _; exact Nat.zero_le _) | (intro _; simp; done) | rfl | (intro hb; exact hb) | (refine lampBounded ?_ ?_ <;> (first | exact List.Sublist.refl _ | exact List.nil_sublist _ | exact List.Sublist.map _ List.filter_sublist | exact List.filter_sublist | exact List.tail_sublist _)) | (refine linkBounded ?_ ?_ <;> (first | exact List.Sublist.refl _ | exact List.nil_sublist _ | exact List.Sublist.map _ List.filter_sublist | exact List.filter_sublist | exact List.tail_sublist _)) | (refine delivBounded ?_ ?_ <;> (first | exact List.Sublist.refl _ | exact List.nil_sublist _ | exact List.Sublist.map _ List.filter_sublist | exact List.filter_sublist | exact List.tail_sublist _)) | (simp; done))

end Sys2Proof.Machine
end

