-- ==== Sys2Proof/Laws/CalmEvents.lean ====
section
/-! SUPPORT. The operations of the link, the pass and the port leave the still part alone. -/

namespace Sys2Proof.Machine

set_option linter.all false

variable {s u : State} (h : Calm s u)
include h

theorem hailDue_calm : Calm s (u.hailDue) := by
  unfold State.hailDue
  (try dsimp only) <;> (repeat' split) <;> (try dsimp only) <;> repeat' (first | with_reducible exact h | with_reducible assumption | with_reducible apply onLink_calm | with_reducible apply handIgnoring_calm | (intro _; exact Nat.le_refl _) | (intro _; exact Nat.zero_le _) | (intro _; simp; done) | rfl | (intro hb; exact hb) | (refine lampBounded ?_ ?_ <;> (first | exact List.Sublist.refl _ | exact List.nil_sublist _ | exact List.Sublist.map _ List.filter_sublist | exact List.filter_sublist | exact List.tail_sublist _)) | (refine linkBounded ?_ ?_ <;> (first | exact List.Sublist.refl _ | exact List.nil_sublist _ | exact List.Sublist.map _ List.filter_sublist | exact List.filter_sublist | exact List.tail_sublist _)) | (refine delivBounded ?_ ?_ <;> (first | exact List.Sublist.refl _ | exact List.nil_sublist _ | exact List.Sublist.map _ List.filter_sublist | exact List.filter_sublist | exact List.tail_sublist _)) | (simp; done))

theorem aloneDue_calm : Calm s (u.aloneDue) := by
  unfold State.aloneDue
  (try dsimp only) <;> (repeat' split) <;> (try dsimp only) <;> repeat' (first | with_reducible exact h | with_reducible assumption | with_reducible apply onLink_calm | with_reducible apply latch_calm | (intro _; exact Nat.le_refl _) | (intro _; exact Nat.zero_le _) | (intro _; simp; done) | rfl | (intro hb; exact hb) | (refine lampBounded ?_ ?_ <;> (first | exact List.Sublist.refl _ | exact List.nil_sublist _ | exact List.Sublist.map _ List.filter_sublist | exact List.filter_sublist | exact List.tail_sublist _)) | (refine linkBounded ?_ ?_ <;> (first | exact List.Sublist.refl _ | exact List.nil_sublist _ | exact List.Sublist.map _ List.filter_sublist | exact List.filter_sublist | exact List.tail_sublist _)) | (refine delivBounded ?_ ?_ <;> (first | exact List.Sublist.refl _ | exact List.nil_sublist _ | exact List.Sublist.map _ List.filter_sublist | exact List.filter_sublist | exact List.tail_sublist _)) | (simp; done))

theorem enterActive_calm : Calm s (u.enterActive) := by
  unfold State.enterActive
  (try dsimp only) <;> (repeat' split) <;> (try dsimp only) <;> repeat' (first | with_reducible exact h | with_reducible assumption | with_reducible apply onLink_calm | (intro _; exact Nat.le_refl _) | (intro _; exact Nat.zero_le _) | (intro _; simp; done) | rfl | (intro hb; exact hb) | (refine lampBounded ?_ ?_ <;> (first | exact List.Sublist.refl _ | exact List.nil_sublist _ | exact List.Sublist.map _ List.filter_sublist | exact List.filter_sublist | exact List.tail_sublist _)) | (refine linkBounded ?_ ?_ <;> (first | exact List.Sublist.refl _ | exact List.nil_sublist _ | exact List.Sublist.map _ List.filter_sublist | exact List.filter_sublist | exact List.tail_sublist _)) | (refine delivBounded ?_ ?_ <;> (first | exact List.Sublist.refl _ | exact List.nil_sublist _ | exact List.Sublist.map _ List.filter_sublist | exact List.filter_sublist | exact List.tail_sublist _)) | (simp; done))

theorem silence_calm (st : LinkState) : Calm s (u.silence st) := by
  unfold State.silence
  (try dsimp only) <;> (repeat' split) <;> (try dsimp only) <;> repeat' (first | with_reducible exact h | with_reducible assumption | with_reducible apply onLink_calm | with_reducible apply stopAlone_calm | with_reducible apply emptySendList_calm | (intro _; exact Nat.le_refl _) | (intro _; exact Nat.zero_le _) | (intro _; simp; done) | rfl | (intro hb; exact hb) | (refine lampBounded ?_ ?_ <;> (first | exact List.Sublist.refl _ | exact List.nil_sublist _ | exact List.Sublist.map _ List.filter_sublist | exact List.filter_sublist | exact List.tail_sublist _)) | (refine linkBounded ?_ ?_ <;> (first | exact List.Sublist.refl _ | exact List.nil_sublist _ | exact List.Sublist.map _ List.filter_sublist | exact List.filter_sublist | exact List.tail_sublist _)) | (refine delivBounded ?_ ?_ <;> (first | exact List.Sublist.refl _ | exact List.nil_sublist _ | exact List.Sublist.map _ List.filter_sublist | exact List.filter_sublist | exact List.tail_sublist _)) | (simp; done))

theorem enterMuted_calm : Calm s (u.enterMuted) := by
  unfold State.enterMuted
  (try dsimp only) <;> (repeat' split) <;> (try dsimp only) <;> repeat' (first | with_reducible exact h | with_reducible assumption | with_reducible apply latch_calm | with_reducible apply silence_calm | (intro _; exact Nat.le_refl _) | (intro _; exact Nat.zero_le _) | (intro _; simp; done) | rfl | (intro hb; exact hb) | (refine lampBounded ?_ ?_ <;> (first | exact List.Sublist.refl _ | exact List.nil_sublist _ | exact List.Sublist.map _ List.filter_sublist | exact List.filter_sublist | exact List.tail_sublist _)) | (refine linkBounded ?_ ?_ <;> (first | exact List.Sublist.refl _ | exact List.nil_sublist _ | exact List.Sublist.map _ List.filter_sublist | exact List.filter_sublist | exact List.tail_sublist _)) | (refine delivBounded ?_ ?_ <;> (first | exact List.Sublist.refl _ | exact List.nil_sublist _ | exact List.Sublist.map _ List.filter_sublist | exact List.filter_sublist | exact List.tail_sublist _)) | (simp; done))

theorem enterFaulted_calm : Calm s (u.enterFaulted) := by
  unfold State.enterFaulted
  (try dsimp only) <;> (repeat' split) <;> (try dsimp only) <;> repeat' (first | with_reducible exact h | with_reducible assumption | with_reducible apply latch_calm | with_reducible apply silence_calm | (intro _; exact Nat.le_refl _) | (intro _; exact Nat.zero_le _) | (intro _; simp; done) | rfl | (intro hb; exact hb) | (refine lampBounded ?_ ?_ <;> (first | exact List.Sublist.refl _ | exact List.nil_sublist _ | exact List.Sublist.map _ List.filter_sublist | exact List.filter_sublist | exact List.tail_sublist _)) | (refine linkBounded ?_ ?_ <;> (first | exact List.Sublist.refl _ | exact List.nil_sublist _ | exact List.Sublist.map _ List.filter_sublist | exact List.filter_sublist | exact List.tail_sublist _)) | (refine delivBounded ?_ ?_ <;> (first | exact List.Sublist.refl _ | exact List.nil_sublist _ | exact List.Sublist.map _ List.filter_sublist | exact List.filter_sublist | exact List.tail_sublist _)) | (simp; done))

theorem enterJoining_calm : Calm s (u.enterJoining) := by
  unfold State.enterJoining
  (try dsimp only) <;> (repeat' split) <;> (try dsimp only) <;> repeat' (first | with_reducible exact h | with_reducible assumption | with_reducible apply onLink_calm | (intro _; exact Nat.le_refl _) | (intro _; exact Nat.zero_le _) | (intro _; simp; done) | rfl | (intro hb; exact hb) | (refine lampBounded ?_ ?_ <;> (first | exact List.Sublist.refl _ | exact List.nil_sublist _ | exact List.Sublist.map _ List.filter_sublist | exact List.filter_sublist | exact List.tail_sublist _)) | (refine linkBounded ?_ ?_ <;> (first | exact List.Sublist.refl _ | exact List.nil_sublist _ | exact List.Sublist.map _ List.filter_sublist | exact List.filter_sublist | exact List.tail_sublist _)) | (refine delivBounded ?_ ?_ <;> (first | exact List.Sublist.refl _ | exact List.nil_sublist _ | exact List.Sublist.map _ List.filter_sublist | exact List.filter_sublist | exact List.tail_sublist _)) | (simp; done))

theorem beginFrame_calm (x : SendItem) : Calm s (u.beginFrame x) := by
  unfold State.beginFrame
  (try dsimp only) <;> (repeat' split) <;> (try dsimp only) <;> repeat' (first | with_reducible exact h | with_reducible assumption | with_reducible apply drive_calm | with_reducible apply onLink_calm | (intro _; exact Nat.le_refl _) | (intro _; exact Nat.zero_le _) | (intro _; simp; done) | rfl | (intro hb; exact hb) | (refine lampBounded ?_ ?_ <;> (first | exact List.Sublist.refl _ | exact List.nil_sublist _ | exact List.Sublist.map _ List.filter_sublist | exact List.filter_sublist | exact List.tail_sublist _)) | (refine linkBounded ?_ ?_ <;> (first | exact List.Sublist.refl _ | exact List.nil_sublist _ | exact List.Sublist.map _ List.filter_sublist | exact List.filter_sublist | exact List.tail_sublist _)) | (refine delivBounded ?_ ?_ <;> (first | exact List.Sublist.refl _ | exact List.nil_sublist _ | exact List.Sublist.map _ List.filter_sublist | exact List.filter_sublist | exact List.tail_sublist _)) | (simp; done))

theorem bitErrorSeen_calm : Calm s (u.bitErrorSeen) := by
  unfold State.bitErrorSeen
  (try dsimp only) <;> (repeat' split) <;> (try dsimp only) <;> repeat' (first | with_reducible exact h | with_reducible assumption | with_reducible apply onLink_calm | with_reducible apply stopDriving_calm | with_reducible apply enterMuted_calm | (intro _; exact Nat.le_refl _) | (intro _; exact Nat.zero_le _) | (intro _; simp; done) | rfl | (intro hb; exact hb) | (refine lampBounded ?_ ?_ <;> (first | exact List.Sublist.refl _ | exact List.nil_sublist _ | exact List.Sublist.map _ List.filter_sublist | exact List.filter_sublist | exact List.tail_sublist _)) | (refine linkBounded ?_ ?_ <;> (first | exact List.Sublist.refl _ | exact List.nil_sublist _ | exact List.Sublist.map _ List.filter_sublist | exact List.filter_sublist | exact List.tail_sublist _)) | (refine delivBounded ?_ ?_ <;> (first | exact List.Sublist.refl _ | exact List.nil_sublist _ | exact List.Sublist.map _ List.filter_sublist | exact List.filter_sublist | exact List.tail_sublist _)) | (simp; done))

theorem decideFrame_calm (r : Requester) (x : Tx) : Calm s (u.decideFrame r x) := by
  unfold State.decideFrame
  (try dsimp only) <;> (repeat' split) <;> (try dsimp only) <;> repeat' (first | with_reducible exact h | with_reducible assumption | with_reducible apply dropItem_calm | with_reducible apply txBack_calm | (intro _; exact Nat.le_refl _) | (intro _; exact Nat.zero_le _) | (intro _; simp; done) | rfl | (intro hb; exact hb) | (refine lampBounded ?_ ?_ <;> (first | exact List.Sublist.refl _ | exact List.nil_sublist _ | exact List.Sublist.map _ List.filter_sublist | exact List.filter_sublist | exact List.tail_sublist _)) | (refine linkBounded ?_ ?_ <;> (first | exact List.Sublist.refl _ | exact List.nil_sublist _ | exact List.Sublist.map _ List.filter_sublist | exact List.filter_sublist | exact List.tail_sublist _)) | (refine delivBounded ?_ ?_ <;> (first | exact List.Sublist.refl _ | exact List.nil_sublist _ | exact List.Sublist.map _ List.filter_sublist | exact List.filter_sublist | exact List.tail_sublist _)) | (simp; done))

theorem slotBusy_calm (x : SendItem) : Calm s (u.slotBusy x) := by
  unfold State.slotBusy
  (try dsimp only) <;> (repeat' split) <;> (try dsimp only) <;> repeat' (first | with_reducible exact h | with_reducible assumption | with_reducible apply onItem_calm | with_reducible apply decideFrame_calm | (intro _; exact Nat.le_refl _) | (intro _; exact Nat.zero_le _) | (intro _; simp; done) | rfl | (intro hb; exact hb) | (refine lampBounded ?_ ?_ <;> (first | exact List.Sublist.refl _ | exact List.nil_sublist _ | exact List.Sublist.map _ List.filter_sublist | exact List.filter_sublist | exact List.tail_sublist _)) | (refine linkBounded ?_ ?_ <;> (first | exact List.Sublist.refl _ | exact List.nil_sublist _ | exact List.Sublist.map _ List.filter_sublist | exact List.filter_sublist | exact List.tail_sublist _)) | (refine delivBounded ?_ ?_ <;> (first | exact List.Sublist.refl _ | exact List.nil_sublist _ | exact List.Sublist.map _ List.filter_sublist | exact List.filter_sublist | exact List.tail_sublist _)) | (simp; done))

theorem slotSilent_calm (x : SendItem) : Calm s (u.slotSilent x) := by
  unfold State.slotSilent
  (try dsimp only) <;> (repeat' split) <;> (try dsimp only) <;> repeat' (first | with_reducible exact h | with_reducible assumption | with_reducible apply onItem_calm | with_reducible apply markAbsent_calm | with_reducible apply silence_calm | with_reducible apply decideFrame_calm | (intro _; exact Nat.le_refl _) | (intro _; exact Nat.zero_le _) | (intro _; simp; done) | rfl | (intro hb; exact hb) | (refine lampBounded ?_ ?_ <;> (first | exact List.Sublist.refl _ | exact List.nil_sublist _ | exact List.Sublist.map _ List.filter_sublist | exact List.filter_sublist | exact List.tail_sublist _)) | (refine linkBounded ?_ ?_ <;> (first | exact List.Sublist.refl _ | exact List.nil_sublist _ | exact List.Sublist.map _ List.filter_sublist | exact List.filter_sublist | exact List.tail_sublist _)) | (refine delivBounded ?_ ?_ <;> (first | exact List.Sublist.refl _ | exact List.nil_sublist _ | exact List.Sublist.map _ List.filter_sublist | exact List.filter_sublist | exact List.tail_sublist _)) | (simp; done))

theorem sentWell_calm (x : SendItem) (reading : SlotReading) : Calm s (u.sentWell x reading) := by
  unfold State.sentWell
  (try dsimp only) <;> (repeat' split) <;> (try dsimp only) <;> repeat' (first | with_reducible exact h | with_reducible assumption | with_reducible apply onLink_calm | with_reducible apply stopDriving_calm | with_reducible apply refresh_calm | with_reducible apply silence_calm | with_reducible apply decideFrame_calm | with_reducible apply slotBusy_calm | with_reducible apply slotSilent_calm | (intro _; exact Nat.le_refl _) | (intro _; exact Nat.zero_le _) | (intro _; simp; done) | rfl | (intro hb; exact hb) | (refine lampBounded ?_ ?_ <;> (first | exact List.Sublist.refl _ | exact List.nil_sublist _ | exact List.Sublist.map _ List.filter_sublist | exact List.filter_sublist | exact List.tail_sublist _)) | (refine linkBounded ?_ ?_ <;> (first | exact List.Sublist.refl _ | exact List.nil_sublist _ | exact List.Sublist.map _ List.filter_sublist | exact List.filter_sublist | exact List.tail_sublist _)) | (refine delivBounded ?_ ?_ <;> (first | exact List.Sublist.refl _ | exact List.nil_sublist _ | exact List.Sublist.map _ List.filter_sublist | exact List.filter_sublist | exact List.tail_sublist _)) | (simp; done))

theorem restartIdle_calm (j : Nat) : Calm s (u.restartIdle j) := by
  unfold State.restartIdle
  (try dsimp only) <;> (repeat' split) <;> (try dsimp only) <;> repeat' (first | with_reducible exact h | with_reducible assumption | with_reducible apply onIn_calm | (intro _; exact Nat.le_refl _) | (intro _; exact Nat.zero_le _) | (intro _; simp; done) | rfl | (intro hb; exact hb) | (refine lampBounded ?_ ?_ <;> (first | exact List.Sublist.refl _ | exact List.nil_sublist _ | exact List.Sublist.map _ List.filter_sublist | exact List.filter_sublist | exact List.tail_sublist _)) | (refine linkBounded ?_ ?_ <;> (first | exact List.Sublist.refl _ | exact List.nil_sublist _ | exact List.Sublist.map _ List.filter_sublist | exact List.filter_sublist | exact List.tail_sublist _)) | (refine delivBounded ?_ ?_ <;> (first | exact List.Sublist.refl _ | exact List.nil_sublist _ | exact List.Sublist.map _ List.filter_sublist | exact List.filter_sublist | exact List.tail_sublist _)) | (simp; done))

theorem carryVerdict_calm (src tag idx : Nat) {t' : State} (e : u.carryVerdict src tag idx = some t') : Calm s t' := by
  unfold State.carryVerdict at e
  (try dsimp only at e) <;> (repeat' split at e) <;> cases e <;> repeat' (first | with_reducible exact h | with_reducible assumption | with_reducible apply onIn_calm | with_reducible apply restartIdle_calm | (intro _; exact Nat.le_refl _) | (intro _; exact Nat.zero_le _) | (intro _; simp; done) | rfl | (intro hb; exact hb) | (refine lampBounded ?_ ?_ <;> (first | exact List.Sublist.refl _ | exact List.nil_sublist _ | exact List.Sublist.map _ List.filter_sublist | exact List.filter_sublist | exact List.tail_sublist _)) | (refine linkBounded ?_ ?_ <;> (first | exact List.Sublist.refl _ | exact List.nil_sublist _ | exact List.Sublist.map _ List.filter_sublist | exact List.filter_sublist | exact List.tail_sublist _)) | (refine delivBounded ?_ ?_ <;> (first | exact List.Sublist.refl _ | exact List.nil_sublist _ | exact List.Sublist.map _ List.filter_sublist | exact List.filter_sublist | exact List.tail_sublist _)) | (simp; done))

theorem verdict_calm (f : Frame) {t' : State} (e : u.verdict f = some t') : Calm s t' := by
  unfold State.verdict at e
  split at e
  · cases e; exact h
  · cases e
  · split at e <;> cases e; exact h
  · cases e; exact h
  · split at e <;> cases e; exact h
  · split at e <;> cases e; exact h
  · split at e <;> cases e; exact h
  · exact carryVerdict_calm h _ _ _ e
  · split at e
    · cases e
    · cases e; exact restartIdle_calm h _

theorem joinBuffer_calm (f : Frame) (hb : u.bufferFull = false) : Calm s (u.joinBuffer f) := by
  unfold State.joinBuffer
  refine onLink_calm h _ ?_ ?_
  · rfl
  · intro b
    refine ⟨b.1, ?_⟩
    unfold State.bufferFull at hb
    simp only [decide_eq_false_iff_not] at hb
    simp only [List.length_append, List.length_singleton]
    omega

omit h in
theorem verdict_link {f : Frame} {t' : State} (e : u.verdict f = some t') : t'.link = u.link := by
  unfold State.verdict at e
  split at e
  · cases e; rfl
  · cases e
  · split at e <;> cases e; rfl
  · cases e; rfl
  · split at e <;> cases e; rfl
  · split at e <;> cases e; rfl
  · split at e <;> cases e; rfl
  · unfold State.carryVerdict at e
    split at e
    · cases e
    · dsimp only at e
      split at e
      · split at e
        · cases e; rfl
        · split at e <;> cases e; rfl
      · split at e <;> cases e; rfl
  · split at e
    · cases e
    · cases e; rfl

theorem answerSlot_calm (f : Frame) : Calm s (u.answerSlot f) := by
  unfold State.answerSlot
  split
  · exact drive_calm h _
  · rename_i hb
    split
    · rename_i e
      refine drive_calm (joinBuffer_calm (verdict_calm h _ e) _ ?_) _
      unfold State.bufferFull at hb ⊢
      rw [verdict_link e]
      simpa using hb
    · exact drive_calm h _

theorem refuseMalformed_calm (src : Nat) : Calm s (u.refuseMalformed src) := by
  unfold State.refuseMalformed
  (try dsimp only) <;> (repeat' split) <;> (try dsimp only) <;> repeat' (first | with_reducible exact h | with_reducible assumption | with_reducible apply drive_calm | with_reducible apply answer_calm | (intro _; exact Nat.le_refl _) | (intro _; exact Nat.zero_le _) | (intro _; simp; done) | rfl | (intro hb; exact hb) | (refine lampBounded ?_ ?_ <;> (first | exact List.Sublist.refl _ | exact List.nil_sublist _ | exact List.Sublist.map _ List.filter_sublist | exact List.filter_sublist | exact List.tail_sublist _)) | (refine linkBounded ?_ ?_ <;> (first | exact List.Sublist.refl _ | exact List.nil_sublist _ | exact List.Sublist.map _ List.filter_sublist | exact List.filter_sublist | exact List.tail_sublist _)) | (refine delivBounded ?_ ?_ <;> (first | exact List.Sublist.refl _ | exact List.nil_sublist _ | exact List.Sublist.map _ List.filter_sublist | exact List.filter_sublist | exact List.tail_sublist _)) | (simp; done))

theorem dealWith_calm (raw : RawFrame) : Calm s (u.dealWith raw) := by
  unfold State.dealWith
  dsimp only
  split
  · split
    · exact refuseMalformed_calm h _
    · exact h
  · split
    · split
      · rename_i hc
        simp only [Bool.and_eq_true, Bool.not_eq_true'] at hc
        exact joinBuffer_calm h _ hc.2
      · exact h
    · split
      · exact answerSlot_calm h _
      · exact h

theorem hear_calm (raw : RawFrame) : Calm s (u.hear raw) := by
  unfold State.hear
  (try dsimp only) <;> (repeat' split) <;> (try dsimp only) <;> repeat' (first | with_reducible exact h | with_reducible assumption | with_reducible apply refresh_calm | with_reducible apply enterMuted_calm | with_reducible apply dealWith_calm | (intro _; exact Nat.le_refl _) | (intro _; exact Nat.zero_le _) | (intro _; simp; done) | rfl | (intro hb; exact hb) | (refine lampBounded ?_ ?_ <;> (first | exact List.Sublist.refl _ | exact List.nil_sublist _ | exact List.Sublist.map _ List.filter_sublist | exact List.filter_sublist | exact List.tail_sublist _)) | (refine linkBounded ?_ ?_ <;> (first | exact List.Sublist.refl _ | exact List.nil_sublist _ | exact List.Sublist.map _ List.filter_sublist | exact List.filter_sublist | exact List.tail_sublist _)) | (refine delivBounded ?_ ?_ <;> (first | exact List.Sublist.refl _ | exact List.nil_sublist _ | exact List.Sublist.map _ List.filter_sublist | exact List.filter_sublist | exact List.tail_sublist _)) | (simp; done))

theorem popBuffer_calm : Calm s (u.popBuffer) := by
  unfold State.popBuffer
  (try dsimp only) <;> (repeat' split) <;> (try dsimp only) <;> repeat' (first | with_reducible exact h | with_reducible assumption | with_reducible apply onLink_calm | (intro _; exact Nat.le_refl _) | (intro _; exact Nat.zero_le _) | (intro _; simp; done) | rfl | (intro hb; exact hb) | (refine lampBounded ?_ ?_ <;> (first | exact List.Sublist.refl _ | exact List.nil_sublist _ | exact List.Sublist.map _ List.filter_sublist | exact List.filter_sublist | exact List.tail_sublist _)) | (refine linkBounded ?_ ?_ <;> (first | exact List.Sublist.refl _ | exact List.nil_sublist _ | exact List.Sublist.map _ List.filter_sublist | exact List.filter_sublist | exact List.tail_sublist _)) | (refine delivBounded ?_ ?_ <;> (first | exact List.Sublist.refl _ | exact List.nil_sublist _ | exact List.Sublist.map _ List.filter_sublist | exact List.filter_sublist | exact List.tail_sublist _)) | (simp; done))

theorem beginPass_calm : Calm s (u.beginPass) := by
  unfold State.beginPass
  (try dsimp only) <;> (repeat' split) <;> (try dsimp only) <;> repeat' (first | with_reducible exact h | with_reducible assumption | with_reducible apply onHouse_calm | (intro _; exact Nat.le_refl _) | (intro _; exact Nat.zero_le _) | (intro _; simp; done) | rfl | (intro hb; exact hb) | (refine lampBounded ?_ ?_ <;> (first | exact List.Sublist.refl _ | exact List.nil_sublist _ | exact List.Sublist.map _ List.filter_sublist | exact List.filter_sublist | exact List.tail_sublist _)) | (refine linkBounded ?_ ?_ <;> (first | exact List.Sublist.refl _ | exact List.nil_sublist _ | exact List.Sublist.map _ List.filter_sublist | exact List.filter_sublist | exact List.tail_sublist _)) | (refine delivBounded ?_ ?_ <;> (first | exact List.Sublist.refl _ | exact List.nil_sublist _ | exact List.Sublist.map _ List.filter_sublist | exact List.filter_sublist | exact List.tail_sublist _)) | (simp; done))

theorem postpone_calm (c : Causes) : Calm s (u.postpone c) := by
  unfold State.postpone
  (try dsimp only) <;> (repeat' split) <;> (try dsimp only) <;> repeat' (first | with_reducible exact h | with_reducible assumption | with_reducible apply onHouse_calm | (intro _; exact Nat.le_refl _) | (intro _; exact Nat.zero_le _) | (intro _; simp; done) | rfl | (intro hb; exact hb) | (refine lampBounded ?_ ?_ <;> (first | exact List.Sublist.refl _ | exact List.nil_sublist _ | exact List.Sublist.map _ List.filter_sublist | exact List.filter_sublist | exact List.tail_sublist _)) | (refine linkBounded ?_ ?_ <;> (first | exact List.Sublist.refl _ | exact List.nil_sublist _ | exact List.Sublist.map _ List.filter_sublist | exact List.filter_sublist | exact List.tail_sublist _)) | (refine delivBounded ?_ ?_ <;> (first | exact List.Sublist.refl _ | exact List.nil_sublist _ | exact List.Sublist.map _ List.filter_sublist | exact List.filter_sublist | exact List.tail_sublist _)) | (simp; done))

theorem forcePass_calm (c : Causes) : Calm s (u.forcePass c) := by
  unfold State.forcePass
  (try dsimp only) <;> (repeat' split) <;> (try dsimp only) <;> repeat' (first | with_reducible exact h | with_reducible assumption | with_reducible apply onHouse_calm | with_reducible apply latch_calm | with_reducible apply beginPass_calm | (intro _; exact Nat.le_refl _) | (intro _; exact Nat.zero_le _) | (intro _; simp; done) | rfl | (intro hb; exact hb) | (refine lampBounded ?_ ?_ <;> (first | exact List.Sublist.refl _ | exact List.nil_sublist _ | exact List.Sublist.map _ List.filter_sublist | exact List.filter_sublist | exact List.tail_sublist _)) | (refine linkBounded ?_ ?_ <;> (first | exact List.Sublist.refl _ | exact List.nil_sublist _ | exact List.Sublist.map _ List.filter_sublist | exact List.filter_sublist | exact List.tail_sublist _)) | (refine delivBounded ?_ ?_ <;> (first | exact List.Sublist.refl _ | exact List.nil_sublist _ | exact List.Sublist.map _ List.filter_sublist | exact List.filter_sublist | exact List.tail_sublist _)) | (simp; done))

theorem attempt_calm : Calm s (u.attempt) := by
  unfold State.attempt
  (try dsimp only) <;> (repeat' split) <;> (try dsimp only) <;> repeat' (first | with_reducible exact h | with_reducible assumption | with_reducible apply beginPass_calm | with_reducible apply postpone_calm | with_reducible apply forcePass_calm | (intro _; exact Nat.le_refl _) | (intro _; exact Nat.zero_le _) | (intro _; simp; done) | rfl | (intro hb; exact hb) | (refine lampBounded ?_ ?_ <;> (first | exact List.Sublist.refl _ | exact List.nil_sublist _ | exact List.Sublist.map _ List.filter_sublist | exact List.filter_sublist | exact List.tail_sublist _)) | (refine linkBounded ?_ ?_ <;> (first | exact List.Sublist.refl _ | exact List.nil_sublist _ | exact List.Sublist.map _ List.filter_sublist | exact List.filter_sublist | exact List.tail_sublist _)) | (refine delivBounded ?_ ?_ <;> (first | exact List.Sublist.refl _ | exact List.nil_sublist _ | exact List.Sublist.map _ List.filter_sublist | exact List.filter_sublist | exact List.tail_sublist _)) | (simp; done))

theorem checkPass_calm : Calm s (u.checkPass) := by
  unfold State.checkPass
  (try dsimp only) <;> (repeat' split) <;> (try dsimp only) <;> repeat' (first | with_reducible exact h | with_reducible assumption | with_reducible apply attempt_calm | (intro _; exact Nat.le_refl _) | (intro _; exact Nat.zero_le _) | (intro _; simp; done) | rfl | (intro hb; exact hb) | (refine lampBounded ?_ ?_ <;> (first | exact List.Sublist.refl _ | exact List.nil_sublist _ | exact List.Sublist.map _ List.filter_sublist | exact List.filter_sublist | exact List.tail_sublist _)) | (refine linkBounded ?_ ?_ <;> (first | exact List.Sublist.refl _ | exact List.nil_sublist _ | exact List.Sublist.map _ List.filter_sublist | exact List.filter_sublist | exact List.tail_sublist _)) | (refine delivBounded ?_ ?_ <;> (first | exact List.Sublist.refl _ | exact List.nil_sublist _ | exact List.Sublist.map _ List.filter_sublist | exact List.filter_sublist | exact List.tail_sublist _)) | (simp; done))

theorem setClock_calm (day minute : Nat) : Calm s (u.setClock day minute) := by
  unfold State.setClock
  (try dsimp only) <;> (repeat' split) <;> (try dsimp only) <;> repeat' (first | with_reducible exact h | with_reducible assumption | with_reducible apply onHouse_calm | (intro _; exact Nat.le_refl _) | (intro _; exact Nat.zero_le _) | (intro _; simp; done) | rfl | (intro hb; exact hb) | (refine lampBounded ?_ ?_ <;> (first | exact List.Sublist.refl _ | exact List.nil_sublist _ | exact List.Sublist.map _ List.filter_sublist | exact List.filter_sublist | exact List.tail_sublist _)) | (refine linkBounded ?_ ?_ <;> (first | exact List.Sublist.refl _ | exact List.nil_sublist _ | exact List.Sublist.map _ List.filter_sublist | exact List.filter_sublist | exact List.tail_sublist _)) | (refine delivBounded ?_ ?_ <;> (first | exact List.Sublist.refl _ | exact List.nil_sublist _ | exact List.Sublist.map _ List.filter_sublist | exact List.filter_sublist | exact List.tail_sublist _)) | (simp; done))

theorem endWait_calm (day : Nat) : Calm s (u.endWait day) := by
  unfold State.endWait
  (try dsimp only) <;> (repeat' split) <;> (try dsimp only) <;> repeat' (first | with_reducible exact h | with_reducible assumption | with_reducible apply onHouse_calm | (intro _; exact Nat.le_refl _) | (intro _; exact Nat.zero_le _) | (intro _; simp; done) | rfl | (intro hb; exact hb) | (refine lampBounded ?_ ?_ <;> (first | exact List.Sublist.refl _ | exact List.nil_sublist _ | exact List.Sublist.map _ List.filter_sublist | exact List.filter_sublist | exact List.tail_sublist _)) | (refine linkBounded ?_ ?_ <;> (first | exact List.Sublist.refl _ | exact List.nil_sublist _ | exact List.Sublist.map _ List.filter_sublist | exact List.filter_sublist | exact List.tail_sublist _)) | (refine delivBounded ?_ ?_ <;> (first | exact List.Sublist.refl _ | exact List.nil_sublist _ | exact List.Sublist.map _ List.filter_sublist | exact List.filter_sublist | exact List.tail_sublist _)) | (simp; done))

theorem advanceClock_calm (day minute : Nat) : Calm s (u.advanceClock day minute) := by
  unfold State.advanceClock
  (try dsimp only) <;> (repeat' split) <;> (try dsimp only) <;> repeat' (first | with_reducible exact h | with_reducible assumption | with_reducible apply onHouse_calm | with_reducible apply setClock_calm | (intro _; exact Nat.le_refl _) | (intro _; exact Nat.zero_le _) | (intro _; simp; done) | rfl | (intro hb; exact hb) | (refine lampBounded ?_ ?_ <;> (first | exact List.Sublist.refl _ | exact List.nil_sublist _ | exact List.Sublist.map _ List.filter_sublist | exact List.filter_sublist | exact List.tail_sublist _)) | (refine linkBounded ?_ ?_ <;> (first | exact List.Sublist.refl _ | exact List.nil_sublist _ | exact List.Sublist.map _ List.filter_sublist | exact List.filter_sublist | exact List.tail_sublist _)) | (refine delivBounded ?_ ?_ <;> (first | exact List.Sublist.refl _ | exact List.nil_sublist _ | exact List.Sublist.map _ List.filter_sublist | exact List.filter_sublist | exact List.tail_sublist _)) | (simp; done))

theorem stopSchedule_calm : Calm s (u.stopSchedule) := by
  unfold State.stopSchedule
  (try dsimp only) <;> (repeat' split) <;> (try dsimp only) <;> repeat' (first | with_reducible exact h | with_reducible assumption | with_reducible apply onHouse_calm | (intro _; exact Nat.le_refl _) | (intro _; exact Nat.zero_le _) | (intro _; simp; done) | rfl | (intro hb; exact hb) | (refine lampBounded ?_ ?_ <;> (first | exact List.Sublist.refl _ | exact List.nil_sublist _ | exact List.Sublist.map _ List.filter_sublist | exact List.filter_sublist | exact List.tail_sublist _)) | (refine linkBounded ?_ ?_ <;> (first | exact List.Sublist.refl _ | exact List.nil_sublist _ | exact List.Sublist.map _ List.filter_sublist | exact List.filter_sublist | exact List.tail_sublist _)) | (refine delivBounded ?_ ?_ <;> (first | exact List.Sublist.refl _ | exact List.nil_sublist _ | exact List.Sublist.map _ List.filter_sublist | exact List.filter_sublist | exact List.tail_sublist _)) | (simp; done))

theorem stampMailbox_calm (k : Nat) : Calm s (u.stampMailbox k) := by
  unfold State.stampMailbox
  (try dsimp only) <;> (repeat' split) <;> (try dsimp only) <;> repeat' (first | with_reducible exact h | with_reducible assumption | with_reducible apply onMb_calm | with_reducible apply markMailbox_calm | (intro _; exact Nat.le_refl _) | (intro _; exact Nat.zero_le _) | (intro _; simp; done) | rfl | (intro hb; exact hb) | (refine lampBounded ?_ ?_ <;> (first | exact List.Sublist.refl _ | exact List.nil_sublist _ | exact List.Sublist.map _ List.filter_sublist | exact List.filter_sublist | exact List.tail_sublist _)) | (refine linkBounded ?_ ?_ <;> (first | exact List.Sublist.refl _ | exact List.nil_sublist _ | exact List.Sublist.map _ List.filter_sublist | exact List.filter_sublist | exact List.tail_sublist _)) | (refine delivBounded ?_ ?_ <;> (first | exact List.Sublist.refl _ | exact List.nil_sublist _ | exact List.Sublist.map _ List.filter_sublist | exact List.filter_sublist | exact List.tail_sublist _)) | (simp; done))

theorem expireMailbox_calm (k : Nat) : Calm s (u.expireMailbox k) := by
  unfold State.expireMailbox
  exact foldl_calm h _ (fun v x hv => removeEntry_calm hv _ _) _

theorem expireAbsence_calm (k : Nat) : Calm s (u.expireAbsence k) := by
  unfold State.expireAbsence
  (try dsimp only) <;> (repeat' split) <;> (try dsimp only) <;> repeat' (first | with_reducible exact h | with_reducible assumption | with_reducible apply emptySlot_calm | (intro _; exact Nat.le_refl _) | (intro _; exact Nat.zero_le _) | (intro _; simp; done) | rfl | (intro hb; exact hb) | (refine lampBounded ?_ ?_ <;> (first | exact List.Sublist.refl _ | exact List.nil_sublist _ | exact List.Sublist.map _ List.filter_sublist | exact List.filter_sublist | exact List.tail_sublist _)) | (refine linkBounded ?_ ?_ <;> (first | exact List.Sublist.refl _ | exact List.nil_sublist _ | exact List.Sublist.map _ List.filter_sublist | exact List.filter_sublist | exact List.tail_sublist _)) | (refine delivBounded ?_ ?_ <;> (first | exact List.Sublist.refl _ | exact List.nil_sublist _ | exact List.Sublist.map _ List.filter_sublist | exact List.filter_sublist | exact List.tail_sublist _)) | (simp; done))

theorem visit_calm (k : Nat) : Calm s (u.visit k) := by
  unfold State.visit
  (try dsimp only) <;> (repeat' split) <;> (try dsimp only) <;> repeat' (first | with_reducible exact h | with_reducible assumption | with_reducible apply stampMailbox_calm | with_reducible apply expireMailbox_calm | with_reducible apply expireAbsence_calm | (intro _; exact Nat.le_refl _) | (intro _; exact Nat.zero_le _) | (intro _; simp; done) | rfl | (intro hb; exact hb) | (refine lampBounded ?_ ?_ <;> (first | exact List.Sublist.refl _ | exact List.nil_sublist _ | exact List.Sublist.map _ List.filter_sublist | exact List.filter_sublist | exact List.tail_sublist _)) | (refine linkBounded ?_ ?_ <;> (first | exact List.Sublist.refl _ | exact List.nil_sublist _ | exact List.Sublist.map _ List.filter_sublist | exact List.filter_sublist | exact List.tail_sublist _)) | (refine delivBounded ?_ ?_ <;> (first | exact List.Sublist.refl _ | exact List.nil_sublist _ | exact List.Sublist.map _ List.filter_sublist | exact List.filter_sublist | exact List.tail_sublist _)) | (simp; done))

theorem nextVisit_calm : Calm s (u.nextVisit) := by
  unfold State.nextVisit
  (try dsimp only) <;> (repeat' split) <;> (try dsimp only) <;> repeat' (first | with_reducible exact h | with_reducible assumption | with_reducible apply onHouse_calm | (intro _; exact Nat.le_refl _) | (intro _; exact Nat.zero_le _) | (intro _; simp; done) | rfl | (intro hb; exact hb) | (refine lampBounded ?_ ?_ <;> (first | exact List.Sublist.refl _ | exact List.nil_sublist _ | exact List.Sublist.map _ List.filter_sublist | exact List.filter_sublist | exact List.tail_sublist _)) | (refine linkBounded ?_ ?_ <;> (first | exact List.Sublist.refl _ | exact List.nil_sublist _ | exact List.Sublist.map _ List.filter_sublist | exact List.filter_sublist | exact List.tail_sublist _)) | (refine delivBounded ?_ ?_ <;> (first | exact List.Sublist.refl _ | exact List.nil_sublist _ | exact List.Sublist.map _ List.filter_sublist | exact List.filter_sublist | exact List.tail_sublist _)) | (simp; done))

theorem goAfter_calm (i : Nat) (a : After) : Calm s (u.goAfter i a) := by
  cases a <;> dsimp only [State.goAfter] <;>
    first
    | with_reducible apply enterMenu_calm h
    | with_reducible apply presentNext_calm h
    | with_reducible apply goReturn_calm h

theorem releaseAll_calm (g : List (Nat × Segment)) : Calm s (u.releaseAll g) := by
  unfold State.releaseAll
  exact foldl_calm h _ (fun v x hv => releaseChannel_calm hv _ _) _

theorem dropAlarm_calm (a : Option Alarm) : Calm s (u.dropAlarm a) := by
  unfold State.dropAlarm
  split
  · exact h
  · exact setAlarms_calm h _ List.filter_sublist

end Sys2Proof.Machine
end

