-- ==== Sys2Proof/Laws/Frames.lean ====
section
/-! SUPPORT. What the shared operations leave alone: an operation of the store changes the store, the
writer's sets, the latched alarms and the ALARM records alone; one of the Lamp Unit the lamp table and the
records sent. -/

namespace Sys2Proof.Machine

variable (s : State)

/-! ### Alarms -/

/-- A latch changes the set and the records sent alone (R187). -/
theorem latch_eq (a : Alarm) :
    s.latch a = { s with alarms := (s.latch a).alarms, lineOut := (s.latch a).lineOut } := by
  unfold State.latch; split <;> rfl

/-- An evaluation of the store-low condition latches or does nothing (R22). -/
theorem evalLow_eq :
    s.evalLow = { s with alarms := s.evalLow.alarms, lineOut := s.evalLow.lineOut } := by
  unfold State.evalLow; split
  · exact latch_eq _ _
  · rfl

/-! ### The Audio Store -/

/-- Two nodes that differ at most in the store, the writer's sets, the alarms and the records sent. -/
def StoreOnly (s t : State) : Prop :=
  t = { s with store := t.store, writer := t.writer, alarms := t.alarms, lineOut := t.lineOut }

variable {s}
variable {u t : State}

theorem StoreOnly.refl : StoreOnly s s := rfl
theorem StoreOnly.trans (h : StoreOnly s u) (h' : StoreOnly u t) : StoreOnly s t := by
  unfold StoreOnly at *; rw [h']; rw [h]
theorem StoreOnly.onStore (f : Store → Store) (h : StoreOnly s u) : StoreOnly s (u.onStore f) := h.trans rfl
theorem StoreOnly.markObject (n : Nat) (h : StoreOnly s u) : StoreOnly s (u.markObject n) := h.trans rfl
theorem StoreOnly.evalLow (h : StoreOnly s u) : StoreOnly s u.evalLow :=
  h.trans (by unfold StoreOnly; rw [evalLow_eq])
theorem StoreOnly.onObj (n : Nat) (f : Obj → Obj) (h : StoreOnly s u) : StoreOnly s (u.onObj n f) := by
  unfold State.onObj; split
  · exact h
  · exact h.onStore _

theorem StoreOnly.mode (h : StoreOnly s t) : t.mode = s.mode := by rw [h]
theorem StoreOnly.cfg (h : StoreOnly s t) : t.cfg = s.cfg := by rw [h]
theorem StoreOnly.mailboxes (h : StoreOnly s t) : t.mailboxes = s.mailboxes := by rw [h]
theorem StoreOnly.chans (h : StoreOnly s t) : t.chans = s.chans := by rw [h]
theorem StoreOnly.lamp (h : StoreOnly s t) : t.lamp = s.lamp := by rw [h]
theorem StoreOnly.link (h : StoreOnly s t) : t.link = s.link := by rw [h]
theorem StoreOnly.deliv (h : StoreOnly s t) : t.deliv = s.deliv := by rw [h]
theorem StoreOnly.house (h : StoreOnly s t) : t.house = s.house := by rw [h]
theorem StoreOnly.audio (h : StoreOnly s t) : t.audio = s.audio := by rw [h]

variable (s)

theorem freeObj_only (n : Nat) : StoreOnly s (s.freeObj n) := by
  unfold State.freeObj; split
  · exact .refl
  · exact ((StoreOnly.refl.onStore _).markObject _).evalLow

/-- A drop of a reference touches the store and its page marks alone, and may latch STORE_LOW (R20, R22). -/
theorem dropRef_only (n : Nat) : StoreOnly s (s.dropRef n) := by
  unfold State.dropRef; split
  · exact .refl
  · have h : StoreOnly s ((s.onObj n fun o => { o with refs := o.refs - 1 }).markObject n) :=
      (StoreOnly.refl.onObj _ _).markObject _
    dsimp only; split
    · exact h.trans (freeObj_only _ _)
    · exact h

theorem dropRefOpt_only (o : Option Nat) : StoreOnly s (s.dropRefOpt o) := by
  cases o
  · exact .refl
  · exact dropRef_only _ _

theorem discardObj_only (n : Nat) : StoreOnly s (s.discardObj n) := by
  unfold State.discardObj; split
  · exact .refl
  · exact ((StoreOnly.refl.onStore _).markObject _).evalLow

theorem closeObj_only (n trim holders : Nat) : StoreOnly s (s.closeObj n trim holders).2 := by
  unfold State.closeObj; split
  · exact .refl
  · split
    · exact discardObj_only _ _
    · dsimp only; split
      · exact (((StoreOnly.refl.onStore _).markObject _).evalLow).trans (freeObj_only _ _)
      · exact ((StoreOnly.refl.onStore _).markObject _).evalLow

theorem addRef_only {n : Nat} (h : s.addRef n = some t) : StoreOnly s t := by
  unfold State.addRef at h; split at h
  · cases h
  · split at h
    · cases h; exact (StoreOnly.refl.onObj _ _).markObject _
    · cases h

@[simp] theorem dropRef_mode (n : Nat) : (s.dropRef n).mode = s.mode := (dropRef_only s n).mode
@[simp] theorem dropRef_cfg (n : Nat) : (s.dropRef n).cfg = s.cfg := (dropRef_only s n).cfg
@[simp] theorem dropRef_mailboxes (n : Nat) : (s.dropRef n).mailboxes = s.mailboxes :=
  (dropRef_only s n).mailboxes
@[simp] theorem dropRef_chans (n : Nat) : (s.dropRef n).chans = s.chans := (dropRef_only s n).chans
@[simp] theorem dropRef_lamp (n : Nat) : (s.dropRef n).lamp = s.lamp := (dropRef_only s n).lamp
@[simp] theorem dropRef_link (n : Nat) : (s.dropRef n).link = s.link := (dropRef_only s n).link
@[simp] theorem dropRef_deliv (n : Nat) : (s.dropRef n).deliv = s.deliv := (dropRef_only s n).deliv
@[simp] theorem dropRef_house (n : Nat) : (s.dropRef n).house = s.house := (dropRef_only s n).house
@[simp] theorem dropRefOpt_mailboxes (o : Option Nat) : (s.dropRefOpt o).mailboxes = s.mailboxes :=
  (dropRefOpt_only s o).mailboxes
@[simp] theorem dropRefOpt_chans (o : Option Nat) : (s.dropRefOpt o).chans = s.chans :=
  (dropRefOpt_only s o).chans
@[simp] theorem dropRefOpt_deliv (o : Option Nat) : (s.dropRefOpt o).deliv = s.deliv :=
  (dropRefOpt_only s o).deliv
@[simp] theorem dropRefOpt_lamp (o : Option Nat) : (s.dropRefOpt o).lamp = s.lamp :=
  (dropRefOpt_only s o).lamp
@[simp] theorem discardObj_mailboxes (n : Nat) : (s.discardObj n).mailboxes = s.mailboxes :=
  (discardObj_only s n).mailboxes
@[simp] theorem discardObj_chans (n : Nat) : (s.discardObj n).chans = s.chans :=
  (discardObj_only s n).chans
@[simp] theorem discardObj_deliv (n : Nat) : (s.discardObj n).deliv = s.deliv :=
  (discardObj_only s n).deliv

/-! ### The Lamp Unit -/

/-- Two nodes that differ at most in the Lamp Unit and the records sent. -/
def LampOnly (s t : State) : Prop := t = { s with lamp := t.lamp, lineOut := t.lineOut }

variable {s}

theorem LampOnly.refl : LampOnly s s := rfl
theorem LampOnly.trans (h : LampOnly s u) (h' : LampOnly u t) : LampOnly s t := by
  unfold LampOnly at *; rw [h']; rw [h]
theorem LampOnly.onLamp (f : LampUnit → LampUnit) (h : LampOnly s u) : LampOnly s (u.onLamp f) :=
  h.trans rfl
theorem LampOnly.onLampRec (k : Nat) (f : LampRec → LampRec) (h : LampOnly s u) :
    LampOnly s (u.onLampRec k f) := h.trans rfl

theorem LampOnly.mode (h : LampOnly s t) : t.mode = s.mode := by rw [h]
theorem LampOnly.cfg (h : LampOnly s t) : t.cfg = s.cfg := by rw [h]
theorem LampOnly.store (h : LampOnly s t) : t.store = s.store := by rw [h]
theorem LampOnly.mailboxes (h : LampOnly s t) : t.mailboxes = s.mailboxes := by rw [h]
theorem LampOnly.chans (h : LampOnly s t) : t.chans = s.chans := by rw [h]
theorem LampOnly.link (h : LampOnly s t) : t.link = s.link := by rw [h]
theorem LampOnly.deliv (h : LampOnly s t) : t.deliv = s.deliv := by rw [h]
theorem LampOnly.writer (h : LampOnly s t) : t.writer = s.writer := by rw [h]

variable (s)

theorem lampDispatch1_only : LampOnly s s.lampDispatch1 := by
  unfold State.lampDispatch1; split
  · split
    · exact .refl
    · rfl
  · exact .refl

/-- A dispatch touches the Lamp Unit and the records sent alone (R107). -/
theorem lampDispatch_only : LampOnly s s.lampDispatch :=
  (((lampDispatch1_only s).trans (lampDispatch1_only _)).trans (lampDispatch1_only _)).trans
    (lampDispatch1_only _)

theorem setScanFlag_only (k : Nat) : LampOnly s (s.setScanFlag k) := by
  unfold State.setScanFlag; dsimp only; split <;> rfl

theorem offerLamp_only (c : LampCmd) : LampOnly s (s.offerLamp c) := by
  unfold State.offerLamp State.queueLamp
  split
  · rename_i h
    split at h
    · cases h; exact ((LampOnly.refl.onLamp _).onLampRec _ _).trans (lampDispatch_only _)
    · split at h
      · cases h; exact ((LampOnly.refl.onLamp _).onLampRec _ _).trans (lampDispatch_only _)
      · cases h
  · exact setScanFlag_only _ _

/-- A telling touches the Lamp Unit and the records sent alone (R104). -/
theorem tellLamp_only (k : Nat) : LampOnly s (s.tellLamp k) := by
  unfold State.tellLamp; split
  · exact .refl
  · split
    · exact .refl
    · exact (LampOnly.refl.onLampRec _ _).trans (offerLamp_only _ _)

/-! ### A dispatch of the Lamp Unit (R107) -/

/-- A turn of a dispatch that changes nothing, or sends one command more. -/
theorem lampDispatch1_cases :
    s.lampDispatch1 = s ∨ (s.lamp.outstanding.length < 4 ∧
      s.lampDispatch1.lamp.outstanding.length = s.lamp.outstanding.length + 1) := by
  unfold State.lampDispatch1
  split
  · rename_i h
    simp only [Bool.and_eq_true, decide_eq_true_eq] at h
    split
    · exact .inl rfl
    · exact .inr ⟨h.2, by simp⟩
  · exact .inl rfl

/-- With 4 commands outstanding a turn changes nothing. -/
theorem lampDispatch1_full (h : 4 ≤ s.lamp.outstanding.length) : s.lampDispatch1 = s := by
  rcases lampDispatch1_cases s with e | e
  · exact e
  · omega

/-- A dispatch ends with 4 commands outstanding or none eligible: another turn changes nothing. -/
theorem lampDispatch_again : s.lampDispatch.lampDispatch1 = s.lampDispatch := by
  have step : ∀ v : State, v.lampDispatch1.lampDispatch1 = v.lampDispatch1 ∨
      v.lampDispatch1.lamp.outstanding.length = v.lamp.outstanding.length + 1 := fun v => by
    rcases lampDispatch1_cases v with e | e
    · left; rw [e, e]
    · exact .inr e.2
  unfold State.lampDispatch
  rcases step s with e | h1
  · simp only [e]
  rcases step s.lampDispatch1 with e | h2
  · simp only [e]
  rcases step s.lampDispatch1.lampDispatch1 with e | h3
  · simp only [e]
  rcases step s.lampDispatch1.lampDispatch1.lampDispatch1 with e | h4
  · exact e
  · exact lampDispatch1_full _ (by omega)

/-- A dispatch is its first turn and then a dispatch. -/
theorem lampDispatch_turn : s.lampDispatch = s.lampDispatch1.lampDispatch := by
  show s.lampDispatch = s.lampDispatch.lampDispatch1
  exact (lampDispatch_again s).symm

/-- A dispatch after a dispatch changes nothing. -/
theorem lampDispatch_twice : s.lampDispatch.lampDispatch = s.lampDispatch := by
  show s.lampDispatch.lampDispatch1.lampDispatch1.lampDispatch1.lampDispatch1 = _
  simp only [lampDispatch_again]

end Sys2Proof.Machine
end

