-- ==== Sys2Proof/Laws/Medium.lean ====
section
/-! SUPPORT. Frames on the medium bit by bit (12.1): how long a frame is, and that a whole frame is read
back with its response slot as it was sent. -/

namespace Sys2Proof

/-! ### Numbers and bytes in bits -/

@[simp] theorem beBits_length (k n : Nat) : (beBits k n).length = k := by
  induction k with
  | zero => rfl
  | succ k ih => simp [beBits, ih]

@[simp] theorem bytesBits_length (bs : List Byte) : (bytesBits bs).length = 8 * bs.length := by
  induction bs with
  | nil => rfl
  | cons b bs ih =>
    simp only [bytesBits, List.flatMap_cons, List.length_append, beBits_length, List.length_cons] at ih ⊢
    omega

theorem foldl_beBits (k n a : Nat) :
    (beBits k n).foldl (fun m b => 2 * m + b.toNat) a = a * 2 ^ k + n % 2 ^ k := by
  induction k generalizing a with
  | zero => simp [beBits, Nat.mod_one]
  | succ k ih =>
    simp only [beBits, List.foldl_cons, ih, Nat.pow_succ, Nat.mod_mul, Nat.toNat_testBit]
    generalize n / 2 ^ k % 2 = q
    ring

/-- A number that fits is read back from its bits. -/
theorem bitsNat_beBits {k n : Nat} (h : n < 2 ^ k) : bitsNat (beBits k n) = n := by
  simp [bitsNat, foldl_beBits, Nat.mod_eq_of_lt h]

/-- A field is read back from its bits. -/
theorem ofNat_bitsNat_beBits {w : Nat} (b : BitVec w) :
    BitVec.ofNat w (bitsNat (beBits w b.toNat)) = b := by
  rw [bitsNat_beBits b.isLt, BitVec.ofNat_toNat, BitVec.setWidth_eq]

/-- Bytes are read back from their bits, whatever follows them. -/
theorem bitsBytes_bytesBits (bs : List Byte) (rest : List Bool) :
    bitsBytes bs.length (bytesBits bs ++ rest) = bs := by
  induction bs with
  | nil => rfl
  | cons b bs ih =>
    have e : bytesBits (b :: bs) ++ rest = beBits 8 b.toNat ++ (bytesBits bs ++ rest) := by
      simp [bytesBits]
    rw [e, List.length_cons, bitsBytes, List.take_left' (beBits_length 8 _),
      List.drop_left' (beBits_length 8 _), ih, ofNat_bitsNat_beBits]

/-! ### The response slot -/

@[simp] theorem slotReading_code (x : SlotReading) : slotReading x.code = x := by
  cases x <;> rfl

@[simp] theorem code_slotReading (b : BitVec 2) : (slotReading b).code = b := by
  revert b; decide

/-! ### Whole frames -/

/-- From priority to payload a frame of n payload bytes has 33 + 8n bits (12.1). -/
theorem RawFrame.crcBits_length (f : RawFrame) : f.crcBits.length = 33 + 8 * f.payload.length := by
  simp [RawFrame.crcBits]
  omega

/-- From its start to the end of its slot a frame of n payload bytes has 52 + 8n bits (12.1). -/
theorem mediumBits_length (f : RawFrame) (slot : SlotReading) :
    (mediumBits f slot).length = 52 + 8 * f.payload.length + 11 := by
  simp [mediumBits, endBits, RawFrame.crcBits_length]
  omega

/-- A part of known length at a place of a list: it is what is read there, and the rest follows it. -/
theorem part_at {α : Type} {bs a c : List α} {off k : Nat} (h : bs.drop off = a ++ c)
    (hk : a.length = k) : (bs.drop off).take k = a ∧ bs.drop (off + k) = c :=
  ⟨by rw [h, List.take_left' hk], by rw [← List.drop_drop, h, List.drop_left' hk]⟩

/-- A whole frame is read back from the medium with its response slot, if its length byte can count its
payload (12.1). -/
theorem readMedium_mediumBits (f : RawFrame) (slot : SlotReading) (h : f.payload.length < 256) :
    readMedium f.magnitude (mediumBits f slot) = some (f, slot) := by
  have hl := mediumBits_length f slot
  have hd : (mediumBits f slot).head? = some startBit := rfl
  have e : (mediumBits f slot).drop 1 = beBits 3 f.priority.toNat ++ (beBits 5 f.source.toNat ++
      (beBits 5 f.dest.toNat ++ (beBits 4 f.kind.toNat ++ (beBits 8 f.tag.toNat ++
      (beBits 8 f.payload.length ++ (bytesBits f.payload ++ (beBits 16 f.crc.toNat ++
      (beBits 2 slot.code.toNat ++ endBits)))))))) := by
    simp [mediumBits, RawFrame.crcBits]
  generalize mediumBits f slot = bs at *
  obtain ⟨f1, e⟩ := part_at e (beBits_length _ _)
  obtain ⟨f2, e⟩ := part_at e (beBits_length _ _)
  obtain ⟨f3, e⟩ := part_at e (beBits_length _ _)
  obtain ⟨f4, e⟩ := part_at e (beBits_length _ _)
  obtain ⟨f5, e⟩ := part_at e (beBits_length _ _)
  obtain ⟨f6, e⟩ := part_at e (beBits_length _ _)
  have hb := congrArg (bitsBytes f.payload.length) e
  rw [bitsBytes_bytesBits] at hb
  obtain ⟨-, e⟩ := part_at e (bytesBits_length _)
  obtain ⟨f8, e⟩ := part_at e (beBits_length _ _)
  rw [show 1 + 3 + 5 + 5 + 4 + 8 + 8 + 8 * f.payload.length + 16 = 50 + 8 * f.payload.length by omega]
    at e
  obtain ⟨f9, e⟩ := part_at e (beBits_length _ _)
  rw [show 50 + 8 * f.payload.length + 2 = 34 + 8 * f.payload.length + 18 by omega] at e
  have hn : bitsNat (beBits 8 f.payload.length) = f.payload.length := bitsNat_beBits h
  norm_num at f2 f3 f4 f5 f6 f8 hb
  simp only [readMedium, f1, f2, f3, f4, f5, f6, hn, f8, f9, e, hd, hb, ofNat_bitsNat_beBits,
    slotReading_code]
  rw [if_pos]
  simp [endBits, hl]
  omega

end Sys2Proof
end

