-- ==== Sys2Proof/Laws/Outcomes.lean ====
section
/-! SUPPORT. What the end of an act does, and what every command that is no part of a start can answer. -/

namespace Sys2Proof.Machine

/-! ### The end of an act -/

theorem updateLines_calm {s u : State} (h : Calm s u) : Calm s u.updateLines := setLines_calm h _

/-- The node as STOPPED is entered (R175): the mode changes, and nothing else of the still part. -/
theorem enterStopped_still (s : State) : s.enterStopped.still = { s.still with mode := .stopped } := by
  simp [State.still, State.enterStopped]

theorem enterStopped_sound {s : State} (h : s.StoreSound) : s.enterStopped.StoreSound :=
  @StoreSound.congr s _ rfl rfl rfl rfl h

/-- The end of an act leaves the still part alone, or passes from DRAINING to STOPPED. -/
theorem settle_cases (s : State) :
    Calm s s.settle ∨ (s.mode = .draining ∧ s.beginWrite.drained = true ∧
      Calm s.beginWrite.enterStopped s.settle) := by
  have hb : Calm s s.beginWrite := beginWrite_calm (Calm.refl s)
  have hm : s.beginWrite.mode = s.mode := congrArg Still.mode hb.still
  unfold State.settle State.drainCheck
  split
  · rename_i hd
    simp only [Bool.and_eq_true, decide_eq_true_eq] at hd
    exact .inr ⟨hm ▸ hd.1, hd.2, updateLines_calm (nextMoment_calm (Calm.refl _))⟩
  · exact .inl (updateLines_calm (nextMoment_calm hb))

/-- The still part after an act. -/
theorem settle_still (s : State) :
    s.settle.still = s.still ∨
      (s.mode = .draining ∧ s.settle.still = { s.still with mode := .stopped }) := by
  rcases settle_cases s with h | ⟨hm, _, h⟩
  · exact .inl h.still
  · refine .inr ⟨hm, ?_⟩
    rw [h.still, enterStopped_still, (beginWrite_calm (Calm.refl s)).still]

/-- The end of an act keeps the store's laws. -/
theorem settle_sound {s : State} (h : s.StoreSound) : s.settle.StoreSound := by
  rcases settle_cases s with c | ⟨_, _, c⟩
  · exact c.sound h
  · exact c.sound (enterStopped_sound ((beginWrite_calm (Calm.refl s)).sound h))

/-- The end of an act keeps the sizes of the queues. -/
theorem settle_bounded {s : State} (h : s.Bounded) : s.settle.Bounded := by
  rcases settle_cases s with c | ⟨_, _, c⟩
  · exact c.bounds h
  · refine c.bounds ?_
    have b := (beginWrite_calm (Calm.refl s)).bounds h
    exact ⟨b.keys, b.lamp, ⟨List.nodup_nil, Nat.zero_le _⟩, ⟨Nat.zero_le _, b.deliv.2⟩, b.alarms⟩

theorem countDiscard_still (s : State) :
    s.countDiscard.still = { s.still with discarded := s.countDiscard.discarded } := rfl

theorem countDiscard_sound {s : State} (h : s.StoreSound) : s.countDiscard.StoreSound :=
  @StoreSound.congr s _ rfl rfl rfl rfl h

/-! ### Commands that are no part of a start -/

/-- The node a quiet command leaves: as it was, with one more discard counted, or a settled act. -/
inductive Quiet (s : State) : Host.Outcome State Fault Refusal → Prop where
  | same : Quiet s (.next s)
  | counted : Quiet s (.next s.countDiscard)
  | acted {u : State} (h : Calm s u) : Quiet s (.next u.settle)

theorem quiet_act {s u : State} (h : Calm s u) : Quiet s (act u) := .acted h
theorem quiet_discard (s : State) : Quiet s (discard s) := .same
theorem quiet_count (s : State) : Quiet s (discard s.countDiscard) := .counted
theorem quiet_chanAct {s u : State} (h : Calm s u) (i : Nat) : Quiet s (chanAct u i) :=
  .acted (takeDigits_calm h i)
theorem quiet_refuse (s : State) (i : Nat) (r : RefuseReason) : Quiet s (refuseCall s i r) :=
  .acted (send_calm (Calm.refl s) _)

theorem quiet_handed (s : State) (take : State → Frame → Option State)
    (ht : ∀ f t, take s.popBuffer f = some t → Calm s.popBuffer t) : Quiet s (handed s take) := by
  unfold handed
  split
  · exact .same
  · split
    · exact .acted ((popBuffer_calm (Calm.refl s)).trans (ht _ _ (by assumption)))
    · exact .same

/-- The commands of a start, of a page write, of SHUTDOWN and RESUME, and RECORD_DISCARDED, which may
bring one of those records. -/
def startCommand : Instr → Bool
  | .resetPin => true
  | .configReadDone _ => true
  | .headerReadDone => true
  | .wipePageWriteDone => true
  | .headerWriteDone => true
  | .rebuildDone => true
  | .pageWriteDone => true
  | .shutdown => true
  | .resume => true
  | .recordDiscarded _ => true
  | _ => false

theorem execCall_quiet (ch ext : Nat) (r : CallReason) (n : Bool) (ids : List Nat) (s : State) :
    Quiet s (execCall ch ext r n ids s) := by
  unfold execCall
  split
  · exact quiet_count s
  · split
    · exact quiet_refuse s _ _
    · split
      · exact quiet_refuse s _ _
      · split
        · exact quiet_refuse s _ _
        · exact quiet_refuse s _ _
        · exact quiet_act (notInService_calm (Calm.refl s) _)
        · exact quiet_chanAct (openDeposit_calm (Calm.refl s) _ _ _ _ _) _

theorem execRetrieve_quiet (ch ext : Nat) (s : State) : Quiet s (execRetrieve ch ext s) := by
  unfold execRetrieve
  split
  · exact quiet_count s
  · split
    · exact quiet_refuse s _ _
    · split
      · exact quiet_refuse s _ _
      · split
        · exact quiet_refuse s _ _
        · exact quiet_refuse s _ _
        · exact quiet_act (notInService_calm (Calm.refl s) _)
        · exact quiet_chanAct (openRetrieval_calm (Calm.refl s) _ _) _

/-- A digit joins the type-ahead of a channel, which holds at most 8 (R67). -/
theorem joinKey_calm (s : State) (i : Nat) (key : Key) :
    Calm s (s.onCh i fun c => { c with
      typeAhead := if c.typeAhead.length < Config.typeAheadMax then c.typeAhead ++ [key]
        else c.typeAhead }) := by
  refine (Calm.refl s).leaf (by simp [State.still, State.onCh]) rfl rfl fun b => ?_
  refine ⟨fun c hc => ?_, b.lamp, b.link, b.deliv, b.alarms⟩
  rcases mem_modify hc with hc | ⟨y, hy, rfl⟩
  · exact b.keys c hc
  · have := b.keys y (List.mem_of_getElem? hy)
    dsimp only
    split
    · simp only [List.length_append, List.length_singleton]; omega
    · exact this

theorem execDigit_quiet (ch : Nat) (key : Key) (s : State) : Quiet s (execDigit ch key s) := by
  unfold execDigit
  split
  · exact quiet_count s
  · split
    · exact quiet_discard s
    · exact quiet_chanAct (joinKey_calm s _ _) _

theorem execRelease_quiet (ch : Nat) (g : Option Segment) (s : State) :
    Quiet s (execRelease ch g s) := by
  unfold execRelease
  split
  · exact quiet_count s
  · split
    · exact quiet_discard s
    · exact quiet_act (releaseChannel_calm (Calm.refl s) _ _)

theorem execTime_quiet (day minute : Nat) (s : State) : Quiet s (execTime day minute s) := by
  unfold execTime
  split
  · exact quiet_count s
  · split
    · exact quiet_discard s
    · exact quiet_act (checkPass_calm (endWait_calm (setClock_calm (Calm.refl s) _ _) _))

theorem execLampResult_quiet (ext : Nat) (r : LampResult) (s : State) :
    Quiet s (execLampResult ext r s) := by
  unfold execLampResult
  split
  · exact quiet_count s
  · split
    · exact quiet_act (lampResult_calm (Calm.refl s) _ _)
    · exact quiet_discard s

theorem execLineReset_quiet (g : List (Nat × Segment)) (s : State) : Quiet s (execLineReset g s) := by
  unfold execLineReset
  split
  · exact quiet_discard s
  · split
    · exact quiet_act (releaseAll_calm (lampLineReset_calm (Calm.refl s)) _)
    · exact quiet_act (lampLineReset_calm (Calm.refl s))

theorem execStatusQuery_quiet (s : State) : Quiet s (execStatusQuery s) :=
  quiet_act (dropAlarm_calm (send_calm (Calm.refl s) _) _)

/-- Every other command is quiet. -/
theorem exec_quiet (c : Instr) (s : State) (hc : startCommand c = false) : Quiet s (exec c s) := by
  have h : Calm s s := Calm.refl s
  cases c with
  | resetPin => cases hc
  | configReadDone _ => cases hc
  | headerReadDone => cases hc
  | wipePageWriteDone => cases hc
  | headerWriteDone => cases hc
  | rebuildDone => cases hc
  | pageWriteDone => cases hc
  | shutdown => cases hc
  | resume => cases hc
  | recordDiscarded _ => cases hc
  | call ch ext r n ids => exact execCall_quiet ch ext r n ids s
  | retrieve ch ext => exact execRetrieve_quiet ch ext s
  | digit ch key => exact execDigit_quiet ch key s
  | release ch g => exact execRelease_quiet ch g s
  | time day minute => exact execTime_quiet day minute s
  | lampResult ext r => exact execLampResult_quiet ext r s
  | lineReset g => exact execLineReset_quiet g s
  | statusQuery => exact execStatusQuery_quiet s
  | sessionTimerExpiry ch g =>
    simp only [exec, execSessionTimerExpiry]
    split
    · exact quiet_act (sessionLimit_calm (by refine onCh_calm h _ _ ?_; intro _; exact Nat.le_refl _) _ _)
    · exact quiet_discard s
  | clearingTimerExpiry ch =>
    simp only [exec, execClearingTimerExpiry]
    split
    · exact quiet_act (toIdle_calm h _)
    · exact quiet_discard s
  | digitTimerExpiry ch =>
    simp only [exec, execDigitTimerExpiry]
    split
    · exact quiet_chanAct (menuTimeout_calm (by refine onCh_calm h _ _ ?_; intro _; exact Nat.le_refl _) _) _
    · exact quiet_discard s
  | interDigitTimerExpiry ch =>
    simp only [exec, execInterDigitTimerExpiry]
    split
    · split
      · exact quiet_chanAct (addressEnd_calm (stopInterDigit_calm h _) _) _
      · exact quiet_chanAct (listEnd_calm (stopInterDigit_calm h _) _) _
      · exact quiet_discard s
    · exact quiet_discard s
  | segmentCaptured ch seg =>
    simp only [exec, execSegmentCaptured]
    split
    · exact quiet_discard s
    · split
      · exact quiet_chanAct (depositSegment_calm h _ _) _
      · exact quiet_chanAct (sendSegment_calm h _ _) _
      · exact quiet_chanAct (greetSegment_calm h _ _) _
      · exact quiet_discard s
  | greetingEnd ch =>
    simp only [exec, execGreetingEnd]
    split
    · exact quiet_chanAct (greetingEnded_calm h _) _
    · exact quiet_discard s
  | toneEnd ch =>
    simp only [exec, execToneEnd]
    split
    · exact quiet_chanAct (beginCapture_calm h _ _) _
    · exact quiet_chanAct (beginCapture_calm h _ _) _
    · exact quiet_chanAct (beginCapture_calm h _ _) _
    · exact quiet_discard s
  | menuPromptEnd ch =>
    simp only [exec, execMenuPromptEnd]
    split
    · exact quiet_act (by refine onCh_calm h _ _ ?_; intro _; exact Nat.le_refl _)
    · exact quiet_discard s
  | promptEnd ch =>
    simp only [exec, execPromptEnd]
    split
    · exact quiet_chanAct (playTone_calm h _ _) _
    · exact quiet_chanAct (playTone_calm h _ _) _
    · exact quiet_chanAct (goAfter_calm h _ _) _
    · split
      · exact quiet_act (by refine onCh_calm h _ _ ?_; intro _; exact Nat.le_refl _)
      · split
        · exact quiet_chanAct (presentNext_calm h _) _
        · exact quiet_discard s
  | recordPromptEnd ch =>
    simp only [exec, execRecordPromptEnd]
    split
    · exact quiet_chanAct (admitTone_calm h _) _
    · exact quiet_discard s
  | timeIsUpPromptEnd ch =>
    simp only [exec, execTimeIsUpPromptEnd]
    split
    · exact quiet_chanAct (enterMenu_calm h _ _) _
    · exact quiet_chanAct (enterMenu_calm h _ _) _
    · exact quiet_chanAct (startReview_calm h _) _
    · exact quiet_discard s
  | finalPromptEnd ch =>
    simp only [exec, execFinalPromptEnd]
    split
    · exact quiet_act (toClearing_calm h _)
    · exact quiet_discard s
  | summaryEnd ch =>
    simp only [exec, execSummaryEnd]
    split
    · exact quiet_chanAct (enterMenu_calm h _ _) _
    · exact quiet_discard s
  | playbackEnd ch =>
    simp only [exec, execPlaybackEnd]
    split
    · exact quiet_chanAct (presentNext_calm h _) _
    split
    · exact quiet_chanAct (enterMenu_calm (endPlayback_calm h _ _) _ _) _
    · exact quiet_discard s
  | reviewPlaybackEnd ch =>
    simp only [exec, execReviewPlaybackEnd]
    split
    · exact quiet_chanAct (playMenu_calm h _) _
    · exact quiet_discard s
  | slotPlaybackEnd ch =>
    simp only [exec, execSlotPlaybackEnd]
    split
    · exact quiet_chanAct (enterMenu_calm (dropPlaying_calm h _) _ _) _
    · exact quiet_discard s
  | lampResultTimeout ext =>
    simp only [exec, execLampResultTimeout]
    split
    · exact quiet_act (lampTimeout_calm h _)
    · exact quiet_discard s
  | scanStepTimerExpiry =>
    simp only [exec, execScanStepTimerExpiry]
    split
    · exact quiet_act (scanStep_calm h)
    · exact quiet_discard s
  | hailTimerExpiry =>
    simp only [exec, execHailTimerExpiry]
    split
    · exact quiet_act (hailDue_calm h)
    · exact quiet_discard s
  | aloneTimerExpiry =>
    simp only [exec, execAloneTimerExpiry]
    split
    · exact quiet_act (aloneDue_calm h)
    · exact quiet_discard s
  | joinTimerExpiry =>
    simp only [exec, execJoinTimerExpiry]
    split
    · exact quiet_act (enterActive_calm h)
    · exact quiet_discard s
  | presenceTimeout node =>
    simp only [exec, execPresenceTimeout]
    split
    · exact quiet_act (markAbsent_calm h _)
    · exact quiet_discard s
  | mediumIdle =>
    simp only [exec, execMediumIdle]
    split
    · split
      · exact quiet_act (beginFrame_calm h _)
      · exact quiet_discard s
    · exact quiet_discard s
  | arbitrationLost =>
    simp only [exec, execArbitrationLost]
    split
    · exact quiet_act (stopDriving_calm h)
    · exact quiet_discard s
  | bitError =>
    simp only [exec, execBitError]
    split
    · exact quiet_act (bitErrorSeen_calm h)
    · exact quiet_discard s
  | transmissionEnd reading =>
    simp only [exec, execTransmissionEnd]
    split
    · exact quiet_act (sentWell_calm h _ _)
    · exact quiet_discard s
  | busyWaitExpiry r =>
    simp only [exec, execBusyWaitExpiry]
    split
    · split
      · exact quiet_act (by refine onItem_calm h _ _ ?_; intro _; rfl)
      · exact quiet_discard s
    · exact quiet_discard s
  | frameReceived f =>
    simp only [exec, execFrameReceived]
    split
    · exact quiet_act (hear_calm h _)
    · exact quiet_discard s
  | mediumDominantFault =>
    simp only [exec, execMediumDominantFault]
    split
    · exact quiet_act (enterFaulted_calm h)
    · exact quiet_discard s
  | mediumRecessiveRecovery =>
    simp only [exec, execMediumRecessiveRecovery]
    split
    · exact quiet_act (enterJoining_calm h)
    · exact quiet_discard s
  | hailHanded =>
    simp only [exec, execHailHanded]
    refine quiet_handed s _ fun f t e => ?_
    split at e <;> cases e
    exact takeHail_calm (Calm.refl _) _ _
  | seekHanded =>
    simp only [exec, execSeekHanded]
    refine quiet_handed s _ fun f t e => ?_
    split at e <;> cases e
    exact seekIn_calm (Calm.refl _) _ _ _ _
  | claimHanded =>
    simp only [exec, execClaimHanded]
    refine quiet_handed s _ fun f t e => ?_
    split at e <;> cases e
    exact claimIn_calm (Calm.refl _) _ _ _
  | offerHanded =>
    simp only [exec, execOfferHanded]
    refine quiet_handed s _ fun f t e => ?_
    split at e <;> cases e
    exact offerIn_calm (Calm.refl _) _ _ _
  | carryHanded =>
    simp only [exec, execCarryHanded]
    refine quiet_handed s _ fun f t e => ?_
    split at e <;> cases e
    exact carryIn_calm (Calm.refl _) _ _ _ _
  | closeHanded =>
    simp only [exec, execCloseHanded]
    refine quiet_handed s _ fun f t e => ?_
    split at e <;> cases e
    exact closeIn_calm (Calm.refl _) _ _ _
  | takeHanded =>
    simp only [exec, execTakeHanded]
    refine quiet_handed s _ fun f t e => ?_
    split at e <;> cases e
    exact takeIn_calm (Calm.refl _) _ _
  | balkHanded =>
    simp only [exec, execBalkHanded]
    refine quiet_handed s _ fun f t e => ?_
    split at e <;> cases e
    exact balkIn_calm (Calm.refl _) _ _ _
  | receiptHanded =>
    simp only [exec, execReceiptHanded]
    refine quiet_handed s _ fun f t e => ?_
    split at e <;> cases e
    exact receiptIn_calm (Calm.refl _) _ _ _
  | claimTimerExpiry i =>
    simp only [exec, execClaimTimerExpiry]
    split
    · exact quiet_act (claimTimeout_calm h _)
    · exact quiet_discard s
  | answerTimerExpiry i =>
    simp only [exec, execAnswerTimerExpiry]
    split
    · exact quiet_act (answerTimeout_calm h _)
    · exact quiet_discard s
  | receiptTimerExpiry i =>
    simp only [exec, execReceiptTimerExpiry]
    split
    · exact quiet_act (receiptTimeout_calm h _)
    · exact quiet_discard s
  | idleTimerExpiry i =>
    simp only [exec, execIdleTimerExpiry]
    split
    · exact quiet_act (giveUpIn_calm h _)
    · exact quiet_discard s
  | lingerTimerExpiry i =>
    simp only [exec, execLingerTimerExpiry]
    split
    · exact quiet_act (onIn_calm h _ _)
    · exact quiet_discard s
  | notBeforeReached pos =>
    simp only [exec, execNotBeforeReached]
    split
    · exact quiet_act (dispatch_calm (onQ_calm h _ _))
    · exact quiet_discard s
  | minuteTimerExpiry =>
    simp only [exec, execMinuteTimerExpiry]
    split
    · split
      · exact quiet_act (advanceClock_calm h _ _)
      · exact quiet_act (checkPass_calm (advanceClock_calm h _ _))
    · exact quiet_discard s
  | postponementTimerExpiry =>
    simp only [exec, execPostponementTimerExpiry]
    split
    · exact quiet_act (attempt_calm (onHouse_calm h _))
    · exact quiet_discard s
  | passVisit =>
    simp only [exec, execPassVisit]
    split
    · exact quiet_act (nextVisit_calm (visit_calm h _))
    · exact quiet_discard s

end Sys2Proof.Machine
end

