-- ==== Sys2Proof/Laws/Reads.lean ====
section
/-! SUPPORT. What is read after one part of the node has been changed: channels, mailboxes, objects and
slots; and what the end of an act leaves of a node that is not draining. -/

namespace Sys2Proof.Machine

variable (s : State)

/-! ### Channels -/

theorem State.ch_onCh_same {i : Nat} (f : Channel → Channel) (h : i < s.chans.length) :
    (s.onCh i f).ch i = f (s.ch i) := by
  simp [State.ch, State.onCh, h]

theorem State.ch_onCh_ne {i j : Nat} (f : Channel → Channel) (h : j ≠ i) :
    (s.onCh i f).ch j = s.ch j := by
  have : ¬ i = j := fun e => h e.symm
  simp [State.ch, State.onCh, this]

/-- A channel that is not idle is one of the node's channels. -/
theorem State.ch_lt {i : Nat} (h : s.ch i ≠ Channel.idle) : i < s.chans.length := by
  refine Nat.lt_of_not_le fun hl => h ?_
  simp [State.ch, List.getElem?_eq_none hl]

theorem State.ch_lt_of_state {i : Nat} (h : (s.ch i).state ≠ .idle) : i < s.chans.length :=
  s.ch_lt fun e => h (e ▸ rfl)

theorem modify_modify {α : Type} (l : List α) (i : Nat) (f g : α → α) :
    (l.modify i f).modify i g = l.modify i (fun x => g (f x)) := by
  refine List.ext_getElem? fun j => ?_
  rw [List.getElem?_modify, List.getElem?_modify, List.getElem?_modify]
  cases l[j]? <;> simp
  split <;> rfl

theorem modify_congr {α : Type} {l : List α} {i : Nat} {f g : α → α}
    (h : ∀ x, l[i]? = some x → f x = g x) : l.modify i f = l.modify i g := by
  refine List.ext_getElem? fun j => ?_
  rw [List.getElem?_modify, List.getElem?_modify]
  split
  · rename_i e
    subst e
    cases hx : l[i]? with
    | none => rfl
    | some x => simp [h x hx]
  · rfl

theorem State.onCh_onCh (i : Nat) (f g : Channel → Channel) :
    (s.onCh i f).onCh i g = s.onCh i (fun c => g (f c)) := by
  simp only [State.onCh, State.onChans, modify_modify]

/-- Two changes of a channel that agree on the channel as it stands are the same change. -/
theorem State.onCh_congr {i : Nat} {f g : Channel → Channel} (h : f (s.ch i) = g (s.ch i)) :
    s.onCh i f = s.onCh i g := by
  have e : s.chans.modify i f = s.chans.modify i g := modify_congr fun x hx => by
    have : s.ch i = x := by simp [State.ch, hx]
    rwa [this] at h
  simp only [State.onCh, State.onChans, e]

/-- A change that leaves the channel as it stands is none. -/
theorem State.onCh_self {i : Nat} {f : Channel → Channel} (h : f (s.ch i) = s.ch i) :
    s.onCh i f = s := by
  rw [s.onCh_congr (g := id) h]
  simp [State.onCh, State.onChans, List.modify_id]

/-- No digit is taken while none waits (R67). -/
theorem State.takeDigits_nil {i : Nat} (h : (s.ch i).typeAhead = []) : s.takeDigits i = s := by
  simp [State.takeDigits, h, State.takeDigitsFuel]

/-- A state that takes no digits leaves them waiting (R67). -/
theorem State.takeDigits_still {i : Nat} (h : (s.ch i).state.takesDigits = false) :
    s.takeDigits i = s := by
  unfold State.takeDigits
  cases (s.ch i).typeAhead.length with
  | zero => rfl
  | succ n => simp [State.takeDigitsFuel, h]

/-- One digit waits, in a state that takes digits, and its key leaves none waiting (R67). -/
theorem State.takeDigits_one {i : Nat} {key : Key} (h : (s.ch i).typeAhead = [key])
    (hs : (s.ch i).state.takesDigits = true) :
    s.takeDigits i = (s.onCh i fun c => { c with typeAhead := [] }).onKey i key := by
  simp [State.takeDigits, h, State.takeDigitsFuel, hs]

/-! ### The voice highway (R183) -/

/-- Slot `i` of the highway carries what channel `i` plays. -/
theorem State.highway_slot {i : Nat} (h : i < 16) : s.highway[i]? = some (s.slotAudio i) := by
  simp [State.highway, Config.channels, h]

/-- The audio of an object of the table, segment by segment. -/
theorem State.objectAudio_of {n : Nat} {o : Obj} (h : s.obj? n = some o) :
    s.objectAudio n = (List.range o.segments).map (s.segmentOf o) := by
  simp [State.objectAudio, h]

/-! ### Mailboxes -/

theorem State.mb_onMb_same {k : Nat} (f : Mailbox → Mailbox) (h : k < s.mailboxes.length) :
    (s.onMb k f).mb k = f (s.mb k) := by
  simp [State.mb, State.onMb, h]

theorem State.mb_onMb_ne {i k : Nat} (f : Mailbox → Mailbox) (h : i ≠ k) :
    (s.onMb k f).mb i = s.mb i := by
  have : ¬ k = i := fun e => h e.symm
  simp [State.mb, State.onMb, this]

theorem State.onMb_onMb (k : Nat) (f g : Mailbox → Mailbox) :
    (s.onMb k f).onMb k g = s.onMb k (fun m => g (f m)) := by
  simp only [State.onMb, State.onMailboxes, modify_modify]

/-! ### The slots -/

theorem State.outSlot_onOut_same {i : Nat} (f : OutSlot → OutSlot)
    (h : i < s.deliv.outSlots.length) : (s.onOut i f).outSlot i = f (s.outSlot i) := by
  simp [State.outSlot, State.onOut, h]

theorem State.inSlot_onIn_same {j : Nat} (f : InSlot → InSlot) (h : j < s.deliv.inSlots.length) :
    (s.onIn j f).inSlot j = f (s.inSlot j) := by
  simp [State.inSlot, State.onIn, h]

/-! ### The end of an act -/

/-- Beginning a write changes the writer alone. -/
theorem beginWrite_eq : s.beginWrite = { s with writer := s.beginWrite.writer } := by
  unfold State.beginWrite
  split
  · split <;> rfl
  · rfl

@[simp] theorem beginWrite_mode : s.beginWrite.mode = s.mode := by rw [beginWrite_eq]
@[simp] theorem beginWrite_startStep : s.beginWrite.startStep = s.startStep := by rw [beginWrite_eq]
@[simp] theorem beginWrite_cfg : s.beginWrite.cfg = s.cfg := by rw [beginWrite_eq]
@[simp] theorem beginWrite_configured : s.beginWrite.configured = s.configured := by rw [beginWrite_eq]
@[simp] theorem beginWrite_generation : s.beginWrite.generation = s.generation := by rw [beginWrite_eq]
@[simp] theorem beginWrite_store : s.beginWrite.store = s.store := by rw [beginWrite_eq]
@[simp] theorem beginWrite_mailboxes : s.beginWrite.mailboxes = s.mailboxes := by rw [beginWrite_eq]
@[simp] theorem beginWrite_chans : s.beginWrite.chans = s.chans := by rw [beginWrite_eq]
@[simp] theorem beginWrite_lamp : s.beginWrite.lamp = s.lamp := by rw [beginWrite_eq]
@[simp] theorem beginWrite_link : s.beginWrite.link = s.link := by rw [beginWrite_eq]
@[simp] theorem beginWrite_deliv : s.beginWrite.deliv = s.deliv := by rw [beginWrite_eq]
@[simp] theorem beginWrite_house : s.beginWrite.house = s.house := by rw [beginWrite_eq]
@[simp] theorem beginWrite_index : s.beginWrite.index = s.index := by rw [beginWrite_eq]
@[simp] theorem beginWrite_audio : s.beginWrite.audio = s.audio := by rw [beginWrite_eq]
@[simp] theorem beginWrite_alarms : s.beginWrite.alarms = s.alarms := by rw [beginWrite_eq]
@[simp] theorem beginWrite_discarded : s.beginWrite.discarded = s.discarded := by rw [beginWrite_eq]
@[simp] theorem beginWrite_lineOut : s.beginWrite.lineOut = s.lineOut := by rw [beginWrite_eq]
@[simp] theorem beginWrite_linkOut : s.beginWrite.linkOut = s.linkOut := by rw [beginWrite_eq]
@[simp] theorem beginWrite_pending : s.beginWrite.pending = s.pending := by rw [beginWrite_eq]

/-- The Controller after the end of an act that does not stop the node. -/
def LinkCtl.passed (l : LinkCtl) : LinkCtl :=
  { l with moment := if l.sendList.any fun x => x.handed == l.moment then l.moment + 1 else l.moment }

theorem nextMoment_eq : s.nextMoment = { s with link := s.link.passed } := by
  unfold State.nextMoment LinkCtl.passed
  split <;> rfl

theorem drainCheck_of_mode (h : s.mode ≠ .draining) : s.drainCheck = s := by
  simp [State.drainCheck, h]

/-- The end of an act of a node that is not draining. -/
theorem settle_eq (h : s.mode ≠ .draining) :
    s.settle = { s with
      writer := s.beginWrite.writer, link := s.link.passed, lines := s.beginWrite.lineLevels } := by
  have hm : s.beginWrite.mode ≠ .draining := by rw [beginWrite_eq]; exact h
  unfold State.settle
  rw [drainCheck_of_mode _ hm, nextMoment_eq]
  unfold State.updateLines
  have hl : State.lineLevels { s.beginWrite with link := s.beginWrite.link.passed } =
      s.beginWrite.lineLevels := rfl
  rw [hl]
  generalize s.beginWrite.lineLevels = l
  rw [beginWrite_eq]
  rfl

end Sys2Proof.Machine
end

