-- ==== Sys2Proof/Laws/Starts.lean ====
section
/-! SUPPORT. What the steps of a start set up: the cold store and the rebuilt store obey the store's
laws (R23, R24, R180). -/

namespace Sys2Proof.Machine

/-- A table's numbers rise when they are pairwise in order. -/
theorem rising_iff {α : Type} {l : List (Nat × α)} :
    rising l = true ↔ (l.map (·.1)).Pairwise (· < ·) := by
  induction l with
  | nil => simp [rising]
  | cons x l ih =>
    obtain ⟨n, v⟩ := x
    rw [rising_cons, List.map_cons, List.pairwise_cons, ih]
    simp [above]

/-- A cold store is lawful (R23). -/
theorem coldStore_lawful (p b : Nat) (r : Bool) : Store.Lawful ⟨List.range p, [], 0, 0, r⟩ p b :=
  { numbers := rfl, within := by simp, blocks := by simp [tableBlocks], earmarks := rfl
    covered := Nat.zero_le _, broadcast := rfl, budget := Nat.zero_le _, objects := by simp }

/-! ### The rebuilt store -/

/-- The objects a rebuild keeps: COMPLETE ones with sound chains of pool blocks, no block in two. -/
structure Restorable (l : List (Nat × Obj)) (p : Nat) : Prop where
  numbers : (l.map (·.1)).Pairwise (· < ·)
  within : ∀ x ∈ l, 1 ≤ x.1 ∧ x.1 ≤ Config.maxObjects
  nodup : (tableBlocks l).Nodup
  pool : ∀ b ∈ tableBlocks l, b < p
  objects : ∀ x ∈ l, x.2.chain.length = blocksOf x.2.segments ∧ x.2.earmark = 0

theorem dedup_length_nodup {l : List Nat} (h : (l.dedup.length == l.length) = true) : l.Nodup := by
  have e : l.dedup = l := (List.dedup_sublist l).eq_of_length (by simpa using h)
  exact e ▸ List.nodup_dedup l

theorem acceptObjects_keys (p m : Nat) (l : List (Nat × ObjImage)) (used : List Nat) :
    ((acceptObjects p m l used).map (·.1)).Sublist (l.map (·.1)) := by
  induction l generalizing used with
  | nil => exact List.Sublist.slnil
  | cons x l ih =>
    obtain ⟨n, o⟩ := x
    unfold acceptObjects
    split
    · exact (ih _).cons_cons _
    · exact (ih _).cons _

theorem acceptObjects_blocks (p m : Nat) (l : List (Nat × ObjImage)) (used : List Nat) :
    (tableBlocks (acceptObjects p m l used)).Nodup ∧
      (∀ b ∈ tableBlocks (acceptObjects p m l used), b < p ∧ b ∉ used) ∧
      ∀ x ∈ acceptObjects p m l used,
        x.2.chain.length = blocksOf x.2.segments ∧ x.2.earmark = 0 := by
  induction l generalizing used with
  | nil => simp [acceptObjects, tableBlocks]
  | cons x l ih =>
    obtain ⟨n, o⟩ := x
    unfold acceptObjects
    split
    · rename_i h
      obtain ⟨h1, h2, h3⟩ := ih (o.chain ++ used)
      simp only [Bool.and_eq_true, List.all_eq_true, decide_eq_true_eq, ObjImage.acceptable] at h
      obtain ⟨⟨⟨⟨⟨⟨⟨a, b⟩, c⟩, d⟩, e⟩, f⟩, g⟩, k⟩ := h
      have hn := dedup_length_nodup f
      refine ⟨?_, ?_, ?_⟩
      · rw [tableBlocks_cons, List.nodup_append]
        refine ⟨hn, h1, fun y hy z hz => ?_⟩
        rintro rfl
        exact (h2 y hz).2 (by simp [show y ∈ o.chain from hy])
      · intro y hy
        rw [tableBlocks_cons, List.mem_append] at hy
        rcases hy with hy | hy
        · exact ⟨e y hy, k y hy⟩
        · have := h2 y hy
          exact ⟨this.1, fun hu => this.2 (by simp [hu])⟩
      · intro x hx
        rcases List.mem_cons.1 hx with rfl | hx
        · refine ⟨?_, rfl⟩
          simpa [ObjImage.restored] using d
        · exact h3 x hx
    · exact ih used

theorem objectsOn_spec (a : IndexArea) (j : Nat) :
    ((a.objectsOn j).map (·.1)).Pairwise (· < ·) ∧
      ∀ x ∈ a.objectsOn j, 16 * j < x.1 ∧ x.1 ≤ 16 * j + 16 := by
  unfold IndexArea.objectsOn
  split
  · rename_i os h
    unfold IndexArea.checked at h
    cases hp : a.page? (.object j) with
    | none => simp [hp] at h
    | some c =>
      simp only [hp, Option.bind_some] at h
      split at h
      · rename_i hf
        cases h
        simp only [PageImage.fits, Bool.and_eq_true, List.all_eq_true, decide_eq_true_eq] at hf
        exact ⟨rising_iff.1 hf.1, fun x hx => (hf.2 x hx).1⟩
      · cases h
  · simp

theorem allObjects_keys (a : IndexArea) (n : Nat) :
    ((((List.range n).flatMap fun j => a.objectsOn j)).map (·.1)).Pairwise (· < ·) ∧
      ∀ x ∈ ((List.range n).flatMap fun j => a.objectsOn j), 1 ≤ x.1 ∧ x.1 ≤ 16 * n := by
  induction n with
  | zero => simp
  | succ n ih =>
    rw [List.range_succ, List.flatMap_append, List.flatMap_singleton]
    obtain ⟨h1, h2⟩ := objectsOn_spec a n
    refine ⟨?_, ?_⟩
    · rw [List.map_append, List.pairwise_append]
      refine ⟨ih.1, h1, ?_⟩
      intro x hx y hy
      obtain ⟨u, hu, rfl⟩ := List.mem_map.1 hx
      obtain ⟨v, hv, rfl⟩ := List.mem_map.1 hy
      have := (ih.2 u hu).2; have := (h2 v hv).1
      omega
    · intro x hx
      rcases List.mem_append.1 hx with hx | hx
      · have := ih.2 x hx; omega
      · have := h2 x hx; omega

/-- What the rebuild accepts is restorable (R24). -/
theorem accept_restorable (p m : Nat) {l : List (Nat × ObjImage)}
    (h1 : (l.map (·.1)).Pairwise (· < ·)) (h2 : ∀ x ∈ l, 1 ≤ x.1 ∧ x.1 ≤ Config.maxObjects) :
    Restorable (acceptObjects p m l []) p := by
  obtain ⟨h3, h4, h5⟩ := acceptObjects_blocks p m l []
  have hs := acceptObjects_keys p m l []
  refine ⟨h1.sublist hs, fun x hx => ?_, h3, fun b hb => (h4 b hb).1, h5⟩
  obtain ⟨y, hy, e⟩ := List.mem_map.1 (hs.subset (List.mem_map_of_mem (f := (·.1)) hx))
  have h6 := h2 y hy
  have e' : y.1 = x.1 := e
  rw [← e']
  exact h6

/-- Leaving objects out keeps a table restorable. -/
theorem Restorable.filter {l : List (Nat × Obj)} {p : Nat} (h : Restorable l p)
    (q : Nat × Obj → Bool) : Restorable (l.filter q) p := by
  have hs : (l.filter q).Sublist l := List.filter_sublist
  have hb : (tableBlocks (l.filter q)).Sublist (tableBlocks l) := by
    unfold tableBlocks
    exact hs.flatMap _
  exact ⟨h.numbers.sublist (hs.map _), fun x hx => h.within x (hs.subset hx), h.nodup.sublist hb,
    fun b hb' => h.pool b (hb.subset hb'), fun x hx => h.objects x (hs.subset hx)⟩

/-- Setting counts changes no chain. -/
theorem setCounts_eq (l : List (Nat × Obj)) (held : List Nat) :
    setCounts l held = (l.filter fun p => decide (held.count p.1 ≠ 0)).map fun p =>
      (p.1, { p.2 with refs := held.count p.1 }) := by
  induction l with
  | nil => rfl
  | cons x l ih =>
    unfold setCounts at ih ⊢
    rw [List.filterMap_cons, List.filter_cons]
    by_cases hx : held.count x.1 = 0
    · simp [hx, ih]
    · simp [hx, ih]

theorem Restorable.counted {l : List (Nat × Obj)} {p : Nat} (h : Restorable l p) (held : List Nat) :
    Restorable (setCounts l held) p := by
  rw [setCounts_eq]
  have h' := h.filter fun p => decide (held.count p.1 ≠ 0)
  generalize l.filter (fun p => decide (held.count p.1 ≠ 0)) = k at h'
  have hb : tableBlocks (k.map fun p => (p.1, ({ p.2 with refs := held.count p.1 } : Obj))) =
      tableBlocks k := by
    unfold tableBlocks
    rw [List.flatMap_map]
  refine ⟨?_, ?_, hb ▸ h'.nodup, hb ▸ h'.pool, ?_⟩
  · rw [List.map_map]; exact h'.numbers
  · intro x hx
    obtain ⟨y, hy, rfl⟩ := List.mem_map.1 hx
    exact h'.within y hy
  · intro x hx
    obtain ⟨y, hy, rfl⟩ := List.mem_map.1 hx
    exact h'.objects y hy

theorem sharedBlocks_eq {l : List (Nat × Obj)} (h : ∀ x ∈ l, x.2.earmark = 0) :
    sharedBlocks l = tableShared l := by
  induction l with
  | nil => rfl
  | cons x k ih =>
    have hx := h x (by simp)
    have ih := ih fun y hy => h y (by simp [hy])
    unfold sharedBlocks at ih ⊢
    rw [tableShared_cons, ← ih]
    by_cases hu : x.2.use = .shared <;> simp [hu, Obj.sharedPart, hx]

/-- The store set up over a restorable table is lawful, once every object has a reference and the SHARED
ones are within the budget (R24). -/
theorem Restorable.lawful {l : List (Nat × Obj)} {p b : Nat} (h : Restorable l p)
    (hr : ∀ x ∈ l, 1 ≤ x.2.refs) (hb : sharedBlocks l ≤ b) (r : Bool) :
    Store.Lawful ⟨freeBlocks p l, l, 0, sharedBlocks l, r⟩ p b := by
  refine ⟨rising_iff.2 h.numbers, h.within, ?_, ?_, Nat.zero_le _, ?_, hb, fun x hx => ?_⟩
  · have hf : (freeBlocks p l).Nodup := (List.nodup_range).filter _
    rw [List.perm_ext_iff_of_nodup]
    · intro b
      simp only [List.mem_append, freeBlocks, List.mem_filter, List.mem_range, decide_eq_true_eq]
      have : (l.flatMap fun p => p.2.chain) = tableBlocks l := rfl
      rw [this]
      constructor
      · rintro (hb | hb)
        · exact hb.1
        · exact h.pool b hb
      · intro hb
        by_cases hm : b ∈ tableBlocks l
        · exact .inr hm
        · exact .inl ⟨hb, hm⟩
    · rw [List.nodup_append]
      refine ⟨hf, h.nodup, fun x hx y hy => ?_⟩
      rintro rfl
      simp only [freeBlocks, List.mem_filter, decide_eq_true_eq] at hx
      exact hx.2 hy
    · exact List.nodup_range
  · show 0 = tableEarmark l
    symm
    unfold tableEarmark
    rw [List.sum_eq_zero_iff]
    intro n hn
    obtain ⟨x, hx, rfl⟩ := List.mem_map.1 hn
    exact (h.objects x hx).2
  · exact sharedBlocks_eq fun x hx => (h.objects x hx).2
  · have := h.objects x hx
    simp [Obj.sound, this.1, this.2, hr x hx]

theorem sharedBlocks_sublist {a b : List (Nat × Obj)} (h : a.Sublist b) :
    sharedBlocks a ≤ sharedBlocks b := by
  unfold sharedBlocks
  exact ((h.filter _).map _).sum_le_sum fun _ _ => Nat.zero_le _

theorem sharedBlocks_perm {a b : List (Nat × Obj)} (h : a.Perm b) :
    sharedBlocks a = sharedBlocks b := ((h.filter _).map _).sum_eq

/-- What is left of the SHARED objects is within the budget (R24). -/
theorem overBudget_left (b : Nat) (l : List (Nat × Obj)) :
    sharedBlocks (l.filter fun p => decide (p.1 ∉ overBudget b l)) ≤ b := by
  induction l with
  | nil => exact Nat.zero_le _
  | cons x l ih =>
    unfold overBudget
    split
    · rename_i h
      exact le_trans (sharedBlocks_sublist List.filter_sublist) h
    · split
      · rw [List.filter_cons]
        simp only [List.mem_cons, not_true_eq_false, decide_false, true_or, if_false,
          Bool.false_eq_true]
        refine le_trans (sharedBlocks_sublist ?_) ih
        refine List.monotone_filter_right _ fun y hy => ?_
        simp only [decide_eq_true_eq, not_or] at hy ⊢
        exact hy.2
      · rename_i hu
        rw [List.filter_cons]
        split
        · unfold sharedBlocks at ih ⊢
          rw [List.filter_cons]
          simpa [hu] using ih
        · exact ih

/-- The objects the rebuild leaves are restorable, referred to, and within the budget (R24). -/
theorem rebuildIndex_objects (a : IndexArea) (c : Settings) (f : Nat → ClassRec) :
    Restorable (rebuildIndex a c f).objects c.pool ∧
      (∀ x ∈ (rebuildIndex a c f).objects, 1 ≤ x.2.refs) ∧
      sharedBlocks (rebuildIndex a c f).objects ≤ c.budget := by
  unfold rebuildIndex
  dsimp only
  have h1 := accept_restorable c.pool c.mailboxes.length (allObjects_keys a Config.objectPages).1
    (allObjects_keys a Config.objectPages).2
  revert h1
  generalize acceptObjects c.pool c.mailboxes.length _ [] = l
  generalize holdings _ _ = held
  intro h1
  have h2 := h1.counted held
  refine ⟨h2.filter _, fun x hx => ?_, ?_⟩
  · have hx := (List.mem_filter.1 hx).1
    rw [setCounts_eq] at hx
    obtain ⟨y, hy, rfl⟩ := List.mem_map.1 hx
    have := (List.mem_filter.1 hy).2
    simp only [decide_eq_true_eq] at this
    exact Nat.one_le_iff_ne_zero.2 this
  · have := overBudget_left c.budget (setCounts l held).reverse
    refine le_trans (le_of_eq ?_) this
    exact sharedBlocks_perm ((List.reverse_perm _).symm.filter _)

/-- The rebuilt store is lawful (R180). -/
theorem rebuilt_lawful (a : IndexArea) (c : Settings) (f : Nat → ClassRec) (r : Bool) :
    Store.Lawful ⟨freeBlocks c.pool (rebuildIndex a c f).objects, (rebuildIndex a c f).objects, 0,
      sharedBlocks (rebuildIndex a c f).objects, r⟩ c.pool c.budget := by
  obtain ⟨h1, h2, h3⟩ := rebuildIndex_objects a c f
  exact h1.lawful h2 h3 r

end Sys2Proof.Machine
end

