-- ==== Sys2Proof/Tests/Slice0.lean ====
section
/-! SUPPORT. Tests of this row: ill-formed commands refused by the check, a few values taken from the
manual or computed by hand from it, and for each statement with hypotheses a concrete node that meets them
together (at the boundary values of each clause). -/

namespace Sys2Proof.Tests

open Sys2Proof Sys2Proof.Machine

/-! ### The check of commands refuses each ill-formed operand -/

theorem test_smoke_channels :
    wellFormed (.call 16 1000 .direct false []) = false ∧ wellFormed (.retrieve 16 1000) = false ∧
    wellFormed (.digit 16 .hash) = false ∧ wellFormed (.release 16 none) = false ∧
    wellFormed (.sessionTimerExpiry 16 none) = false ∧ wellFormed (.clearingTimerExpiry 16) = false ∧
    wellFormed (.digitTimerExpiry 16) = false ∧ wellFormed (.interDigitTimerExpiry 16) = false ∧
    wellFormed (.greetingEnd 16) = false ∧ wellFormed (.toneEnd 16) = false ∧
    wellFormed (.menuPromptEnd 16) = false ∧ wellFormed (.promptEnd 16) = false ∧
    wellFormed (.recordPromptEnd 16) = false ∧ wellFormed (.timeIsUpPromptEnd 16) = false ∧
    wellFormed (.finalPromptEnd 16) = false ∧ wellFormed (.summaryEnd 16) = false ∧
    wellFormed (.playbackEnd 16) = false ∧ wellFormed (.reviewPlaybackEnd 16) = false ∧
    wellFormed (.slotPlaybackEnd 16) = false := by decide

theorem test_smoke_extensions :
    wellFormed (.call 0 999 .direct false []) = false ∧ wellFormed (.call 0 100000 .direct false []) = false ∧
    wellFormed (.retrieve 0 999) = false ∧ wellFormed (.lampResult 100000 .ok) = false ∧
    wellFormed (.lampResultTimeout 999) = false := by decide

theorem test_smoke_digits :
    wellFormed (.call 0 1000 .direct false (List.replicate 33 0)) = false ∧
    wellFormed (.call 0 1000 .direct false [10]) = false ∧ wellFormed (.digit 0 (.num 10)) = false := by
  decide

theorem test_smoke_segments :
    wellFormed (.segmentCaptured 0 ⟨List.replicate 249 0, 0⟩) = false ∧
    wellFormed (.segmentCaptured 0 ⟨List.replicate 250 0, 1023501⟩) = false ∧
    wellFormed (.segmentCaptured 16 ⟨List.replicate 250 0, 0⟩) = false ∧
    wellFormed (.release 0 (some ⟨[], 0⟩)) = false ∧
    wellFormed (.sessionTimerExpiry 0 (some ⟨[], 0⟩)) = false ∧
    wellFormed (.lineReset [(16, ⟨List.replicate 250 0, 0⟩)]) = false ∧
    wellFormed (.lineReset [(0, ⟨[], 0⟩)]) = false := by decide +kernel

theorem test_smoke_numbers :
    wellFormed (.time 65536 0) = false ∧ wellFormed (.time 0 65536) = false ∧
    wellFormed (.recordDiscarded ⟨1, 0, 0, List.replicate 256 0⟩) = false ∧
    wellFormed (.presenceTimeout 0) = false ∧ wellFormed (.presenceTimeout 31) = false ∧
    wellFormed (.busyWaitExpiry (.outSlot 2)) = false ∧ wellFormed (.busyWaitExpiry (.inSlot 4)) = false ∧
    wellFormed (.claimTimerExpiry 2) = false ∧ wellFormed (.answerTimerExpiry 2) = false ∧
    wellFormed (.receiptTimerExpiry 2) = false ∧ wellFormed (.idleTimerExpiry 4) = false ∧
    wellFormed (.lingerTimerExpiry 4) = false ∧ wellFormed (.notBeforeReached 64) = false := by decide +kernel

theorem test_smoke_frames :
    wellFormed (.frameReceived ⟨0, 0, 31, 1, 0, [], 0, 0⟩) = false ∧
    wellFormed (.frameReceived ⟨0, 31, 31, 1, 0, [], 0, 0⟩) = false ∧
    wellFormed (.frameReceived ⟨0, 1, 0, 1, 0, [], 0, 0⟩) = false ∧
    wellFormed (.frameReceived ⟨0, 1, 31, 1, 0, List.replicate 256 0, 0, 0⟩) = false ∧
    wellFormed (.frameReceived ⟨0, 1, 31, 7, 0, [], 0, 1023501⟩) = false := by decide +kernel

/-! ### Values of the manual -/

/-- R61's example, with day 0 the 1st of January 2000: today is 14 March 2025. -/
theorem test_dates_of_r61 :
    nextOccurrence 9204 3 14 = some 9204 ∧ nextOccurrence 9204 3 10 = some 9565 ∧
    nextOccurrence 9204 2 29 = some 10286 ∧ validDate 2 30 = false ∧ validDate 13 1 = false := by decide

/-- A HAIL of node 12, generation 7, with the CRC computed by hand from 12.1. -/
theorem test_hail_of_12_1 :
    encodeFrame 6 ⟨12, 31, 0, .hail 7⟩ = ⟨6, 12, 31, 1, 0, [0, 7], 0x92F1, 0⟩ := by decide +kernel

/-- A CARRY frame runs 2,068 bits, as 12.1 counts them, before its end of 11. -/
theorem test_carry_frame_bits (f : RawFrame) (x : SlotReading) (h : f.payload.length = 252) :
    (mediumBits f x).length = 2068 + 11 := by rw [mediumBits_length, h]

/-- The codes of the response slot as 12.1 lists them. -/
theorem test_slot_codes_of_12_1 :
    slotReading 0b00#2 = .accept ∧ slotReading 0b01#2 = .busy ∧ slotReading 0b10#2 = .refuse ∧
    slotReading 0b11#2 = .silence := by decide

/-- Records laid out by 12.2. -/
theorem test_records_of_12_2 :
    decodeRecord ⟨1, 15, 8, [0x01, 0x86, 0x9F, 2, 1, 2, 9, 0]⟩ =
      some (.call 15 99999 .busy true [9, 0]) ∧
    decodeRecord ⟨3, 2, 1, [11]⟩ = some (.digit 2 .hash) ∧ decodeRecord ⟨3, 2, 1, [12]⟩ = none ∧
    decodeRecord ⟨5, 77, 4, [0, 1, 5, 160]⟩ = some (.time 1 1440) ∧ decodeRecord ⟨32, 0, 0, []⟩ = none ∧
    decodeRecord ⟨4, 0, 1, [0]⟩ = none := by decide

/-- An image of one mailbox with every value at the top of its range, laid out by 12.3, its CRC computed by
hand. -/
def topImage : List Byte :=
  [0, 2, 0, 0, 0, 174, 0x49, 0x55, 0x71, 0x2F] ++ [30] ++
  (List.replicate 8 [0x3E, 0x80, 64, 2, 88, 2, 90, 1, 1, 109, 1, 224, 30, 7, 0x86, 0x9F]).flatten ++
  [1, 0, 3, 232, 1, 0x86, 0x9F] ++ [0, 1, 0, 3, 232, 7, 128, 0, 0, 0, 1] ++ [0, 0, 0, 0, 0, 1] ++
  [1, 2, 3, 7] ++ [23, 16] ++ [0, 1, 0, 0, 0, 0, 64, 0, 0, 0, 128, 0, 50, 7, 255]

set_option maxRecDepth 100000 in
/-- The image is usable and nothing in it needs clamping. -/
theorem test_ImageIsClamped : (loadImage topImage).map (·.clampedMark) = some false := by decide +kernel

/-- Its fields stand where 12.3 puts them. -/
theorem test_image_fields :
    let c := settingsOf (topImage.drop 10) 0
    (c.mailboxes = [⟨1000, 7, 0x80000000, true, true⟩] ∧ c.ranges = [(1000, 99999)] ∧
      c.lineSources = [.anyAlarm, .storeLow, .linkAlone, .draining] ∧ c.pool = 65536) ∧
    c.guard = 16384 ∧ c.budget = 32768 ∧ c.lowPercent = 50 ∧ c.silence = 2047 ∧ c.passHour = 23 ∧
    c.chanThreshold = 16 ∧ c.refreshAll = true ∧
    c.classes.map (·.operator) = List.replicate 8 (some 99999) := by decide +kernel

set_option maxRecDepth 100000 in
/-- The same image with one bit of its body changed fails the integrity test (R176). -/
theorem test_image_with_a_bad_crc : loadImage (topImage.set 183 254) = none := by decide +kernel

/-! ### A small node -/

/-- A class for the tests. -/
def smallClass : ClassRec :=
  ⟨12, 3, 60, 2, 14, 60, 240, 7, true, true, true, some 99999⟩

/-- A node of four mailboxes: two in service, one disabled and one unusable, in a pool of 16 blocks. -/
def smallCfg : Settings :=
  { node := 12, classes := List.replicate 8 smallClass, ranges := [(1000, 1999)]
    mailboxes := [⟨1000, 0, 1, true, true⟩, ⟨1999, 7, 0x80000000, true, true⟩,
      ⟨1500, 0, 0, false, true⟩, ⟨5, 0, 0, true, false⟩]
    scanStart := 0, scanEnd := 3, scanContinuous := false, refreshAll := false
    lineSources := [.anyAlarm, .indexBusy, .none, .none], passHour := 3, chanThreshold := 15
    guard := 2, budget := 6, pool := 16, lowPercent := 5, silence := 100, digest := 7
    clampedMark := false }

/-- A VOICE entry of object 1. -/
def smallEntry (n : Nat) (st : EntryState) : Entry :=
  { Entry.ofObject .voice false none none 1 12 with number := n, state := st }

/-- A NOTICE. -/
def smallNotice (n : Nat) : Entry :=
  { Entry.ofNotice 12 .full 2000 none none with number := n }

/-- The small node in service: object 1 is a message of mailbox 0, object 2 is being recorded for it, and
object 3 is its greeting. -/
def up : State :=
  { State.reset with
    mode := .serving, startStep := .none, cfg := smallCfg, configured := true, generation := some 7
    store :=
      { free := [5, 6, 7, 8, 9, 10, 11, 12, 13, 14, 15]
        objects := [(1, ⟨true, .message, [0, 1], 16, 1, some 0, 0, 0⟩),
          (2, ⟨false, .message, [2], 8, 0, some 0, 1, 3⟩),
          (3, ⟨true, .greeting, [3, 4], 16, 1, some 0, 0, 0⟩)]
        earmark := 1, sharedUse := 0, ready := true }
    mailboxes := [{ Mailbox.blank with
        entries := [smallEntry 9999 .new], charged := 2, pending := 2, reserved := 1
        nextNumber := 9999, standard := some 3 }, Mailbox.blank, Mailbox.blank, Mailbox.blank]
    lamp := { LampUnit.blank with
      recs := [⟨true, .on, false⟩, ⟨false, .off, false⟩, ⟨false, .off, false⟩, ⟨false, .unknown, true⟩]
      scanRunning := true, scanTimer := some 200 }
    link := { LinkCtl.fresh with state := .active, joinTimer := none, hailTimer := some 8000 }
    house := { Housekeeping.fresh with
      clock := some (100, 1439), minuteTimer := some 60000, lastPassDay := some 100 } }

/-- The small node with its channel 15 as given. -/
def upCh (f : Channel → Channel) : State := up.onCh 15 f

/-- The small node with the owner of mailbox 0 on channel 15, which holds the lock. -/
def ownerOn15 (f : Channel → Channel) : State :=
  (up.onMb 0 fun m => { m with lock := some 15 }).onCh 15 fun c => f { c with mailbox := some 0 }

/-- A loud segment and a silent one. -/
def loudSeg : Segment := ⟨List.replicate 250 1, 500 * 2047⟩
/-- A segment just below the silence threshold. -/
def softSeg : Segment := ⟨List.replicate 250 2, 500 * 100 - 1⟩

/-- A frame waiting in the send list for requester `r`. -/
def waiting (r : Requester) (dest : Nat) (b : Body) : SendItem := ⟨r, ⟨12, dest, 1, b⟩, 3, 0, 0, 0, none⟩

/-- A queue entry for extension 2000. -/
def queued : QEntry :=
  ⟨false, 2000, none, 1, some 0, some 9999, false, none, false, 0, 0, none, 1, none, false⟩

/-! ### The statements' hypotheses are met -/

theorem test_StoreLawsKeptByEveryStep :
    { up with pending := [.statusQuery] }.StoreSound ∧
      ∃ t, step { up with pending := [.statusQuery] } = .next t :=
  ⟨⟨by decide, fun _ => ⟨by decide, by decide, by decide, by decide, by decide, by decide, by decide,
    by decide⟩, by decide⟩, _, rfl⟩

theorem test_QueuesKeepTheirSizes :
    { up with pending := [.statusQuery] }.Bounded ∧
      ∃ t, step { up with pending := [.statusQuery] } = .next t :=
  ⟨⟨by decide, ⟨⟨by decide, by decide⟩, by decide, by decide⟩, ⟨by decide, by decide⟩,
    ⟨by decide, by decide, by decide⟩, by decide⟩, _, rfl⟩

theorem test_TablesKeepTheirShape :
    { up with pending := [.statusQuery] }.Shaped ∧
      ∃ t, step { up with pending := [.statusQuery] } = .next t :=
  ⟨⟨by decide, by decide, by decide, by decide, by decide, by decide, by decide, by decide, by decide,
    by decide⟩, _, rfl⟩

/-- The small node with channel 15 recording object 2 for mailbox 0, under its reservation and grant. -/
def recordingOn15 : State := { upCh (fun c => { c with
      state := .recording, mailbox := some 0, recording := some 2, reservation := true, grant := 2 }) with
      pending := [.statusQuery] }

/-- Every object of the recording node is counted right. -/
theorem recordingOn15_counted : recordingOn15.Counted := by
  refine ⟨?_, by decide⟩
  intro x hx
  have : x = (1, ⟨true, .message, [0, 1], 16, 1, some 0, 0, 0⟩) ∨
      x = (2, ⟨false, .message, [2], 8, 0, some 0, 1, 3⟩) ∨
      x = (3, ⟨true, .greeting, [3, 4], 16, 1, some 0, 0, 0⟩) := by revert x; decide
  rcases this with rfl | rfl | rfl <;> (unfold State.countsRight; decide)

/-- What its channels hold agrees with their states. -/
theorem recordingOn15_chans : ∀ c ∈ recordingOn15.chans, recordingOn15.ChannelSound c := by
  intro c hc
  have : c = Channel.idle ∨ c = { Channel.idle with
      state := .recording, mailbox := some 0, recording := some 2, reservation := true, grant := 2 } := by
    revert c; decide
  rcases this with rfl | rfl
  · exact ⟨by decide, by decide, by decide, fun _ _ h => (by cases h), by decide, by decide, by decide,
      by decide, by decide⟩
  · refine ⟨by decide, by decide, by decide, fun n o h ho => ?_, by decide, by decide, by decide,
      by decide, by decide⟩
    cases h
    have : recordingOn15.obj? 2 = some ⟨false, .message, [2], 8, 0, some 0, 1, 3⟩ := by decide
    cases this.symm.trans ho; rfl

/-- Its mailboxes keep their laws. -/
theorem recordingOn15_boxes (k : Nat) (m : Mailbox) (h : recordingOn15.mailboxes[k]? = some m) :
    recordingOn15.MailboxSound k m := by
  match k, h with
  | 0, h => cases h; constructor <;> decide
  | 1, h => cases h; constructor <;> decide
  | 2, h => cases h; constructor <;> decide
  | 3, h => cases h; constructor <;> decide
  | _ + 4, h => cases h

theorem test_TablesKeepTheirShape_and_the_Directory :
    recordingOn15.StoreSound ∧ recordingOn15.Shaped ∧ recordingOn15.Accounted ∧
      ∃ t, step recordingOn15 = .next t :=
  ⟨⟨by decide, fun _ => ⟨by decide, by decide, by decide, by decide, by decide, by decide, by decide,
    by decide⟩, by decide⟩,
   ⟨by decide, by decide, by decide, by decide, by decide, by decide, by decide, by decide, by decide,
    by decide⟩,
   ⟨recordingOn15_counted, recordingOn15_chans, fun x hx => by
      have : x.state = .free := by revert x; decide
      constructor <;> (intro h; rw [this] at h; cases h),
    recordingOn15_boxes, by decide, by decide, by decide, by decide, by decide,
    by unfold State.StartAgrees; decide⟩, _, rfl⟩

theorem test_EveryStepEndsSettled :
    { up with pending := [.statusQuery] }.Settled ∧
      ∃ t, step { up with pending := [.statusQuery] } = .next t :=
  ⟨⟨by decide, by decide, by decide⟩, _, rfl⟩

theorem test_ModesMoveOnlyAsRuled : up.StartAgrees ∧ ∃ t, exec .shutdown up = .next t :=
  ⟨by unfold State.StartAgrees; decide, _, rfl⟩

theorem test_HeldStateChangesByNamedCommands : ∃ t, exec .pageWriteDone up = .next t := ⟨_, rfl⟩

/-- A node for the witness of StepRunsFrontCommand. -/
def atStepRunsFrontCommand0 : State := { up with pending := [.statusQuery, .shutdown] }

theorem test_StepRunsFrontCommand :
    (atStepRunsFrontCommand0.pending = .statusQuery :: [.shutdown]) := by decide

theorem test_FramesRoundTrip :
    ((⟨30, 1, 255, .offer ⟨false, true, 99999, 9600, some 1000, some [9, 0]⟩⟩ : Frame).wf = true) ∧
    ((⟨1, 31, 0, .seek 65535 1000⟩ : Frame).wf = true) ∧
    ((⟨12, 30, 7, .carry 9599 loudSeg⟩ : Frame).wf = true) := by decide +kernel

theorem test_RecordsRoundTrip :
    (wellFormed (.call 15 99999 .busy true [9, 0]) = true) ∧
    ((encodeRecord (.call 15 99999 .busy true [9, 0])).isSome = true) ∧
    (wellFormed (.release 0 none) = true) ∧
    ((encodeRecord (.release 0 none)).isSome = true) := by decide

/-- A node for the witness of ActEndsWithTheWriter. -/
def atActEndsWithTheWriter0 : State := { up with writer := ⟨[511, 2], [.mailbox 0], none⟩ }

/-- A node for the witness of ActEndsWithTheWriter. -/
def atActEndsWithTheWriter1 : State := { up with writer := ⟨[], [.queue 3], none⟩, mode := .draining }

/-- A node for the witness of ActEndsWithTheWriter. -/
def atActEndsWithTheWriter2 : State := { up with
      writer := ⟨[], [], some (.queue 3, .queue [])⟩
      mode := .stopped }

theorem test_ActEndsWithTheWriter :
    (atActEndsWithTheWriter0.mode ≠ .draining) ∧
    (atActEndsWithTheWriter0.mode = .serving ∨ atActEndsWithTheWriter0.mode = .draining) ∧
    (atActEndsWithTheWriter0.writer.writing = none) ∧
    (atActEndsWithTheWriter0.writer.dirtyObjects = 511 :: [2]) ∧
    (atActEndsWithTheWriter1.mode = .serving ∨ atActEndsWithTheWriter1.mode = .draining) ∧
    (atActEndsWithTheWriter1.writer.writing = none) ∧
    (atActEndsWithTheWriter1.writer.dirtyObjects = []) ∧
    (atActEndsWithTheWriter1.writer.dirtyOthers = .queue 3 :: []) ∧
    (atActEndsWithTheWriter2.mode ≠ .serving) ∧
    (atActEndsWithTheWriter2.mode ≠ .draining) ∧
    (atActEndsWithTheWriter2.writer.writing = some (.queue 3, .queue [])) := by decide

/-- A line of the small node follows a source that holds. -/
theorem test_ActEndsWithTheWriter_lines :
    atActEndsWithTheWriter0.cfg.lineSources[1]? = some .indexBusy ∧
    atActEndsWithTheWriter0.configured = true ∧ atActEndsWithTheWriter0.lineLevels =
      [false, true, false, false] := by decide

/-- A node for the witness of DrainEndsInStopped. -/
def atDrainEndsInStopped0 : State := { up with mode := .draining }

/-- A node for the witness of DrainEndsInStopped. -/
def atDrainEndsInStopped1 : State := { upCh (fun c => { c with state := .clearing }) with
      mode := .draining }

theorem test_DrainEndsInStopped :
    (atDrainEndsInStopped0.mode = .draining) ∧
    ((∀ c ∈ atDrainEndsInStopped0.chans, c.state = .idle)) ∧
    ((∀ o ∈ atDrainEndsInStopped0.deliv.outSlots, o.state = .free)) ∧
    ((∀ x ∈ atDrainEndsInStopped0.deliv.inSlots, x.state = .free)) ∧
    (atDrainEndsInStopped0.writer = ⟨[], [], none⟩) ∧
    (atDrainEndsInStopped1.mode = .draining) ∧
    ((∃ c ∈ atDrainEndsInStopped1.chans, c.state ≠ .idle)) := by decide

/-- A node for the witness of AppendStoresASegment. -/
def atAppendStoresASegment0 : State := up.onObj 2 fun o => { o with earmark := 0 }

/-- A node for the witness of AppendStoresASegment. -/
def atAppendStoresASegment2 : State := up.onObj 2 fun o => { o with segments := 7 }

theorem test_AppendStoresASegment :
    (atAppendStoresASegment0.obj? 2 = some ⟨false, .message, [2], 8, 0, some 0, 0, 3⟩) ∧
    (audioWf atAppendStoresASegment0.audio = true) ∧
    (up.obj? 2 = some ⟨false, .message, [2], 8, 0, some 0, 1, 3⟩) ∧
    (audioWf up.audio = true) ∧
    (up.store.free = 5 :: [6, 7, 8, 9, 10, 11, 12, 13, 14, 15]) ∧
    (atAppendStoresASegment2.obj? 2 = some ⟨false, .message, [2], 7, 0, some 0, 1, 3⟩) ∧
    (([2] : List Nat).getLast? = some 2) := by decide

/-- A node for the witness of CloseKeepsOrDiscards. -/
def atCloseKeepsOrDiscards0 : State := up.onObj 2 fun o => { o with segments := 17, chain := [2, 5, 6] }

theorem test_CloseKeepsOrDiscards :
    (atCloseKeepsOrDiscards0.obj? 2 = some ⟨false, .message, [2, 5, 6], 17, 0, some 0, 1, 3⟩) ∧
    (rising atCloseKeepsOrDiscards0.store.objects = true) ∧
    (16 ≤ 17 - 1) ∧
    (17 - 2 < 16) := by decide

/-- A node for the witness of ReferencesRiseAndFall. -/
def atReferencesRiseAndFall1 : State := up.onObj 1 fun o => { o with refs := 65535 }

/-- A node for the witness of ReferencesRiseAndFall. -/
def atReferencesRiseAndFall2 : State := up.onObj 1 fun o => { o with refs := 65534 }

theorem test_ReferencesRiseAndFall :
    (up.obj? 1 = some ⟨true, .message, [0, 1], 16, 1, some 0, 0, 0⟩) ∧
    (rising up.store.objects = true) ∧
    (atReferencesRiseAndFall1.obj? 1 = some ⟨true, .message, [0, 1], 16, 65535, some 0, 0, 0⟩) ∧
    (rising atReferencesRiseAndFall1.store.objects = true) ∧
    (atReferencesRiseAndFall2.obj? 1 = some ⟨true, .message, [0, 1], 16, 65534, some 0, 0, 0⟩) := by decide

/-- A node for the witness of DepositAdmission. -/
def atDepositAdmission1 : State := up.onMb 0 fun m => { m with pending := 7 }

theorem test_DepositAdmission :
    (8 = min (((up.cls 0).maxSeconds * 16 + 7) / 8) (min ((up.cls 0).quota - (up.mb 0).charged - (up.mb
      0).pending) (up.store.free.length - up.store.earmark))) ∧
    ((up.cls 0).minRoom * 16 ≤ min ((up.cls 0).maxSeconds * 16) (8 * 8)) ∧
    (lowestFree 1 up.store.objects ≤ 8192) ∧
    (rising up.store.objects = true) ∧
    (∀ x ∈ up.store.objects, 1 ≤ x.1) ∧
    (3 = min (((atDepositAdmission1.cls 0).maxSeconds * 16 + 7) / 8) (min ((atDepositAdmission1.cls
      0).quota - (atDepositAdmission1.mb 0).charged - (atDepositAdmission1.mb 0).pending)
      (atDepositAdmission1.store.free.length - atDepositAdmission1.store.earmark))) ∧
    (min ((atDepositAdmission1.cls 0).maxSeconds * 16) (8 * 3) < (atDepositAdmission1.cls 0).minRoom * 16) := by decide

/-- A table of the numbers from `n` on leaves the number after its last. -/
theorem lowestFree_range' {α : Type} (a : α) (m n : Nat) :
    lowestFree n ((List.range' n m).map fun j => (j, a)) = n + m := by
  induction m generalizing n with
  | zero => simp [lowestFree]
  | succ m ih => simp [List.range'_succ, lowestFree, ih]; omega

/-- The small node with every entry of the object table in use. -/
def fullTable (s : State) : State := s.onStore fun st => { st with
      objects := (List.range' 1 8192).map fun j => (j, ⟨true, .message, [0, 1], 16, 1, some 0, 0, 0⟩) }

theorem fullTable_full (s : State) : 8192 < lowestFree 1 (fullTable s).store.objects := by
  have h := lowestFree_range' (⟨true, .message, [0, 1], 16, 1, some 0, 0, 0⟩ : Obj) 8192 1
  have e : lowestFree 1 (fullTable s).store.objects = 1 + 8192 := h
  omega

theorem test_EntriesAreAppendedAndRemoved :
    (up.inService 0 = true) ∧
    (0 < up.mailboxes.length) ∧
    ((smallEntry 0 .new).kind = .voice) ∧
    ((up.mb 0).entries.length ≤ 64) ∧
    ((up.mb 0).entry? 9999 = some (smallEntry 9999 .new)) := by decide

/-- A node for the witness of SaveMakesAnEntrySaved. -/
def atSaveMakesAnEntrySaved0 : State := up.onMb 0 fun m => { m with
      lock := some 15
      erasePending := [9999] }

/-- A node for the witness of SaveMakesAnEntrySaved. -/
def atSaveMakesAnEntrySaved1 : State := up.onMb 0 fun m => { m with entries := [smallEntry 1 .saved] }

theorem test_SaveMakesAnEntrySaved :
    (0 < atSaveMakesAnEntrySaved0.mailboxes.length) ∧
    ((atSaveMakesAnEntrySaved0.mb 0).entry? 9999 = some (smallEntry 9999 .new)) ∧
    (((atSaveMakesAnEntrySaved0.mb 0).entries.map (·.number)).Nodup) ∧
    (9999 ∈ (atSaveMakesAnEntrySaved0.mb 0).erasePending) ∧
    ((atSaveMakesAnEntrySaved0.mb 0).lock = some 15) ∧
    ((atSaveMakesAnEntrySaved1.mb 0).entry? 1 = some (smallEntry 1 .saved)) ∧
    (((atSaveMakesAnEntrySaved1.mb 0).entries.map (·.number)).Nodup) := by decide

/-- A node for the witness of ForwardsAndBroadcastCopies. -/
def atForwardsAndBroadcastCopies1 : State := (up.onMb 1 fun m => { m with
      reserved := 3 }).onStore fun st => { st with sharedUse := 5 }

/-- A node for the witness of ForwardsAndBroadcastCopies. -/
def atForwardsAndBroadcastCopies2 : State := up.onMb 1 fun m => { m with reserved := 2, pending := 11 }

theorem test_ForwardsAndBroadcastCopies :
    (up.obj? 1 = some ⟨true, .message, [0, 1], 16, 1, some 0, 0, 0⟩) ∧
    (up.inService 2 = false) ∧
    (up.inService 1 = true) ∧
    ((up.mb 1).entries.length + (up.mb 1).reserved < (up.cls 1).maxEntries) ∧
    (2 ≤ (up.cls 1).quota - (up.mb 1).charged - (up.mb 1).pending) ∧
    (up.store.sharedUse + 2 ≤ up.cfg.budget) ∧
    (atForwardsAndBroadcastCopies1.obj? 1 = some ⟨true, .message, [0, 1], 16, 1, some 0, 0, 0⟩) ∧
    (atForwardsAndBroadcastCopies1.inService 1 = true) ∧
    ((atForwardsAndBroadcastCopies1.cls 1).maxEntries ≤ (atForwardsAndBroadcastCopies1.mb
      1).entries.length + (atForwardsAndBroadcastCopies1.mb 1).reserved) ∧
    (atForwardsAndBroadcastCopies1.cfg.budget < atForwardsAndBroadcastCopies1.store.sharedUse + 2) ∧
    (atForwardsAndBroadcastCopies2.obj? 1 = some ⟨true, .message, [0, 1], 16, 1, some 0, 0, 0⟩) ∧
    (atForwardsAndBroadcastCopies2.inService 1 = true) ∧
    ((atForwardsAndBroadcastCopies2.mb 1).entries.length + (atForwardsAndBroadcastCopies2.mb 1).reserved <
      (atForwardsAndBroadcastCopies2.cls 1).maxEntries) ∧
    ((atForwardsAndBroadcastCopies2.cls 1).quota - (atForwardsAndBroadcastCopies2.mb 1).charged -
      (atForwardsAndBroadcastCopies2.mb 1).pending < 2) := by decide

/-- The owner's recording, object 1, is ready to be sent; node 30 is present, and the queue has one free
position, its counter at its end. -/
def atForwardsAndBroadcastCopies3 : State := ((ownerOn15 fun c => { c with
      state := .sendOptions
      recording := some 1 }).onPresence 30 fun _ => ⟨true, none, some 1⟩).onDeliv fun d => { d with
        queue := (List.replicate 63 (some { queued with carried := true, seq := 9 })).set 5 (some
          { queued with carried := true, seq := 7 }) ++ [none]
        groups := (List.replicate 7 (some ⟨some 1, 4, 1, 0⟩)) ++ [none]
        enqCounter := 4294967295 }

/-- The queue is full and every group in use. -/
def atForwardsAndBroadcastCopies4 : State := up.onDeliv fun d => { d with
      queue := List.replicate 64 (some queued)
      groups := List.replicate 8 (some ⟨some 1, 4, 1, 0⟩) }

/-- Object 1 takes no further reference. -/
def atForwardsAndBroadcastCopies5 : State := up.onObj 1 fun o => { o with refs := 65535 }

theorem test_ForwardsAndBroadcastCopies_lists :
    (rising up.store.objects = true) ∧ (up.mailboxes.length = up.cfg.mailboxes.length) ∧
    (up.membersWithRoom 31 = [1]) ∧ ((up.broadcast 1 31 0 true).1 = 1) ∧
    ((atForwardsAndBroadcastCopies5.obj? 1).map (·.refs) = some 65535) ∧
    ((atForwardsAndBroadcastCopies3.ch 15).mailbox = some 0) ∧
    ((atForwardsAndBroadcastCopies3.convert 1).isSome = true) ∧
    (((atForwardsAndBroadcastCopies3.convert 1).map fun u => u.presentNodes) = some [30]) ∧
    (((atForwardsAndBroadcastCopies3.convert 1).map fun u => (u.offerLists 31 1 0 true [30]).1) =
      some true) ∧
    (((atForwardsAndBroadcastCopies3.sendList 15 1 31 true).ch 15).sound = [.prompt .sentTo, .number 1,
      .prompt .mailboxesHere, .prompt .andTo, .number 1, .prompt .otherBuildings]) ∧
    (up.convert 2 = none) := by decide +kernel

/-- R137, R138: the queue's last position and its last group are taken, after a renumbering. -/
theorem test_ForwardsAndBroadcastCopies_queue :
    (atForwardsAndBroadcastCopies3.deliv.queue[63]? = some none) ∧
    (atForwardsAndBroadcastCopies3.deliv.queue.take 63 |>.all Option.isSome) ∧
    (4294967295 ≤ atForwardsAndBroadcastCopies3.deliv.enqCounter) ∧
    ((atForwardsAndBroadcastCopies3.renumber.deliv.queue.take 7).map (Option.map (·.seq)) =
      [some 63, some 63, some 63, some 63, some 63, some 1, some 63]) ∧
    ((atForwardsAndBroadcastCopies3.enqueue queued).qEntry? 63 = some { queued with seq := 64 }) ∧
    ((atForwardsAndBroadcastCopies3.offerDirect 2000 1 0 none true).1 = true) ∧
    ((atForwardsAndBroadcastCopies3.offerLists 4 1 0 true [1, 2]).1 = false) ∧
    (∀ q ∈ atForwardsAndBroadcastCopies4.deliv.queue, q ≠ none) ∧
    (∀ g ∈ atForwardsAndBroadcastCopies4.deliv.groups, g ≠ none) := by decide +kernel

/-- A node for the witness of GreetingChoice. -/
def atGreetingChoice0 : State := up.onMb 0 fun m => { m with absence := some 3, endDay := some 100 }

/-- A node for the witness of GreetingChoice. -/
def atGreetingChoice1 : State := up.onMb 0 fun m => { m with
      absence := some 3
      endDay := some 99
      busy := some 1 }

theorem test_GreetingChoice :
    ((atGreetingChoice0.mb 0).absence = some 3) ∧
    ((atGreetingChoice0.mb 0).endDay = some 100) ∧
    (atGreetingChoice0.today = some 100) ∧
    ((atGreetingChoice1.mb 0).endDay = some 99) ∧
    (atGreetingChoice1.today = some 100) ∧
    ((atGreetingChoice1.mb 0).busy = some 1) ∧
    ((atGreetingChoice1.mb 0).standard = some 3) ∧
    ((up.mb 1).absence = none) ∧
    ((up.mb 1).busy = none) ∧
    ((up.mb 1).standard = none) := by decide

/-- R52, R59, R60: an accept into the ABSENCE slot, a slot emptied, and a channel without the lock refused. -/
theorem test_GreetingChoice_slots :
    (0 < up.mailboxes.length) ∧ ((up.mb 0).endDay ≠ some 9) ∧
    (((up.acceptSlot 0 .absence 1 (some 9)).mb 0).endDay = some 9) ∧
    (((up.emptySlot 0 .standard).mb 0).standard = none) ∧
    (((ownerOn15 id).askEmpty 0 14 .standard).1 = false) ∧
    (((ownerOn15 id).askEmpty 0 15 .standard).1 = true) := by decide

/-- A node for the witness of LampFollowsTheNewCount. -/
def atLampFollowsTheNewCount0 : State := up.onMb 0 fun m => { m with entries := [] }

/-- A node for the witness of LampFollowsTheNewCount. -/
def atLampFollowsTheNewCount1 : State := up.onMb 0 fun m => { m with lock := some 15 }

theorem test_LampFollowsTheNewCount :
    (false = ((atLampFollowsTheNewCount0.mbCfg 0).usable && (atLampFollowsTheNewCount0.cls 0).lampEnabled
      && decide (1 ≤ (atLampFollowsTheNewCount0.mb 0).newCount))) ∧
    ((atLampFollowsTheNewCount0.mb 0).lock = none) ∧
    ((atLampFollowsTheNewCount0.lampRec 0).desired ≠ false) ∧
    (atLampFollowsTheNewCount0.lamp.queue = []) ∧
    (atLampFollowsTheNewCount0.lamp.outstanding.length < 4) ∧
    (∀ p ∈ atLampFollowsTheNewCount0.lamp.outstanding, p.1.ext ≠ (atLampFollowsTheNewCount0.mbCfg
      0).extension) ∧
    (true = ((atLampFollowsTheNewCount1.mbCfg 0).usable && (atLampFollowsTheNewCount1.cls 0).lampEnabled
      && decide (1 ≤ (atLampFollowsTheNewCount1.mb 0).newCount))) ∧
    ((atLampFollowsTheNewCount1.mb 0).lock.isSome = true) ∧
    ((atLampFollowsTheNewCount1.lampRec 0).desired = true) := by decide

/-- A node for the witness of ResetPinStartsAfresh. -/
def atResetPinStartsAfresh0 : State := { up with startStep := .wipe 519, mode := .starting }

/-- A node for the witness of ResetPinStartsAfresh. -/
def atResetPinStartsAfresh1 : State := { up with startStep := .headerWrite true 8, mode := .starting }

/-- A node for the witness of ResetPinStartsAfresh. -/
def atResetPinStartsAfresh2 : State := { up with writer := ⟨[], [], some (.queue 3, .queue [])⟩ }

/-- A node for the witness of ResetPinStartsAfresh. -/
def atResetPinStartsAfresh3 : State := { up with startStep := .rebuild, mode := .starting }

theorem test_ResetPinStartsAfresh :
    (atResetPinStartsAfresh0.startStep = .wipe 519) ∧
    (atResetPinStartsAfresh1.startStep = .headerWrite true 8) ∧
    (atResetPinStartsAfresh2.startStep = .none) ∧
    (atResetPinStartsAfresh2.writer.writing = some (.queue 3, .queue [])) ∧
    (atResetPinStartsAfresh3.startStep = .rebuild) ∧
    (atResetPinStartsAfresh3.writer.writing = none) := by decide

theorem test_ImageReadHaltsOrHandsOut :
    (State.reset.mode = .starting) ∧
    (State.reset.startStep = .configRead) ∧
    (loadImage [] = none) := by decide

set_option maxRecDepth 100000 in
/-- A usable image for the second clause. -/
theorem test_ImageReadHaltsOrHandsOut_usable : (loadImage topImage).isSome = true := by decide +kernel

/-- A node for the witness of StartGoesThroughItsSteps. -/
def atStartGoesThroughItsSteps0 : State := { up with
      mode := .starting
      startStep := .headerRead
      index := ⟨some ⟨65535, 7⟩, []⟩ }

/-- A node for the witness of StartGoesThroughItsSteps. -/
def atStartGoesThroughItsSteps1 : State := { up with
      mode := .starting
      startStep := .headerRead
      index := ⟨some ⟨65535, 8⟩, []⟩ }

/-- A node for the witness of StartGoesThroughItsSteps. -/
def atStartGoesThroughItsSteps2 : State := { up with mode := .starting, startStep := .wipe 3 }

/-- A node for the witness of StartGoesThroughItsSteps. -/
def atStartGoesThroughItsSteps3 : State := { up with mode := .starting, startStep := .wipe 515 }

/-- A node for the witness of StartGoesThroughItsSteps. -/
def atStartGoesThroughItsSteps4 : State := { up with mode := .starting, startStep := .wipe 519 }

/-- A node for the witness of StartGoesThroughItsSteps. -/
def atStartGoesThroughItsSteps5 : State := { up with mode := .starting, startStep := .headerWrite true 8 }

/-- A node for the witness of StartGoesThroughItsSteps. -/
def atStartGoesThroughItsSteps6 : State := { up with
      mode := .starting
      startStep := .headerWrite false 1
      house := Housekeeping.fresh }

theorem test_StartGoesThroughItsSteps :
    (atStartGoesThroughItsSteps0.mode = .starting) ∧
    (atStartGoesThroughItsSteps0.startStep = .headerRead) ∧
    (atStartGoesThroughItsSteps0.index.header = some ⟨65535, 7⟩) ∧
    ((⟨65535, 7⟩ : Header).digest = atStartGoesThroughItsSteps0.cfg.digest) ∧
    (atStartGoesThroughItsSteps1.mode = .starting) ∧
    (atStartGoesThroughItsSteps1.startStep = .headerRead) ∧
    (atStartGoesThroughItsSteps1.index.header.all (fun h => h.digest !=
      atStartGoesThroughItsSteps1.cfg.digest) = true) ∧
    (atStartGoesThroughItsSteps2.startStep = .wipe 3) ∧
    (3 < atStartGoesThroughItsSteps2.cfg.mailboxes.length + 516) ∧
    (atStartGoesThroughItsSteps3.startStep = .wipe 515) ∧
    (515 < atStartGoesThroughItsSteps3.cfg.mailboxes.length + 516) ∧
    (atStartGoesThroughItsSteps4.startStep = .wipe 519) ∧
    (519 < atStartGoesThroughItsSteps4.cfg.mailboxes.length + 516) ∧
    (atStartGoesThroughItsSteps5.startStep = .headerWrite true 8) ∧
    (atStartGoesThroughItsSteps6.startStep = .headerWrite false 1) ∧
    (atStartGoesThroughItsSteps6.lamp.queue = []) ∧
    (∀ q ∈ atStartGoesThroughItsSteps6.deliv.queue, q = none) ∧
    (atStartGoesThroughItsSteps6.house.clock = none) := by decide

/-- A node for the witness of ColdStartEmptiesTheStore. -/
def atColdStartEmptiesTheStore0 : State := { up with
      mode := .starting
      startStep := .headerRead
      index := ⟨some ⟨65535, 8⟩, []⟩ }

theorem test_ColdStartEmptiesTheStore :
    (atColdStartEmptiesTheStore0.startStep = .headerRead) ∧
    (atColdStartEmptiesTheStore0.mode = .starting) ∧
    (atColdStartEmptiesTheStore0.cfg.lowPercent ≤ 50) ∧
    (atColdStartEmptiesTheStore0.index.header.all (fun h => h.digest !=
      atColdStartEmptiesTheStore0.cfg.digest) = true) := by decide

/-- A node for the witness of ColdStartEmptiesTheDirectory. -/
def atColdStartEmptiesTheDirectory0 : State := { up with
      mode := .starting
      startStep := .headerRead
      index := ⟨some ⟨65535, 8⟩, []⟩ }

theorem test_ColdStartEmptiesTheDirectory :
    (atColdStartEmptiesTheDirectory0.startStep = .headerRead) ∧
    (atColdStartEmptiesTheDirectory0.mode = .starting) ∧
    (atColdStartEmptiesTheDirectory0.index.header.all (fun h => h.digest !=
      atColdStartEmptiesTheDirectory0.cfg.digest) = true) := by decide

/-- A node for the witness of RebuildEntersServing. -/
def atRebuildEntersServing0 : State := { up with
      mode := .starting
      startStep := .rebuild
      house := Housekeeping.fresh }

theorem test_RebuildEntersServing :
    (atRebuildEntersServing0.startStep = .rebuild) ∧
    (∀ q ∈ (rebuildIndex atRebuildEntersServing0.index atRebuildEntersServing0.cfg
      atRebuildEntersServing0.cls).queue, q = none) ∧
    (atRebuildEntersServing0.house.clock = none) := by decide

/-- An index area with a message of mailbox 0 that a queue entry and a LIST entry hold as well. -/
def areaOfThree : IndexArea :=
  { header := none
    pages := [(.object 0, .objects [(1, ⟨true, .message, [0, 1], 16, 3, some 0⟩)]),
      (.mailbox 0, .mailbox ⟨[smallEntry 5 .heard], 6, none, none, none, none, none⟩),
      (.queue 3, .queue [(62, ⟨true, 4, some 30, 1, some 0, none, false, 9, some 7⟩),
        (63, ⟨false, 2000, none, 1, some 0, some 5, false, 8, none⟩)])] }

/-- A node for the witness of RebuildEntersServing: two entries are restored and the clock is set. -/
def atRebuildEntersServing1 : State := { up with
      mode := .starting
      startStep := .rebuild
      index := areaOfThree }

theorem test_RebuildEntersServing_with_a_queue :
    (atRebuildEntersServing1.startStep = .rebuild) ∧
    ((rebuildIndex areaOfThree smallCfg atRebuildEntersServing1.cls).queue.filterMap
      (Option.map fun e => (e.object, e.seq, e.group)) = [(1, 9, some 7), (1, 8, none)]) := by decide +kernel

/-- An index area that holds a message of mailbox 0. -/
def areaOfOne : IndexArea :=
  { header := none
    pages := [(.object 0, .objects [(1, ⟨true, .message, [0, 1], 16, 1, some 0⟩)]),
      (.mailbox 0, .mailbox ⟨[smallEntry 5 .heard], 6, none, none, none, none, none⟩)] }

theorem test_RebuildRestoresWholeObjects :
    (rebuildIndex areaOfOne smallCfg fun _ => smallClass).objects.map (fun x => (x.1, x.2.refs)) =
      [(1, 1)] := by decide +kernel

/-- An index area with a message, a greeting, a broadcast copy and a NAME, and what refers to them. -/
def areaOfFour : IndexArea :=
  { header := none
    pages := [(.object 0, .objects [(1, ⟨true, .message, [0, 1], 16, 2, some 0⟩),
        (2, ⟨true, .greeting, [2, 3], 16, 1, some 0⟩), (3, ⟨true, .shared, [4, 5], 16, 1, none⟩),
        (4, ⟨true, .name, [14, 15], 16, 1, some 0⟩)]),
      (.mailbox 0, .mailbox ⟨[smallEntry 5 .heard, { smallEntry 6 .new with
        kind := .shared, object := some 3 }, smallNotice 9999], 9999, none, none, some 2, some 4,
        some 65535⟩),
      (.queue 3, .queue [(63, ⟨false, 2000, none, 1, some 0, some 5, false, 8, none⟩)])] }

theorem test_RebuildRestoresWholeObjects_keeps :
    (areaOfFour.objectsOn 0 |>.map (·.2.acceptable 16 4)) = [true, true, true, true] ∧
    (areaOfFour.checked (.queue (63 / 16))).isSome = true ∧
    (areaOfFour.checked (.mailbox 0)).isSome = true ∧ areaOfFour.checked (.mailbox 3) = none ∧
    (smallEntry 5 .heard).inRange = true ∧ (smallNotice 9999).inRange = true ∧
    (QImage.inRange ⟨false, 2000, none, 1, some 0, some 5, false, 8, none⟩) = true ∧
    ((rebuildIndex areaOfFour smallCfg fun _ => smallClass).objects.map (fun x => (x.1, x.2.refs)) =
      [(1, 2), (2, 1), (3, 1), (4, 1)]) ∧
    ((rebuildIndex areaOfFour smallCfg fun _ => smallClass).mailboxes.map (fun m =>
      (m.entries.map (·.number), m.absence, m.name, m.endDay)) =
      [([5, 6, 9999], some 2, some 4, some 65535), ([], none, none, none), ([], none, none, none),
        ([], none, none, none)]) := by decide +kernel

/-- A node for the witness of ShutdownDrainsResumeStarts. -/
def atShutdownDrainsResumeStarts1 : State := { up with mode := .stopped }

theorem test_ShutdownDrainsResumeStarts :
    (up.mode = .serving) ∧
    (atShutdownDrainsResumeStarts1.mode = .stopped) := by decide

/-- A node for the witness of BusyChannelRefusesCalls. -/
def atBusyChannelRefusesCalls0 : State := upCh fun c => { c with state := .main }

theorem test_BusyChannelRefusesCalls :
    (15 ≤ 15) ∧
    (1000 ≤ 99999) ∧
    (99999 ≤ 99999) ∧
    ((List.replicate 32 9).length ≤ 32) ∧
    (∀ d ∈ List.replicate 32 9, d ≤ 9) ∧
    ((atBusyChannelRefusesCalls0.ch 15).state ≠ .idle) ∧
    (15 < 16) := by decide

/-- A node for the witness of CallsTurnedAway. -/
def atCallsTurnedAway0 : State := { up with mode := .draining }

theorem test_CallsTurnedAway :
    ((atCallsTurnedAway0.ch 15).state = .idle) ∧
    (atCallsTurnedAway0.mode ≠ .serving) ∧
    ((up.ch 0).state = .idle) ∧
    (up.find 1001 = .inRange) ∧
    (up.find 99999 = .foreign) ∧
    (up.find 1500 = .disabled 2) := by decide

theorem test_CallOpensADeposit :
    (up.ch 15 = Channel.idle) ∧
    (up.mode = .serving) ∧
    (up.find 1999 = .homed 1) ∧
    (up.chooseGreeting 1 .busy = .system none) ∧
    (up.find 1000 = .homed 0) ∧
    (up.chooseGreeting 0 .direct = .recorded 3 false) ∧
    ((up.onMb 1 fun m => { m with name := some 3 }).chooseGreeting 1 .noAnswer = .system (some 3)) ∧
    (up.obj? 3 = some ⟨true, .greeting, [3, 4], 16, 1, some 0, 0, 0⟩) := by decide

/-- R55: a channel that plays mailbox 0's ABSENCE greeting, object 3, under a reference. -/
def greetingOn15 : State := (upCh fun c => { c with
      state := .greeting, mailbox := some 0, playing := some 3, sound := [.object 3]
      absenceChosen := true, sessionTimer := some 1 }).onObj 3 fun o => { o with refs := 2 }

/-- R55, R74, R75, R83: key 0, the session limit and the greeting's end drop the reference first. -/
theorem test_greeting_references_of_r55 :
    ((greetingOn15.ch 15).typeAhead = []) ∧ ((greetingOn15.ch 15).mailbox = some 0) ∧
    ((greetingOn15.ch 15).state = .greeting) ∧ ((greetingOn15.ch 15).playing = some 3) ∧
    ((greetingOn15.ch 15).sessionTimer.isSome = true) ∧ ((greetingOn15.cls 0).operator = some 99999) ∧
    ((greetingOn15.ch 15).absenceChosen = true) ∧ ((greetingOn15.cls 0).absenceBlocks = true) ∧
    (((greetingOn15.dropRef 3).obj? 3).map (·.refs) = some 1) ∧ (greetingOn15.inService 0 = true) := by decide

/-- A node for the witness of RetrieveTakesTheLock. -/
def atRetrieveTakesTheLock1 : State := up.onMb 0 fun m => { m with lock := some 0 }

theorem test_RetrieveTakesTheLock :
    (up.ch 15 = Channel.idle) ∧
    (up.mode = .serving) ∧
    (up.find 1000 = .homed 0) ∧
    ((up.mb 0).lock = none) ∧
    (∀ m ∈ up.mailboxes, m.lock ≠ some 15) ∧
    (atRetrieveTakesTheLock1.ch 15 = Channel.idle) ∧
    (atRetrieveTakesTheLock1.mode = .serving) ∧
    (atRetrieveTakesTheLock1.find 1000 = .homed 0) ∧
    ((atRetrieveTakesTheLock1.mb 0).lock.isSome = true) := by decide

/-- A node for the witness of DigitsWaitOrAreTaken. -/
def atDigitsWaitOrAreTaken0 : State := upCh fun c => { c with
      state := .transferring
      typeAhead := List.replicate 8 .star }

/-- A node for the witness of DigitsWaitOrAreTaken. -/
def atDigitsWaitOrAreTaken1 : State := upCh fun c => { c with state := .clearing }

/-- A node for the witness of DigitsWaitOrAreTaken. -/
def atDigitsWaitOrAreTaken2 : State := upCh fun c => { c with state := .greeting, mailbox := some 1 }

/-- A node for the witness of DigitsWaitOrAreTaken. -/
def atDigitsWaitOrAreTaken3 : State := upCh fun c => { c with state := .recording, mailbox := some 1 }

/-- A node for the witness of DigitsWaitOrAreTaken. -/
def atDigitsWaitOrAreTaken4 : State := ownerOn15 fun c => { c with
      state := .message
      current := some 9999 }

theorem test_DigitsWaitOrAreTaken :
    (wfKey (.num 9) = true) ∧
    ((atDigitsWaitOrAreTaken0.ch 15).state ≠ .idle) ∧
    ((atDigitsWaitOrAreTaken0.ch 15).state ≠ .clearing) ∧
    ((atDigitsWaitOrAreTaken0.ch 15).state.takesDigits = false) ∧
    ((atDigitsWaitOrAreTaken1.ch 15).state = .idle ∨ (atDigitsWaitOrAreTaken1.ch 15).state = .clearing) ∧
    ((atDigitsWaitOrAreTaken1.ch 0).state = .idle ∨ (atDigitsWaitOrAreTaken1.ch 0).state = .clearing) ∧
    ((atDigitsWaitOrAreTaken2.ch 15).typeAhead = []) ∧
    ((atDigitsWaitOrAreTaken2.ch 15).mailbox = some 1) ∧
    ((atDigitsWaitOrAreTaken2.ch 15).state = .greeting) ∧
    ((atDigitsWaitOrAreTaken2.ch 15).playing = none) ∧
    ((atDigitsWaitOrAreTaken2.cls 1).operator = some 99999) ∧
    ((atDigitsWaitOrAreTaken2.ch 15).digitTimer = none) ∧
    ((atDigitsWaitOrAreTaken3.ch 15).typeAhead = []) ∧
    ((atDigitsWaitOrAreTaken3.ch 15).mailbox = some 1) ∧
    ((atDigitsWaitOrAreTaken3.ch 15).state = .recording) ∧
    ((atDigitsWaitOrAreTaken4.ch 15).typeAhead = []) ∧
    ((atDigitsWaitOrAreTaken4.ch 15).mailbox = some 0) ∧
    ((atDigitsWaitOrAreTaken4.ch 15).state = .message) ∧
    ((atDigitsWaitOrAreTaken4.ch 15).current = some 9999) ∧
    ((atDigitsWaitOrAreTaken4.ch 15).currentGone = false) ∧
    ((atDigitsWaitOrAreTaken4.mb 0).lock = some 15) ∧
    ((atDigitsWaitOrAreTaken4.mb 0).entry? 9999 = some (smallEntry 9999 .new)) := by decide

/-- The owner in MAIN, with an entry to present. -/
def atDigitsWaitOrAreTaken5 : State := ownerOn15 fun c => { c with state := .main }

/-- The owner in review of object 2 for the STANDARD slot. -/
def atDigitsWaitOrAreTaken6 : State := ownerOn15 fun c => { c with
      state := .review, slot := some .standard, recording := some 2 }

/-- The owner in the STANDARD slot's menu. -/
def atDigitsWaitOrAreTaken7 : State := ownerOn15 fun c => { c with
      state := .slot, slot := some .standard }

/-- The owner keying 29 February for an empty ABSENCE slot. -/
def atDigitsWaitOrAreTaken8 : State := ownerOn15 fun c => { c with
      state := .endDay, slot := some .absence, endDigits := [0, 2, 2] }

/-- The same for an occupied ABSENCE slot. -/
def atDigitsWaitOrAreTaken9 : State := atDigitsWaitOrAreTaken8.onMb 0 fun m => { m with absence := some 3 }

theorem test_DigitsWaitOrAreTaken_main_and_slots :
    ((atDigitsWaitOrAreTaken5.ch 15).typeAhead = []) ∧ ((atDigitsWaitOrAreTaken5.ch 15).mailbox = some 0) ∧
    ((atDigitsWaitOrAreTaken5.ch 15).state = .main) ∧
    (atDigitsWaitOrAreTaken5.nextEntry 15 = some (smallEntry 9999 .new)) ∧
    ((smallEntry 9999 .new).kind ≠ .notice) ∧ ((smallEntry 9999 .new).object = some 1) ∧
    (atDigitsWaitOrAreTaken5.obj? 1 = some ⟨true, .message, [0, 1], 16, 1, some 0, 0, 0⟩) ∧
    ((atDigitsWaitOrAreTaken6.ch 15).typeAhead = []) ∧ ((atDigitsWaitOrAreTaken6.ch 15).mailbox = some 0) ∧
    ((atDigitsWaitOrAreTaken6.ch 15).slot = some .standard) ∧
    ((atDigitsWaitOrAreTaken6.mb 0).lock = some 15) ∧ ((atDigitsWaitOrAreTaken6.ch 15).state = .review) ∧
    ((atDigitsWaitOrAreTaken6.ch 15).recording = some 2) ∧
    ((atDigitsWaitOrAreTaken7.ch 15).slot = some .standard) ∧
    ((atDigitsWaitOrAreTaken7.mb 0).lock = some 15) ∧ ((atDigitsWaitOrAreTaken7.ch 15).state = .slot) ∧
    ((atDigitsWaitOrAreTaken7.ch 15).playing = none) ∧
    (((atDigitsWaitOrAreTaken7.mb 0).slotObj .standard).isSome = true) := by decide

theorem test_DigitsWaitOrAreTaken_end_day :
    ((atDigitsWaitOrAreTaken8.ch 15).typeAhead = []) ∧ ((atDigitsWaitOrAreTaken8.ch 15).mailbox = some 0) ∧
    ((atDigitsWaitOrAreTaken8.ch 15).slot = some .absence) ∧
    ((atDigitsWaitOrAreTaken8.mb 0).lock = some 15) ∧ ((atDigitsWaitOrAreTaken8.ch 15).state = .endDay) ∧
    ((atDigitsWaitOrAreTaken8.ch 15).endDigits = [0, 2, 2]) ∧
    (validDate (10 * 0 + 2) (10 * 2 + 9) = true) ∧ (atDigitsWaitOrAreTaken8.today = some 100) ∧
    (nextOccurrence 100 2 29 = some 1520) ∧ ((atDigitsWaitOrAreTaken8.mb 0).absence = none) ∧
    ((atDigitsWaitOrAreTaken9.mb 0).lock = some 15) ∧
    ((atDigitsWaitOrAreTaken9.ch 15).endDigits = [0, 2, 2]) ∧
    ((atDigitsWaitOrAreTaken9.mb 0).absence.isSome = true) := by decide

/-- A node for the witness of ReleaseReturnsTheChannel. -/
def atReleaseReturnsTheChannel0 : State := upCh fun c => { c with
      state := .options
      mailbox := some 0
      recording := some 1
      grant := 2
      reservation := true
      sessionTimer := some 1
      digitTimer := some 6000 }

/-- A node for the witness of ReleaseReturnsTheChannel. -/
def atReleaseReturnsTheChannel1 : State := upCh fun c => { c with state := .ending }

theorem test_ReleaseReturnsTheChannel :
    (wfGathered none = true) ∧
    ((atReleaseReturnsTheChannel0.ch 15).state ≠ .idle) ∧
    ((atReleaseReturnsTheChannel0.ch 15).state = .options) ∧
    ((atReleaseReturnsTheChannel0.ch 15).recording = some 1) ∧
    ((atReleaseReturnsTheChannel0.ch 15).playing = none) ∧
    ((atReleaseReturnsTheChannel0.ch 15).mailbox = some 0) ∧
    (wfGathered (some loudSeg) = true) ∧
    ((atReleaseReturnsTheChannel1.ch 15).playing = none) ∧
    ((atReleaseReturnsTheChannel1.ch 15).recording = none) ∧
    ((atReleaseReturnsTheChannel1.ch 15).state = .transferring ∨ (atReleaseReturnsTheChannel1.ch 15).state
      = .ending ∨ (atReleaseReturnsTheChannel1.ch 15).state = .clearing) ∧
    ((atReleaseReturnsTheChannel1.ch 0).state = .idle) := by decide +kernel

/-- Channel 15 in a deposit state with its session timer running, holding what is given. -/
def depositing (st : ChanState) (recording playing : Option Nat) : State := upCh fun c => { c with
      state := st, mailbox := some 0, recording := recording, playing := playing, reservation := true
      grant := 2, sessionTimer := some 1 }

theorem test_ReleaseReturnsTheChannel_deposits :
    ((depositing .greeting none (some 3)).ch 15).playing = some 3 ∧
    ((depositing .greeting none (some 3)).ch 15).recording = none ∧
    ((depositing .tone (some 2) none).ch 15).recording = some 2 ∧
    ((depositing .tone (some 2) none).ch 15).playing = none ∧
    ((depositing .recordPrompt none none).ch 15).recording = none ∧
    ((depositing .timeUp (some 1) none).ch 15).state = .timeUp ∧
    (wfGathered (some softSeg) = true) ∧
    ((depositing .recording (some 2) none).ch 15).recording = some 2 ∧
    (((depositing .recording (some 2) none).append 2 softSeg).map fun t =>
      (t.silentTail 2, (t.closeObj 2 (t.silentTail 2) 1).1)) = some (4, false) ∧
    (((depositing .recording (some 1) none).append 1 loudSeg).isNone = true) ∧
    (((depositing .recording (some 1) none).closeObj 1
      ((depositing .recording (some 1) none).silentTail 1) 1).1 = true) ∧
    ((depositing .playing none (some 3)).ch 15).state.deposit = false ∧
    ((depositing .sendCapture (some 2) none).obj? 2).map (·.complete) = some false ∧
    ((depositing .tone (some 2) none).ch 15).sessionTimer.isSome = true ∧
    ((depositing .tone (some 2) none).ch 15).mailbox = some 0 := by decide +kernel

/-- A node for the witness of CallsEndAndClear. -/
def atCallsEndAndClear0 : State := upCh fun c => { c with state := .transferring, sessionTimer := some 1 }

/-- A node for the witness of CallsEndAndClear. -/
def atCallsEndAndClear1 : State := upCh fun c => { c with state := .greeting, sessionTimer := some 1 }

/-- A node for the witness of CallsEndAndClear. -/
def atCallsEndAndClear2 : State := upCh fun c => { c with
      state := .options
      mailbox := some 0
      recording := some 1
      grant := 2
      reservation := true
      sessionTimer := some 1
      digitTimer := some 6000 }

/-- A node for the witness of CallsEndAndClear. -/
def atCallsEndAndClear3 : State := upCh fun c => { c with state := .ending, sessionTimer := some 1 }

/-- A node for the witness of CallsEndAndClear. -/
def atCallsEndAndClear4 : State := upCh fun c => { c with state := .clearing, clearingTimer := some 2000 }

theorem test_CallsEndAndClear :
    (wfGathered none = true) ∧
    ((atCallsEndAndClear0.ch 15).sessionTimer.isSome = true) ∧
    ((atCallsEndAndClear0.ch 15).state = .transferring) ∧
    ((atCallsEndAndClear1.ch 15).sessionTimer.isSome = true) ∧
    ((atCallsEndAndClear1.ch 15).state = .greeting) ∧
    ((atCallsEndAndClear1.ch 15).playing = none) ∧
    ((atCallsEndAndClear2.ch 15).sessionTimer.isSome = true) ∧
    ((atCallsEndAndClear2.ch 15).state = .options) ∧
    ((atCallsEndAndClear2.ch 15).recording = some 1) ∧
    ((atCallsEndAndClear2.ch 15).mailbox = some 0) ∧
    ((atCallsEndAndClear3.ch 15).sessionTimer.isSome = true) ∧
    ((atCallsEndAndClear3.ch 15).state = .ending ∨ (atCallsEndAndClear3.ch 15).state = .clearing) ∧
    ((atCallsEndAndClear3.ch 15).state = .ending) ∧
    ((atCallsEndAndClear4.ch 15).state = .clearing) ∧
    ((atCallsEndAndClear4.ch 15).clearingTimer.isSome = true) ∧
    ((atCallsEndAndClear4.ch 15).playing = none) ∧
    ((atCallsEndAndClear4.ch 15).recording = none) := by decide

/-- The owner of mailbox 0 in a state of the retrieval dialogue, with its session timer running. -/
def limitIn (st : ChanState) (playing recording : Option Nat) : State := ownerOn15 fun c => { c with
      state := st, playing := playing, recording := recording, current := some 9999
      sessionTimer := some 1, slot := some .standard }

theorem test_CallsEndAndClear_in_a_retrieval :
    (∀ st ∈ [ChanState.playing, .main, .review, .sendCapture, .prompting .slot],
      st.deposit = false ∧ st ≠ .idle ∧ st ≠ .transferring ∧ st ≠ .ending ∧ st ≠ .clearing) ∧
    (((limitIn .playing (some 1) none).ch 15).sessionTimer.isSome = true) ∧
    (((limitIn .playing (some 1) none).ch 15).mailbox = some 0) ∧
    (((limitIn .slot (some 3) none).ch 15).playing = some 3) ∧
    (((limitIn .sendCapture none (some 2)).ch 15).recording = some 2) ∧
    ((limitIn .sendCapture none (some 2)).obj? 2).isSome = true ∧
    (((((limitIn .playing (some 1) none).endPlayback 15 false).mb 0).entry? 9999).map (·.state) =
      some .heard) := by decide

/-- A node for the witness of MenuAndEntryTimersRun. -/
def atMenuAndEntryTimersRun0 : State := upCh fun c => { c with
      state := .main
      sound := [.prompt .mainMenu] }

/-- A node for the witness of MenuAndEntryTimersRun. -/
def atMenuAndEntryTimersRun1 : State := upCh fun c => { c with
      state := .main
      digitTimer := some 6000
      silentRepeats := 1 }

/-- A node for the witness of MenuAndEntryTimersRun. -/
def atMenuAndEntryTimersRun2 : State := (upCh fun c => { c with
      state := .main
      digitTimer := some 6000
      silentRepeats := 2
      mailbox := some 0 }).onMb 0 fun m => { m with lock := some 15 }

/-- A node for the witness of MenuAndEntryTimersRun. -/
def atMenuAndEntryTimersRun3 : State := upCh fun c => { c with
      state := .options
      mailbox := some 0
      recording := some 1
      grant := 2
      reservation := true
      sessionTimer := some 1
      digitTimer := some 6000 }

/-- A node for the witness of MenuAndEntryTimersRun. -/
def atMenuAndEntryTimersRun4 : State := upCh fun c => { c with
      state := .addressing
      interDigitTimer := some 3000
      address := [1, 2, 3]
      invalid := 2 }

/-- A node for the witness of MenuAndEntryTimersRun. -/
def atMenuAndEntryTimersRun5 : State := upCh fun c => { c with
      state := .listNumber
      interDigitTimer := some 3000
      address := [3, 2]
      invalid := 1 }

theorem test_MenuAndEntryTimersRun :
    ((atMenuAndEntryTimersRun0.ch 15).menuPrompt = true) ∧
    ((atMenuAndEntryTimersRun1.ch 15).state = .main) ∧
    ((atMenuAndEntryTimersRun1.ch 15).digitTimer.isSome = true) ∧
    ((atMenuAndEntryTimersRun1.ch 15).typeAhead = []) ∧
    ((atMenuAndEntryTimersRun1.ch 15).silentRepeats < 2) ∧
    ((atMenuAndEntryTimersRun2.ch 15).state = .main) ∧
    ((atMenuAndEntryTimersRun2.ch 15).digitTimer.isSome = true) ∧
    ((atMenuAndEntryTimersRun2.ch 15).typeAhead = []) ∧
    (2 ≤ (atMenuAndEntryTimersRun2.ch 15).silentRepeats) ∧
    ((atMenuAndEntryTimersRun2.ch 15).mailbox = some 0) ∧
    ((atMenuAndEntryTimersRun2.mb 0).lock = some 15) ∧
    (0 < atMenuAndEntryTimersRun2.mailboxes.length) ∧
    ((atMenuAndEntryTimersRun3.ch 15).state = .options) ∧
    ((atMenuAndEntryTimersRun3.ch 15).digitTimer.isSome = true) ∧
    ((atMenuAndEntryTimersRun3.ch 15).recording = some 1) ∧
    ((atMenuAndEntryTimersRun3.ch 15).mailbox = some 0) ∧
    ((atMenuAndEntryTimersRun4.ch 15).interDigitTimer.isSome = true) ∧
    ((atMenuAndEntryTimersRun4.ch 15).typeAhead = []) ∧
    ((atMenuAndEntryTimersRun4.ch 15).state = .addressing) ∧
    (((atMenuAndEntryTimersRun4.ch 15).address.length ≠ 4 ∧ (atMenuAndEntryTimersRun4.ch
      15).address.length ≠ 5) ∨ (atMenuAndEntryTimersRun4.ch 15).address.head? = some 0) ∧
    ((atMenuAndEntryTimersRun5.ch 15).interDigitTimer.isSome = true) ∧
    ((atMenuAndEntryTimersRun5.ch 15).typeAhead = []) ∧
    ((atMenuAndEntryTimersRun5.ch 15).state = .listNumber) ∧
    (((atMenuAndEntryTimersRun5.ch 15).address.length ≠ 1 ∧ (atMenuAndEntryTimersRun5.ch
      15).address.length ≠ 2) ∨ 32 ≤ digitsValue (atMenuAndEntryTimersRun5.ch 15).address) := by decide

/-- The owner of mailbox 0 keys an address or a list number. -/
def keying (st : ChanState) (ret : ReturnState) (ds : List Nat) : State := ownerOn15 fun c => { c with
      state := st, address := ds, returnState := some ret, interDigitTimer := some 3000
      current := some 9999, invalid := 2 }

theorem test_MenuAndEntryTimersRun_entries :
    (((keying .addressing .main [1, 9, 9, 9]).ch 15).interDigitTimer.isSome = true) ∧
    (((keying .addressing .main [1, 9, 9, 9]).ch 15).typeAhead = []) ∧
    (((keying .addressing .main [1, 9, 9, 9]).ch 15).address.head? ≠ some 0) ∧
    (((keying .addressing .main [1, 9, 9, 9]).ch 15).address.length = 4) ∧
    ((keying .addressing .main [1, 9, 9, 9]).find (digitsValue [1, 9, 9, 9]) = .homed 1) ∧
    ((keying .addressing .main [1, 5, 0, 0]).find (digitsValue [1, 5, 0, 0]) = .disabled 2) ∧
    ((keying .addressing .main [1, 6, 0, 0]).find (digitsValue [1, 6, 0, 0]) = .inRange) ∧
    ((keying .addressing .main [2, 0, 0, 0]).find (digitsValue ([2, 0, 0, 0] ++ [1])) = .foreign) ∧
    (((keying .addressing .message [1, 9, 9, 9]).ch 15).mailbox = some 0) ∧
    (((keying .addressing .message [1, 9, 9, 9]).ch 15).returnState = some .message) ∧
    (((keying .addressing .message [1, 9, 9, 9]).ch 15).currentGone = false) ∧
    (((keying .addressing .message [1, 9, 9, 9]).mb 0).entry? 9999 = some (smallEntry 9999 .new)) ∧
    ((smallEntry 9999 .new).object = some 1) ∧
    (((keying .listNumber .main [3]).ch 15).address = [3]) ∧
    (digitsValue ([3] ++ [1]) = 31) ∧ (32 ≤ digitsValue ([3] ++ [2])) ∧
    (((keying .addressing .main [1, 9, 9]).ch 15).address.length < 4) ∧
    (((keying .listNumber .main []).ch 15).address = []) := by decide

/-- The owner of mailbox 0 has recorded object 1 for a target. -/
def sending (t : SendTarget) : State := ownerOn15 fun c => { c with
      state := .sendOptions, recording := some 1, target := some t, returnState := some .main
      digitTimer := some 100 }

theorem test_MenuAndEntryTimersRun_sending :
    (∀ t ∈ [SendTarget.homed 1999 1, .foreign 2000, .list 31],
      ((sending t).ch 15).typeAhead = [] ∧ ((sending t).ch 15).mailbox = some 0 ∧
      ((sending t).ch 15).state = .sendOptions ∧ ((sending t).ch 15).recording = some 1 ∧
      ((sending t).ch 15).target = some t) ∧
    ((sending (.list 31)).obj? 1 = some ⟨true, .message, [0, 1], 16, 1, some 0, 0, 0⟩) ∧
    (10 = min ((((sending (.list 31)).cls 0).maxSeconds * 16 + 7) / 8)
      ((sending (.list 31)).store.free.length - (sending (.list 31)).store.earmark)) ∧
    (((sending (.list 31)).cls 0).minRoom * 16 ≤ 8 * 10) ∧
    (lowestFree 1 (sending (.list 31)).store.objects ≤ 8192) ∧
    (0 = min ((((sending (.list 31)).cls 0).maxSeconds * 16 + 7) / 8) (1 - 1)) ∧
    (8 * 0 < ((sending (.list 31)).cls 0).minRoom * 16) := by decide

theorem test_MenuAndEntryTimersRun_greetings :
    (((ownerOn15 fun c => { c with state := .greetings }).ch 15).state = .greetings) ∧
    (((ownerOn15 fun c => { c with state := .greetings }).ch 15).mailbox = some 0) ∧
    (((ownerOn15 fun c => { c with state := .greetings }).ch 15).typeAhead = []) := by decide

/-- A node for the witness of CaptureAppendsSegments. -/
def atCaptureAppendsSegments0 : State := upCh fun c => { c with state := .tone, sound := [.tone] }

/-- A node for the witness of CaptureAppendsSegments. -/
def atCaptureAppendsSegments1 : State := upCh fun c => { c with state := .sendTone, sound := [.tone] }

/-- A node for the witness of CaptureAppendsSegments. -/
def atCaptureAppendsSegments2 : State := upCh fun c => { c with state := .greetTone, sound := [.tone] }

/-- A node for the witness of CaptureAppendsSegments. -/
def atCaptureAppendsSegments3 : State := upCh fun c => { c with state := .recording, recording := some 2 }

/-- A node for the witness of CaptureAppendsSegments. -/
def atCaptureAppendsSegments4 : State := (upCh fun c => { c with
      state := .recording
      recording := some 2 }).onObj 2 fun o => { o with segments := 16, chain := [2, 5], earmark := 0 }

theorem test_CaptureAppendsSegments :
    ((atCaptureAppendsSegments0.ch 15).typeAhead = []) ∧
    ((atCaptureAppendsSegments0.ch 15).state = .tone) ∧
    ((atCaptureAppendsSegments1.ch 15).typeAhead = []) ∧
    ((atCaptureAppendsSegments1.ch 15).state = .sendTone) ∧
    ((atCaptureAppendsSegments2.ch 15).typeAhead = []) ∧
    ((atCaptureAppendsSegments2.ch 15).state = .greetTone) ∧
    (wfSegment loudSeg = true) ∧
    ((atCaptureAppendsSegments3.ch 15).recording = some 2) ∧
    (((atCaptureAppendsSegments3.append 2 loudSeg).map fun t => decide (t.silentTail 2 < 112)) = some
      true) ∧
    ((atCaptureAppendsSegments4.ch 15).recording = some 2) ∧
    (atCaptureAppendsSegments4.obj? 2 = some ⟨false, .message, [2, 5], 16, 0, some 0, 0, 3⟩) := by decide +kernel

/-- Channel 15 records object 2, of so many segments of which so many are the silent tail, its earmark spent. -/
def capturing (st : ChanState) (segments tail : Nat) : State := (upCh fun c => { c with
      state := st, mailbox := some 0, recording := some 2, reservation := true, grant := 2
      slot := some .standard, sessionTimer := some 1 }).onObj 2 fun o => { o with
        segments := segments, chain := (List.range ((segments + 7) / 8)).map (· + 5), earmark := 0
        silentTail := tail }

theorem test_CaptureAppendsSegments_ends :
    (((capturing .recording 127 111).append 2 softSeg).map fun t =>
      (t.silentTail 2, (t.closeObj 2 112 1).1)) = some (112, true) ∧
    (((capturing .sendCapture 126 111).append 2 softSeg).map fun t =>
      (t.silentTail 2, (t.closeObj 2 112 1).1)) = some (112, false) ∧
    ((capturing .greetCapture 16 0).append 2 loudSeg).isNone = true ∧
    ((capturing .greetCapture 16 0).closeObj 2 0 1).1 = true ∧
    ((capturing .recording 8 0).append 2 loudSeg).isNone = true ∧
    ((capturing .recording 8 0).closeObj 2 0 1).1 = false ∧
    ((capturing .sendCapture 8 0).ch 15).typeAhead = [] ∧
    ((capturing .sendCapture 8 0).ch 15).mailbox = some 0 ∧
    ((capturing .sendCapture 8 0).ch 15).recording = some 2 ∧
    ((capturing .greetCapture 8 0).obj? 2).map (·.complete) = some false ∧
    ((capturing .greetCapture 8 0).ch 15).slot = some .standard ∧
    ((capturing .options 16 0).ch 15).state = .options := by decide +kernel

/-- A node for the witness of GreetingLeadsToTheTone. -/
def atGreetingLeadsToTheTone0 : State := upCh fun c => { c with
      state := .greeting
      mailbox := some 1
      absenceChosen := true }

/-- A node for the witness of GreetingLeadsToTheTone. -/
def atGreetingLeadsToTheTone1 : State := (upCh fun c => { c with
      state := .greeting
      mailbox := some 1 }).onMb 1 fun m => { m with reserved := 3 }

/-- A node for the witness of GreetingLeadsToTheTone. -/
def atGreetingLeadsToTheTone2 : State := (upCh fun c => { c with
      state := .greeting
      mailbox := some 1 }).onMb 1 fun m => { m with reserved := 2 }

/-- A node for the witness of GreetingLeadsToTheTone. -/
def atGreetingLeadsToTheTone3 : State := (upCh fun c => { c with
      state := .recordPrompt
      mailbox := some 1 })

/-- A node for the witness of GreetingLeadsToTheTone. -/
def atGreetingLeadsToTheTone4 : State := (upCh fun c => { c with
      state := .recordPrompt
      mailbox := some 1
      reservation := true }).onMb 1 fun m => { m with pending := 12, reserved := 1 }

theorem test_GreetingLeadsToTheTone :
    ((atGreetingLeadsToTheTone0.ch 15).typeAhead = []) ∧
    ((atGreetingLeadsToTheTone0.ch 15).mailbox = some 1) ∧
    ((atGreetingLeadsToTheTone0.ch 15).state = .greeting) ∧
    ((atGreetingLeadsToTheTone0.ch 15).playing = none) ∧
    ((atGreetingLeadsToTheTone0.ch 15).absenceChosen = true) ∧
    ((atGreetingLeadsToTheTone0.cls 1).absenceBlocks = true) ∧
    ((atGreetingLeadsToTheTone1.ch 15).absenceChosen = false ∨ (atGreetingLeadsToTheTone1.cls
      1).absenceBlocks = false) ∧
    (atGreetingLeadsToTheTone1.inService 1 = true) ∧
    ((atGreetingLeadsToTheTone1.cls 1).maxEntries ≤ (atGreetingLeadsToTheTone1.mb 1).entries.length +
      (atGreetingLeadsToTheTone1.mb 1).reserved) ∧
    ((atGreetingLeadsToTheTone2.mb 1).entries.length + (atGreetingLeadsToTheTone2.mb 1).reserved <
      (atGreetingLeadsToTheTone2.cls 1).maxEntries) ∧
    ((((atGreetingLeadsToTheTone2.onMb 1 fun m => { m with
        reserved := m.reserved + 1 }).onCh 15 fun c => { c with reservation := true }).admitDeposit 1).1 = .granted 4 10) ∧
    ((atGreetingLeadsToTheTone3.ch 15).state = .recordPrompt) ∧
    ((atGreetingLeadsToTheTone3.admitDeposit 1).1 = .granted 4 10) ∧
    ((atGreetingLeadsToTheTone4.ch 15).state = .recordPrompt) ∧
    (atGreetingLeadsToTheTone4.admitDeposit 1 = (.full, atGreetingLeadsToTheTone4)) := by decide

/-- A node for the witness of PromptsLeadOn. -/
def atPromptsLeadOn0 : State := upCh fun c => { c with state := .sendPrompt }

/-- A node for the witness of PromptsLeadOn. -/
def atPromptsLeadOn1 : State := upCh fun c => { c with state := .greetPrompt }

/-- A node for the witness of PromptsLeadOn. -/
def atPromptsLeadOn2 : State := upCh fun c => { c with state := .prompting .main }

/-- A node for the witness of PromptsLeadOn. -/
def atPromptsLeadOn3 : State := upCh fun c => { c with state := .summary }

/-- A node for the witness of PromptsLeadOn. -/
def atPromptsLeadOn4 : State := upCh fun c => { c with state := .timeUp }

/-- A node for the witness of PromptsLeadOn. -/
def atPromptsLeadOn5 : State := upCh fun c => { c with state := .sendTimeUp }

/-- A node for the witness of PromptsLeadOn. -/
def atPromptsLeadOn6 : State := upCh fun c => { c with state := .greetTimeUp, recording := some 3 }

/-- A node for the witness of PromptsLeadOn. -/
def atPromptsLeadOn7 : State := upCh fun c => { c with
      state := .summary
      sound := [.prompt .youHave, .number 1] }

/-- A node for the witness of PromptsLeadOn. -/
def atPromptsLeadOn8 : State := upCh fun c => { c with state := .review, sound := [.object 3] }

theorem test_PromptsLeadOn :
    ((atPromptsLeadOn0.ch 15).typeAhead = []) ∧
    ((atPromptsLeadOn0.ch 15).state = .sendPrompt) ∧
    ((atPromptsLeadOn1.ch 15).typeAhead = []) ∧
    ((atPromptsLeadOn1.ch 15).state = .greetPrompt) ∧
    ((atPromptsLeadOn2.ch 15).typeAhead = []) ∧
    ((atPromptsLeadOn2.ch 15).state = .prompting .main) ∧
    ((atPromptsLeadOn3.ch 15).typeAhead = []) ∧
    ((atPromptsLeadOn3.ch 15).state = .summary) ∧
    ((atPromptsLeadOn4.ch 15).typeAhead = []) ∧
    ((atPromptsLeadOn4.ch 15).state = .timeUp) ∧
    ((atPromptsLeadOn5.ch 15).typeAhead = []) ∧
    ((atPromptsLeadOn5.ch 15).state = .sendTimeUp) ∧
    ((atPromptsLeadOn6.ch 15).typeAhead = []) ∧
    ((atPromptsLeadOn6.ch 15).state = .greetTimeUp) ∧
    ((atPromptsLeadOn6.ch 15).recording = some 3) ∧
    ((atPromptsLeadOn7.ch 15).state = .summary) ∧
    ((atPromptsLeadOn7.ch 15).sound = .prompt .youHave :: .number 1 :: []) ∧
    ((atPromptsLeadOn8.ch 15).state = .review) ∧
    ((atPromptsLeadOn8.ch 15).playsObject = true) := by decide

/-- Channel 15 plays a prompt that leads on. -/
def leadingOn (a : After) : State := ownerOn15 fun c => { c with
      state := .prompting a, sound := [.prompt .sentTo, .number 2, .prompt .mailboxesHere]
      returnState := some .message, slot := some .absence, current := some 9999 }

theorem test_PromptsLeadOn_from_each_prompt :
    (∀ a ∈ [After.main, .message, .presentNext, .addressing, .listNumber, .returnState, .endDay, .slot],
      ((leadingOn a).ch 15).typeAhead = [] ∧ ((leadingOn a).ch 15).state = .prompting a) ∧
    (((leadingOn .slot).ch 15).slot = some .absence) ∧ (((leadingOn .slot).ch 15).mailbox = some 0) ∧
    ((leadingOn .presentNext).nextEntry 15 = some (smallEntry 9999 .new)) ∧
    (((leadingOn .presentNext).onCh 15 fun c => { c with presented := [9999] }).nextEntry 15 = none) ∧
    ((smallNotice 5).kind = .notice) ∧ ((smallEntry 9999 .new).kind ≠ .notice) ∧
    ((leadingOn .presentNext).obj? 1 = some ⟨true, .message, [0, 1], 16, 1, some 0, 0, 0⟩) := by decide

/-- A node for the witness of PlaybacksEnd. -/
def atPlaybacksEnd0 : State := ownerOn15 fun c => { c with
      state := .playing
      playing := some 1
      current := some 9999 }

/-- A node for the witness of PlaybacksEnd. -/
def atPlaybacksEnd1 : State := upCh fun c => { c with
      state := .slot
      mailbox := some 0
      playing := some 3
      slot := some .absence
      sound := [.object 3] }

theorem test_PlaybacksEnd :
    ((atPlaybacksEnd0.ch 15).typeAhead = []) ∧
    ((atPlaybacksEnd0.ch 15).mailbox = some 0) ∧
    ((atPlaybacksEnd0.ch 15).playing = some 1) ∧
    ((atPlaybacksEnd0.ch 15).state = .playing) ∧
    ((atPlaybacksEnd0.ch 15).current = some 9999) ∧
    ((atPlaybacksEnd0.ch 15).currentGone = false) ∧
    ((atPlaybacksEnd0.mb 0).lock = some 15) ∧
    ((atPlaybacksEnd0.mb 0).entry? 9999 = some (smallEntry 9999 .new)) ∧
    (0 < atPlaybacksEnd0.mailboxes.length) ∧
    ((atPlaybacksEnd1.ch 15).state = .slot) ∧
    ((atPlaybacksEnd1.ch 15).playsObject = true) ∧
    ((atPlaybacksEnd1.ch 15).slot = some .absence) ∧
    ((atPlaybacksEnd1.ch 15).playing = some 3) := by decide

/-- The owner hears a NOTICE that is NEW, and a gone message that is HEARD. -/
def atPlaybacksEnd2 : State := (ownerOn15 fun c => { c with
      state := .playing
      current := some 5
      sound := [.stamp 1] }).onMb 0 fun m => { m with entries := [smallNotice 5] }

/-- The owner hears a HEARD message, marked gone. -/
def atPlaybacksEnd3 : State := atPlaybacksEnd0.onMb 0 fun m => { m with
      entries := [smallEntry 9999 .heard] }

theorem test_PlaybacksEnd_of_a_notice :
    ((atPlaybacksEnd2.ch 15).playing = none) ∧ ((smallNotice 5).kind = .notice) ∧
    ((atPlaybacksEnd2.ch 15).sound.getLast? ≠ some (.prompt .unavailable)) ∧
    ((atPlaybacksEnd2.mb 0).lock = some 15) ∧
    ((atPlaybacksEnd2.mb 0).entry? 5 = some (smallNotice 5)) ∧
    ((atPlaybacksEnd3.mb 0).entry? 9999 = some (smallEntry 9999 .heard)) ∧
    ((((atPlaybacksEnd2.endPlayback 15 false).mb 0).entry? 5).map (·.state) = some .heard) := by decide

/-- The owner hears, or has heard, a NOTICE that has been replaced: it is gone and no longer in the list. -/
def goneOn15 (st : ChanState) : State := ownerOn15 fun c => { c with
      state := st, current := some 5, currentGone := true, sound := [.stamp 1] }

theorem test_PlaybacksEnd_of_a_gone_entry :
    (((goneOn15 .playing).ch 15).typeAhead = []) ∧ (((goneOn15 .playing).ch 15).mailbox = some 0) ∧
    (0 < (goneOn15 .playing).mailboxes.length) ∧ (((goneOn15 .playing).ch 15).state = .playing) ∧
    (((goneOn15 .playing).ch 15).currentGone = true) ∧ (((goneOn15 .playing).ch 15).playing = none) ∧
    (((goneOn15 .playing).ch 15).sound.getLast? ≠ some (.prompt .unavailable)) ∧
    (((goneOn15 .playing).mb 0).entry? 5 = none) ∧
    (((goneOn15 .message).ch 15).state = .message) ∧ (((goneOn15 .message).ch 15).currentGone = true) := by
  decide

/-- The owner of mailbox 0 is in the menu of an entry. -/
def menuOf (e : Entry) : State := (ownerOn15 fun c => { c with
      state := .message, current := some e.number }).onMb 0 fun m => { m with entries := [e] }

/-- A message from extension `x`. -/
def messageFrom (x : Nat) : Entry := { smallEntry 9999 .heard with origin := some x }

theorem test_PlaybacksEnd_keys_of_the_menu :
    (∀ e ∈ [smallEntry 9999 .new, smallNotice 5, messageFrom 1999, messageFrom 2000, messageFrom 1500,
        messageFrom 1600],
      ((menuOf e).ch 15).typeAhead = [] ∧ ((menuOf e).ch 15).mailbox = some 0 ∧
      ((menuOf e).ch 15).state = .message ∧ ((menuOf e).ch 15).current = some e.number ∧
      ((menuOf e).ch 15).currentGone = false ∧ ((menuOf e).mb 0).entry? e.number = some e) ∧
    ((menuOf (messageFrom 1999)).find 1999 = .homed 1) ∧
    ((menuOf (messageFrom 2000)).find 2000 = .foreign) ∧
    ((menuOf (messageFrom 1500)).find 1500 = .disabled 2) ∧
    ((menuOf (messageFrom 1600)).find 1600 = .inRange) ∧ ((smallNotice 5).origin = none) := by decide

/-- R183: channel 15 sends the 16 segments of object 3, channel 0 silence, and neither captures. -/
theorem test_highway_of_r183 :
    (atPlaybacksEnd1.highway[0]? = some [.silence]) ∧
    ((atPlaybacksEnd1.highway[15]?).map List.length = some 16) ∧
    (atPlaybacksEnd1.obj? 3 = some ⟨true, .greeting, [3, 4], 16, 1, some 0, 0, 0⟩) := by decide

/-- R86: a count of 0 is spoken as "no", and the urgent part is left out at 0. -/
theorem test_summary_of_r86 :
    (up.mb 0).summary = [.prompt .youHave, .number 1, .prompt .newMessages, .prompt .no,
      .prompt .oldMessages] ∧
    (up.mb 1).summary = [.prompt .noMessagesAtAll] := by decide

/-- R41: an entry's requests are refused to a channel without the lock, and name an entry of the list. -/
theorem test_entry_requests_of_r41 :
    ((ownerOn15 id).askSave 0 14 9999).1 = .refused ∧ ((ownerOn15 id).askErase 0 15 1).1 = .noSuchEntry ∧
    ((ownerOn15 id).askHeard 0 15 9999).1 = .taken ∧ ((ownerOn15 id).askLock 0 14).1 = .inUse ∧
    (up.askLock 2 14).1 = .disabled ∧ (up.askLock 0 14).1 = .granted := by decide

/-- Channel 15 hears an entry whose object takes no further reference. -/
def refusedOn15 : State :=
  (ownerOn15 fun c => { c with state := .main }).onObj 1 fun o => { o with refs := 65535 }

/-- R89: a refused reference leaves the channel in PLAYING without content, and key # leaves the entry
NEW. -/
theorem test_refused_playback_of_r89 :
    ((refusedOn15.listen 15).ch 15).state = .playing ∧ ((refusedOn15.listen 15).ch 15).contentRefused ∧
    ((((refusedOn15.listen 15).endPlayback 15 false).mb 0).entry? 9999).map (·.state) = some .new := by
  decide

theorem test_PlaybacksEnd_of_a_refused_playback :
    (((refusedOn15.listen 15).ch 15).typeAhead = []) ∧ (((refusedOn15.listen 15).ch 15).playing = none) ∧
    (((refusedOn15.listen 15).ch 15).sound.getLast? = some (.prompt .unavailable)) ∧
    (((refusedOn15.listen 15).ch 15).mailbox = some 0) ∧ (refusedOn15.obj? 1).isSome = true ∧
    ((((refusedOn15.listen 15).onCh 15 fun c => { c with sound := [.prompt .unavailable] }).ch 15).sound =
      [.prompt .unavailable]) := by decide

/-- A node for the witness of LampCommandsEnd. -/
def atLampCommandsEnd0 : State := { up with
      lamp := { up.lamp with outstanding := [(⟨1999, 1, true, 1⟩, some 2000)] } }

/-- A node for the witness of LampCommandsEnd. -/
def atLampCommandsEnd1 : State := { up with
      lamp := { up.lamp with outstanding := [(⟨1999, 1, true, 1⟩, some 2000)] }
      mode := .stopped }

/-- A node for the witness of LampCommandsEnd. -/
def atLampCommandsEnd2 : State := { up with
      lamp := { up.lamp with outstanding := [(⟨1999, 1, true, 2⟩, some 2000)] } }

theorem test_LampCommandsEnd :
    (atLampCommandsEnd0.mode ≠ .halted) ∧
    (atLampCommandsEnd0.lamp.outFor 1999 = some ⟨1999, 1, true, 1⟩) ∧
    (atLampCommandsEnd0.lamp.queue = []) ∧
    (1 < atLampCommandsEnd0.lamp.recs.length) ∧
    (atLampCommandsEnd0.lamp.outFor 1000 = none) ∧
    (atLampCommandsEnd1.lamp.outFor 1999 = some ⟨1999, 1, true, 1⟩) ∧
    (atLampCommandsEnd1.lamp.queue = []) ∧
    (atLampCommandsEnd1.mode = .stopped) ∧
    (atLampCommandsEnd2.lamp.outFor 1999 = some ⟨1999, 1, true, 2⟩) ∧
    (atLampCommandsEnd2.lamp.queue = []) ∧
    (atLampCommandsEnd2.mode ≠ .halted) := by decide

/-- A node for the witness of LampCommandsEnd: a command for another extension is queued. -/
def atLampCommandsEnd3 : State := atLampCommandsEnd0.onLamp fun l => { l with
      queue := [⟨1000, 0, true, 1⟩] }

/-- A node for the witness of LampCommandsEnd: a command for the extension is queued again. -/
def atLampCommandsEnd4 : State := atLampCommandsEnd0.onLamp fun l => { l with
      queue := [⟨1999, 1, false, 1⟩] }

/-- A node for the witness of LampCommandsEnd: the queue is full and a pass runs. -/
def atLampCommandsEnd5 : State := atLampCommandsEnd0.onLamp fun l => { l with
      queue := List.replicate 32 ⟨1000, 0, true, 1⟩ }

/-- A node for the witness of LampCommandsEnd: the queue is full and no pass runs. -/
def atLampCommandsEnd6 : State := atLampCommandsEnd5.onLamp fun l => { l with
      scanRunning := false, scanTimer := none }

theorem test_LampCommandsEnd_with_a_queue :
    (atLampCommandsEnd3.lamp.outFor 1999 = some ⟨1999, 1, true, 1⟩) ∧ (atLampCommandsEnd3.mode ≠ .halted) ∧
    (∀ q ∈ atLampCommandsEnd3.lamp.queue, q.ext ≠ 1999) ∧ (atLampCommandsEnd3.lamp.queue.length < 32) ∧
    (∀ p ∈ atLampCommandsEnd3.lamp.outstanding, p.1.ext ≠ 1000) ∧
    (atLampCommandsEnd3.lamp.outstanding.length < 4) ∧
    (atLampCommandsEnd3.lamp.queue = [] ++ ⟨1000, 0, true, 1⟩ :: []) ∧
    (atLampCommandsEnd4.lamp.outFor 1999 = some ⟨1999, 1, true, 1⟩) ∧
    (∃ q ∈ atLampCommandsEnd4.lamp.queue, q.ext = 1999) ∧
    (∀ q ∈ atLampCommandsEnd4.lamp.queue, ∃ p ∈ atLampCommandsEnd4.lamp.outstanding, p.1.ext = q.ext) ∧
    (atLampCommandsEnd5.lamp.outFor 1999 = some ⟨1999, 1, true, 1⟩) ∧
    (∀ q ∈ atLampCommandsEnd5.lamp.queue, q.ext ≠ 1999) ∧ (atLampCommandsEnd5.lamp.queue.length = 32) ∧
    (atLampCommandsEnd5.lamp.scanRunning = true) ∧
    (atLampCommandsEnd6.lamp.outFor 1999 = some ⟨1999, 1, true, 1⟩) ∧
    (atLampCommandsEnd6.lamp.queue.length = 32) ∧ (atLampCommandsEnd6.lamp.scanRunning = false) ∧
    (atLampCommandsEnd6.cfg.scanContinuous = false) ∧ (atLampCommandsEnd6.cfg.scanStart ≤ 1) ∧
    (1 ≤ atLampCommandsEnd6.cfg.scanEnd) ∧ (atLampCommandsEnd6.mode = .serving) := by decide +kernel

/-- A node for the witness of ScanStepExaminesOneMailbox. -/
def atScanStepExaminesOneMailbox1 : State := up.onLamp fun l => { l with
      scanPos := 2
      recs := l.recs.modify 2 fun r => { r with flag := true } }

/-- A node for the witness of ScanStepExaminesOneMailbox. -/
def atScanStepExaminesOneMailbox2 : State := up.onLamp fun l => { l with
      queue := List.replicate 32 ⟨1000, 0, true, 1⟩
      scanPos := 2
      recs := l.recs.modify 2 fun r => { r with flag := true } }

theorem test_ScanStepExaminesOneMailbox :
    (up.mode = .serving ∨ up.mode = .draining) ∧
    (up.lamp.scanRunning = true) ∧
    (up.lamp.scanTimer.isSome = true) ∧
    (up.lamp.scanPos = 0) ∧
    (0 < up.cfg.scanEnd) ∧
    ((up.lampRec 0).reported = (if (up.lampRec 0).desired = true then .on else .off)) ∧
    ((up.lampRec 0).flag = false) ∧
    (up.cfg.refreshAll = false) ∧
    (atScanStepExaminesOneMailbox1.lamp.scanPos = 2) ∧
    (2 < atScanStepExaminesOneMailbox1.cfg.scanEnd) ∧
    ((atScanStepExaminesOneMailbox1.mbCfg 2).usable = true) ∧
    ((atScanStepExaminesOneMailbox1.lampRec 2).reported ≠ (if (atScanStepExaminesOneMailbox1.lampRec
      2).desired = true then .on else .off) ∨ (atScanStepExaminesOneMailbox1.lampRec 2).flag = true ∨
      atScanStepExaminesOneMailbox1.cfg.refreshAll = true) ∧
    (atScanStepExaminesOneMailbox1.lamp.queue = []) ∧
    (atScanStepExaminesOneMailbox1.lamp.outstanding = []) ∧
    (atScanStepExaminesOneMailbox2.lamp.scanPos = 2) ∧
    ((atScanStepExaminesOneMailbox2.mbCfg 2).usable = true) ∧
    ((atScanStepExaminesOneMailbox2.lampRec 2).flag = true) ∧
    (atScanStepExaminesOneMailbox2.lamp.queue.length = 32) ∧
    (∀ q ∈ atScanStepExaminesOneMailbox2.lamp.queue, q.ext ≠ (atScanStepExaminesOneMailbox2.mbCfg
      2).extension) := by decide

/-- The scan at its end, which mailbox 3 stands at with its scan flag set. -/
def atScanStepExaminesOneMailbox3 : State := up.onLamp fun l => { l with scanPos := 3 }

/-- The scan at its end, with no scan flag set. -/
def atScanStepExaminesOneMailbox4 : State := atScanStepExaminesOneMailbox3.onLamp fun l => { l with
      recs := l.recs.map fun r => { r with flag := false } }

theorem test_ScanStepExaminesOneMailbox_at_the_end :
    (atScanStepExaminesOneMailbox3.lamp.scanPos = 3) ∧ (atScanStepExaminesOneMailbox3.cfg.scanEnd ≤ 3) ∧
    ((atScanStepExaminesOneMailbox3.mbCfg 3).usable = false) ∧
    (atScanStepExaminesOneMailbox3.lamp.recs[3]? = some ⟨false, .unknown, true⟩) ∧
    (atScanStepExaminesOneMailbox3.scanStep.lamp.scanPos = 0) ∧
    (atScanStepExaminesOneMailbox4.cfg.scanContinuous = false) ∧
    (∀ r ∈ atScanStepExaminesOneMailbox4.lamp.recs, r.flag = false) ∧
    (atScanStepExaminesOneMailbox4.scanStep.lamp.scanRunning = false) := by decide

/-- A node for the witness of LineResetClearsLampsAndChannels. -/
def atLineResetClearsLampsAndChannels0 : State := { up with mode := .stopped }

/-- A node for the witness of LineResetClearsLampsAndChannels. -/
def atLineResetClearsLampsAndChannels1 : State := { upCh (fun c => { c with state := .main }) with
      mode := .draining }

/-- A node for the witness of LineResetClearsLampsAndChannels. -/
def atLineResetClearsLampsAndChannels2 : State := { up with mode := .halted }

theorem test_LineResetClearsLampsAndChannels :
    (atLineResetClearsLampsAndChannels0.mode = .starting ∨ atLineResetClearsLampsAndChannels0.mode =
      .stopped) ∧
    (atLineResetClearsLampsAndChannels1.mode = .serving ∨ atLineResetClearsLampsAndChannels1.mode =
      .draining) ∧
    (wfGathered (some loudSeg) = true) ∧
    (atLineResetClearsLampsAndChannels1.chans.length = 16) ∧
    ((atLineResetClearsLampsAndChannels1.ch 15).state ≠ .idle) ∧
    (∀ p ∈ [((15 : Nat), loudSeg)], p.1 ≤ 15 ∧ wfSegment p.2 = true) ∧
    (atLineResetClearsLampsAndChannels2.mode = .halted) := by decide +kernel

/-- A node for the witness of AlarmsLatchAndAreReported. -/
def atAlarmsLatchAndAreReported0 : State := { up with alarms := [.linkAlone] }

theorem test_AlarmsLatchAndAreReported :
    (Alarm.linkAlone ∈ atAlarmsLatchAndAreReported0.alarms) ∧
    (Alarm.storeLow ∉ atAlarmsLatchAndAreReported0.alarms) := by decide

/-- A node for the witness of PortCountsWhatItDiscards. -/
def atPortCountsWhatItDiscards0 : State := { up with discarded := 65534 }

theorem test_PortCountsWhatItDiscards :
    (decodeRecord ⟨8, 0, 1, [0]⟩ = none) ∧
    (decodeRecord ⟨9, 0, 0, []⟩ = some .shutdown) := by decide

/-- A node for the witness of ClockIsSetAndAdvances. -/
def atClockIsSetAndAdvances0 : State := { up with mode := .stopped }

/-- A node for the witness of ClockIsSetAndAdvances. -/
def atClockIsSetAndAdvances1 : State := { up with house := { up.house with clock := some (100, 1439) } }

/-- A node for the witness of ClockIsSetAndAdvances. -/
def atClockIsSetAndAdvances2 : State := { up with house := { up.house with clock := some (65535, 1439) } }

/-- A node for the witness of ClockIsSetAndAdvances. -/
def atClockIsSetAndAdvances3 : State := { up with house := { up.house with clock := some (65535, 1438) } }

/-- A node for the witness of ClockIsSetAndAdvances. -/
def atClockIsSetAndAdvances4 : State := { up with house := Housekeeping.fresh, mode := .halted }

theorem test_ClockIsSetAndAdvances :
    (atClockIsSetAndAdvances0.mode ≠ .halted) ∧
    (atClockIsSetAndAdvances0.mode ≠ .serving) ∧
    (atClockIsSetAndAdvances0.house.sched ≠ .waiting) ∧
    (1439 ≤ 1439) ∧
    (65535 ≤ 65535) ∧
    (atClockIsSetAndAdvances1.house.clock = some (100, 1439)) ∧
    (atClockIsSetAndAdvances1.house.minuteTimer = some 60000) ∧
    (atClockIsSetAndAdvances2.house.clock = some (65535, 1439)) ∧
    (atClockIsSetAndAdvances2.house.minuteTimer = some 60000) ∧
    (atClockIsSetAndAdvances3.house.clock = some (65535, 1438)) ∧
    (atClockIsSetAndAdvances3.house.minuteTimer = some 60000) ∧
    (atClockIsSetAndAdvances4.house.clock = none) ∧
    (1439 < 1440 ∨ atClockIsSetAndAdvances4.mode = .halted) := by decide

/-- A node that waits for its next attempt at the pass of day 100. -/
def waitingAt : State := { up with
      house := { up.house with
        sched := .waiting, postponeTimer := some 600000, postponements := 1, lastPassDay := some 99 } }

/-- A node in SERVING at a minute of day 101, the pass of day 100 made, with so many postponements. -/
def dueAt (minute postponements : Nat) : State := { (upCh fun c => { c with state := .main }) with
      house := { up.house with
        clock := some (101, minute), lastPassDay := some 100, postponements := postponements } }

/-- The same with no channel allowed to be busy. -/
def busyAt (minute postponements : Nat) : State := { dueAt minute postponements with
      cfg := { smallCfg with chanThreshold := 0 } }

theorem test_ClockIsSetAndAdvances_pass_due :
    ((dueAt 180 0).mode = .serving) ∧ ((dueAt 180 0).house.sched = .idle) ∧
    ((dueAt 180 0).house.clock = some (101, 180)) ∧ ((dueAt 180 0).house.lastPassDay = some 100) ∧
    (100 < 101) ∧ ((dueAt 180 0).cfg.passHour * 60 ≤ 180) ∧
    ((dueAt 180 0).causes = ⟨false, false, false⟩) ∧
    ((busyAt 180 5).causes = ⟨true, false, false⟩) ∧ ((busyAt 180 5).house.postponements < 6) ∧
    (6 ≤ (busyAt 180 6).house.postponements) ∧
    (179 < (dueAt 179 0).cfg.passHour * 60) ∧
    ((dueAt 1438 0).house.minuteTimer.isSome = true) ∧
    ({ dueAt 180 0 with startStep := .headerWrite false 1 }.startStep = .headerWrite false 1) ∧
    (waitingAt.house.sched = .waiting) ∧
    (waitingAt.house.lastPassDay = some 99) := by decide

/-- A node for the witness of PostponedPassIsTriedAgain. -/
def atPostponedPassIsTriedAgain0 : State := { up with
      house := { up.house with
        sched := .waiting
        postponeTimer := some 600000
        postponements := 5
        lastPassDay := some 99 } }

/-- A node for the witness of PostponedPassIsTriedAgain. -/
def atPostponedPassIsTriedAgain1 : State := { (upCh fun c => { c with state := .main }) with
      house := { up.house with
        sched := .waiting
        postponeTimer := some 600000
        postponements := 5
        lastPassDay := some 99 }
      cfg := { smallCfg with chanThreshold := 0 } }

/-- A node for the witness of PostponedPassIsTriedAgain. -/
def atPostponedPassIsTriedAgain2 : State := { (upCh fun c => { c with state := .main }) with
      house := { up.house with
        sched := .waiting
        postponeTimer := some 600000
        postponements := 6
        lastPassDay := some 99 }
      cfg := { smallCfg with chanThreshold := 0 } }

theorem test_PostponedPassIsTriedAgain :
    (atPostponedPassIsTriedAgain0.house.sched = .waiting) ∧
    (atPostponedPassIsTriedAgain0.house.postponeTimer.isSome = true) ∧
    (atPostponedPassIsTriedAgain0.house.clock = some (100, 1439)) ∧
    (atPostponedPassIsTriedAgain0.causes = ⟨false, false, false⟩) ∧
    (atPostponedPassIsTriedAgain1.house.sched = .waiting) ∧
    (atPostponedPassIsTriedAgain1.house.postponements < 6) ∧
    (atPostponedPassIsTriedAgain1.causes = ⟨true, false, false⟩) ∧
    (atPostponedPassIsTriedAgain2.house.sched = .waiting) ∧
    (atPostponedPassIsTriedAgain2.house.postponements = 6) ∧
    (atPostponedPassIsTriedAgain2.causes = ⟨true, false, false⟩) := by decide

/-- A node for the witness of PassVisitsAndExpires. -/
def atPassVisitsAndExpires0 : State := { up with
      house := { up.house with sched := .running, passPos := 0, passDay := 114, passTime := 164160 }
      mailboxes := up.mailboxes.modify 0 fun m => { m with
        entries := [smallEntry 1 .new, { smallEntry 2 .heard with
          changeDay := some 100 }, { smallEntry 3 .heard with changeDay := some 101 }] } }

/-- A node for the witness of PassVisitsAndExpires. -/
def atPassVisitsAndExpires1 : State := { up with
      house := { up.house with sched := .running, passPos := 3 }
      mailboxes := up.mailboxes.modify 3 fun m => { m with lock := some 0 } }

theorem test_PassVisitsAndExpires :
    (atPassVisitsAndExpires0.house.sched = .running) ∧
    (atPassVisitsAndExpires0.house.passPos = 0) ∧
    (0 < atPassVisitsAndExpires0.mailboxes.length) ∧
    (((atPassVisitsAndExpires0.mb 0).entries.map (·.number)).Nodup) ∧
    ((atPassVisitsAndExpires0.mb 0).lock = none) ∧
    (0 + 1 < atPassVisitsAndExpires0.cfg.mailboxes.length) ∧
    (atPassVisitsAndExpires1.house.passPos = 3) ∧
    (3 < atPassVisitsAndExpires1.mailboxes.length) ∧
    ((atPassVisitsAndExpires1.mb 3).lock.isSome = true) ∧
    (atPassVisitsAndExpires1.cfg.mailboxes.length ≤ 3 + 1) := by decide

/-- A node for the witness of PassVisitsAndExpires: the ABSENCE slot's end day is yesterday. -/
def atPassVisitsAndExpires2 : State := atPassVisitsAndExpires0.onMb 0 fun m => { m with
      entries := [], absence := some 1, endDay := some 113 }

/-- A node for the witness of PassVisitsAndExpires: its end day is today. -/
def atPassVisitsAndExpires3 : State := atPassVisitsAndExpires2.onMb 0 fun m => { m with
      endDay := some 114 }

theorem test_PassVisitsAndExpires_absence :
    (atPassVisitsAndExpires2.house.sched = .running) ∧ (atPassVisitsAndExpires2.house.passPos = 0) ∧
    ((atPassVisitsAndExpires2.mb 0).lock = none) ∧ ((atPassVisitsAndExpires2.mb 0).absence = some 1) ∧
    ((atPassVisitsAndExpires2.mb 0).endDay = some 113) ∧ (113 < atPassVisitsAndExpires2.house.passDay) ∧
    ((atPassVisitsAndExpires2.mb 0).entries = []) ∧ ((atPassVisitsAndExpires3.mb 0).lock = none) ∧
    ((atPassVisitsAndExpires3.mb 0).endDay = some 114) ∧ (atPassVisitsAndExpires3.house.passDay ≤ 114) ∧
    ((atPassVisitsAndExpires3.mb 0).entries = []) := by decide

/-- A node for the witness of LinkTimersAndMediumFaults. -/
def atLinkTimersAndMediumFaults0 : State := { up with link := { up.link with aloneTimer := some 1 } }

/-- A node for the witness of LinkTimersAndMediumFaults. -/
def atLinkTimersAndMediumFaults1 : State := { up with link := LinkCtl.fresh }

/-- A node for the witness of LinkTimersAndMediumFaults. -/
def atLinkTimersAndMediumFaults2 : State := (up.onPresence 30 fun _ => ⟨true, some 3, some 30000⟩).onDeliv fun d => { d with
      routes := [(2000, 30), (2001, 29)]
      queue := d.queue.set 63 (some { queued with location := some 30 }) }

/-- A node for the witness of LinkTimersAndMediumFaults. -/
def atLinkTimersAndMediumFaults3 : State := { up with link := { up.link with state := .faulted } }

theorem test_LinkTimersAndMediumFaults :
    (atLinkTimersAndMediumFaults0.link.hailTimer.isSome = true) ∧
    (atLinkTimersAndMediumFaults0.generation = some 7) ∧
    (atLinkTimersAndMediumFaults0.link.state = .active) ∧
    (atLinkTimersAndMediumFaults0.mode = .serving) ∧
    (∀ x ∈ atLinkTimersAndMediumFaults0.link.sendList, x.req ≠ .hail) ∧
    (atLinkTimersAndMediumFaults0.link.aloneTimer.isSome = true) ∧
    (atLinkTimersAndMediumFaults0.link.state = .joining ∨ atLinkTimersAndMediumFaults0.link.state =
      .active) ∧
    (atLinkTimersAndMediumFaults0.link.sendList = []) ∧
    (atLinkTimersAndMediumFaults1.link.state = .joining) ∧
    (atLinkTimersAndMediumFaults1.link.joinTimer.isSome = true) ∧
    (1 ≤ 30) ∧
    (30 ≤ 30) ∧
    (atLinkTimersAndMediumFaults2.presence 30 = ⟨true, some 3, some 30000⟩) ∧
    (atLinkTimersAndMediumFaults2.mode = .serving) ∧
    (atLinkTimersAndMediumFaults3.mode = .serving) ∧
    (atLinkTimersAndMediumFaults3.link.state = .faulted) := by decide

/-- A node whose link has failed, with eight answers waiting and a transfer in slot 1. -/
def silencedLink (st : OutState) (wants : Option Frame) : State := { up with
      link := { up.link with state := .muted }
      deliv := { up.deliv with
        answers := List.replicate 8 ⟨12, 30, 1, .take⟩
        outSlots := up.deliv.outSlots.set 1 { OutSlot.blank with state := st, wants := wants } } }

theorem test_LinkTimersAndMediumFaults_lost :
    ((silencedLink .offering none).link.state = .muted) ∧
    ((silencedLink .offering none).link.sendList = []) ∧
    ((silencedLink .offering none).deliv.answers.length ≤ 8) ∧
    (((silencedLink .offering none).outSlot 1).wants = none) ∧
    (((silencedLink .offering none).outSlot 1).state ≠ .free) ∧
    (((silencedLink .offering none).outSlot 1).state ≠ .finishing) ∧
    (((silencedLink .finishing none).outSlot 1).state = .finishing) ∧
    (((silencedLink .finishing none).outSlot 0).state = .free) ∧
    (((silencedLink .closing (some ⟨12, 30, 1, .take⟩)).outSlot 1).wants =
      some ⟨12, 30, 1, .take⟩) ∧
    ({ silencedLink .offering none with link := { up.link with
        sendList := [waiting .hail 31 (.hail 7), waiting (.outSlot 1) 30 .take] } }.link.state =
      .active) ∧
    ((silencedLink .offering none).mode ≠ .stopped) ∧ ((silencedLink .offering none).mode ≠ .halted) := by
  decide

/-- A node for the witness of FirstInOrderIsTaken. -/
def atFirstInOrderIsTaken0 : State := { up with
      deliv := { up.deliv with
        queue := (up.deliv.queue.set 63 (some queued)).set 0 (some { queued with
          list := true
          node := some 1
          urgent := true }) } }

/-- A node for the witness of FirstInOrderIsTaken. -/
def atFirstInOrderIsTaken1 : State := { up with
      deliv := { up.deliv with queue := up.deliv.queue.set 63 (some queued) } }

theorem test_FirstInOrderIsTaken :
    (nextFrame [waiting .answers 3 .take, waiting (.outSlot 0) 3 .take] = some (waiting (.outSlot 0) 3
      .take)) ∧
    (nextFrame [{ waiting .hail 31 (.hail 7) with wait := some 5 }] = none) ∧
    (atFirstInOrderIsTaken0.mode = .serving) ∧
    (atFirstInOrderIsTaken0.freeOut = some 0) ∧
    (firstEligible 0 atFirstInOrderIsTaken0.deliv.queue = some (0, { queued with
        list := true
        node := some 1
        urgent := true })) ∧
    (atFirstInOrderIsTaken0.isPresent 1 = false) ∧
    (atFirstInOrderIsTaken1.freeOut = some 0) ∧
    (firstEligible 0 atFirstInOrderIsTaken1.deliv.queue = some (63, queued)) ∧
    (queued.list = false) := by decide

/-- The entry waits for extension 2000, whose route names node 30, and slot 1 is free. -/
def atFirstInOrderIsTaken2 : State := atFirstInOrderIsTaken1.onDeliv fun d => { d with
      routes := [(1000, 1), (2000, 30)]
      tagCounter := 254
      seekCounter := 65535
      outSlots := [{ OutSlot.blank with state := .carrying, tag := 255 }, OutSlot.blank] }

/-- The same without the route. -/
def atFirstInOrderIsTaken3 : State := atFirstInOrderIsTaken2.onDeliv fun d => { d with
      routes := [(1000, 1)] }

/-- The entry is located at node 30, which is present. -/
def atFirstInOrderIsTaken4 : State := (atFirstInOrderIsTaken2.onPresence 30 fun _ =>
      ⟨true, none, some 1⟩).onQ 63 fun e => { e with location := some 30 }

theorem test_FirstInOrderIsTaken_ranks :
    (∀ i, requesterRank (.outSlot i) = i) ∧ (∀ j, requesterRank (.inSlot j) = 2 + j) ∧
    requesterRank .answers = 6 ∧ requesterRank .hail = 7 :=
  ⟨fun _ => rfl, fun _ => rfl, rfl, rfl⟩

/-- R120, R137: the last outbound slot before the first inbound one, an older frame before a lower rank, a lower
priority before an older frame; an urgent entry before a lower sequence. -/
theorem test_orders_of_r120_and_r137 :
    (waiting (.outSlot 1) 3 .take).before (waiting (.inSlot 0) 3 .take) = true ∧
    ({ waiting (.outSlot 0) 3 .take with handed := 2 }).before
      { waiting .hail 31 (.hail 7) with handed := 1 } = false ∧
    ({ waiting .hail 31 (.hail 7) with priority := 2, handed := 2 }).before
      (waiting (.outSlot 0) 3 .take) = true ∧
    ({ queued with urgent := true, seq := 9 }).before { queued with urgent := false, seq := 8 } = true ∧
    ({ queued with seq := 8 }).before { queued with seq := 8 } = false := by decide

theorem test_FirstInOrderIsTaken_slots :
    (atFirstInOrderIsTaken2.freeOut = some 1) ∧ (1 < atFirstInOrderIsTaken2.deliv.outSlots.length) ∧
    (atFirstInOrderIsTaken2.newTag 1 = 1) ∧ (atFirstInOrderIsTaken2.qEntry? 63 = some queued) ∧
    (queued.location = none) ∧
    (((atFirstInOrderIsTaken2.takeEntry 1 63 queued).outSlot 1).dest = some 30) ∧
    ((atFirstInOrderIsTaken2.takeEntry 1 63 queued).deliv.routes = [(2000, 30), (1000, 1)]) ∧
    (((atFirstInOrderIsTaken3.takeEntry 1 63 queued).outSlot 1).seek = some ⟨1, 2000, none⟩) ∧
    ((atFirstInOrderIsTaken3.takeEntry 1 63 queued).link.sendList.map (·.frame) =
      [⟨12, 31, 1, .seek 1 2000⟩]) ∧
    (atFirstInOrderIsTaken4.qEntry? 63 = some { queued with location := some 30 }) ∧
    (atFirstInOrderIsTaken4.isPresent 30 = true) := by decide +kernel

/-- A node for the witness of FramesAreSentToTheirOutcome. -/
def atFramesAreSentToTheirOutcome0 : State := { up with
      link := { up.link with sendList := [waiting (.inSlot 3) 30 .take], transmitting := none } }

/-- A node for the witness of FramesAreSentToTheirOutcome. -/
def atFramesAreSentToTheirOutcome1 : State := (up.onPresence 30 fun _ => ⟨true, none, some 1⟩).onLink fun l => { l with
      sendList := [{ waiting (.inSlot 3) 30 .take with silence := 2, busy := 31 }]
      transmitting := some (.inSlot 3)
      muteCount := 1 }

/-- A node for the witness of FramesAreSentToTheirOutcome. -/
def atFramesAreSentToTheirOutcome2 : State := (up.onPresence 30 fun _ => ⟨true, none, some 1⟩).onLink fun l => { l with
      sendList := [{ waiting (.inSlot 3) 30 .take with silence := 3, busy := 32 }]
      transmitting := some (.inSlot 3)
      muteCount := 1 }

/-- A node for the witness of FramesAreSentToTheirOutcome. -/
def atFramesAreSentToTheirOutcome3 : State := { up with
      link := { up.link with
        sendList := [{ waiting .hail 31 (.hail 7) with wait := some 5 }]
        transmitting := some .hail } }

theorem test_FramesAreSentToTheirOutcome :
    (atFramesAreSentToTheirOutcome0.link.state = .active) ∧
    (atFramesAreSentToTheirOutcome0.mode = .serving) ∧
    (atFramesAreSentToTheirOutcome0.link.transmitting = none) ∧
    (nextFrame atFramesAreSentToTheirOutcome0.link.sendList = some (waiting (.inSlot 3) 30 .take)) ∧
    (atFramesAreSentToTheirOutcome1.link.transmitting = some (.inSlot 3)) ∧
    (atFramesAreSentToTheirOutcome1.link.itemOf (.inSlot 3) = some { waiting (.inSlot 3) 30 .take with
        silence := 2
        busy := 31 }) ∧
    (atFramesAreSentToTheirOutcome1.isPresent 30 = true) ∧
    (atFramesAreSentToTheirOutcome1.link.transmitting.isSome = true) ∧
    (atFramesAreSentToTheirOutcome1.link.muteCount < 2) ∧
    (atFramesAreSentToTheirOutcome2.link.transmitting = some (.inSlot 3)) ∧
    (atFramesAreSentToTheirOutcome2.link.itemOf (.inSlot 3) = some { waiting (.inSlot 3) 30 .take with
        silence := 3
        busy := 32 }) ∧
    (({ waiting (.inSlot 3) 30 .take with silence := 3, busy := 32 }).silence = 3) ∧
    (atFramesAreSentToTheirOutcome2.mode = .serving) ∧
    (atFramesAreSentToTheirOutcome3.link.transmitting = some .hail) ∧
    (atFramesAreSentToTheirOutcome3.link.itemOf .hail = some { waiting .hail 31 (.hail 7) with
        wait := some 5 }) := by decide

/-- Slot 1 carries the entry of position 63 to node 30, its frame the last of four silences or 33 BUSYs. -/
def carryingOn1 (st : OutState) (next : Nat) (dest : Nat) : State :=
  (((up.onPresence 30 fun _ => ⟨true, none, some 1⟩).onLink fun l => { l with
      sendList := [{ waiting (.outSlot 1) dest .take with silence := 3, busy := 32 }]
      transmitting := some (.outSlot 1) })).onDeliv fun d => { d with
        queue := d.queue.set 63 (some { queued with carried := true })
        outSlots := d.outSlots.set 1 { OutSlot.blank with
          state := st, pos := 63, dest := some 30, tag := 1, nextIndex := next } }

/-- A node whose link is muted. -/
def atFramesAreSentToTheirOutcome4 : State := { up with link := { up.link with state := .muted } }

theorem test_FramesAreSentToTheirOutcome_of_a_slot :
    ((carryingOn1 .carrying 15 30).link.transmitting = some (.outSlot 1)) ∧
    ((carryingOn1 .carrying 15 30).link.itemOf (.outSlot 1) =
      some { waiting (.outSlot 1) 30 .take with silence := 3, busy := 32 }) ∧
    ((carryingOn1 .carrying 15 30).isPresent 30 = true) ∧
    (((carryingOn1 .carrying 15 30).outSlot 1).wants = none) ∧
    ((carryingOn1 .carrying 15 30).qEntry? 63 = some { queued with carried := true }) ∧
    ((carryingOn1 .carrying 15 30).obj? 1 = some ⟨true, .message, [0, 1], 16, 1, some 0, 0, 0⟩) ∧
    ((((carryingOn1 .carrying 14 30).dropItem (.outSlot 1)).carryOn 1).link.sendList.map (·.frame) =
      [⟨12, 30, 1, .carry 14 (audioRead [] 14)⟩]) ∧
    ((((carryingOn1 .carrying 16 30).dropItem (.outSlot 1)).carryOn 1).link.sendList.map (·.frame) =
      [⟨12, 30, 1, .close 16⟩]) ∧
    (((carryingOn1 .locating 0 31).outSlot 1).state = .locating) ∧
    ((∃ y ∈ (carryingOn1 .offering 0 30).link.sendList, y.req = .outSlot 1)) ∧
    ((∀ y ∈ up.link.sendList, y.req ≠ .outSlot 1) ∧ up.link.state = .active) ∧
    ((∀ y ∈ atFramesAreSentToTheirOutcome4.link.sendList, y.req ≠ .outSlot 1) ∧
      atFramesAreSentToTheirOutcome4.link.state = .muted) ∧
    (((carryingOn1 .finishing 0 30).outSlot 1).state = .finishing) ∧
    (((carryingOn1 .closing 0 30).outSlot 1).state = .closing) ∧
    ((((carryingOn1 .carrying 0 30).onOut 1 fun o => { o with
      wants := some ⟨12, 30, 1, .take⟩ }).outSlot 1).wants = some ⟨12, 30, 1, .take⟩) := by decide +kernel

/-- Node 30 is absent when it answers, the third bit error is due, and the link is alone. -/
def atFramesAreSentToTheirOutcome5 : State := { up with
      link := { up.link with
        sendList := [{ waiting (.inSlot 3) 30 .take with silence := 2, busy := 31 }]
        transmitting := some (.inSlot 3), muteCount := 2, alone := true, aloneTimer := some 1 }
      deliv := { up.deliv with routes := [(2000, 30)] } }

theorem test_FramesAreSentToTheirOutcome_refreshed :
    (atFramesAreSentToTheirOutcome5.link.transmitting.isSome = true) ∧
    (2 ≤ atFramesAreSentToTheirOutcome5.link.muteCount) ∧
    (atFramesAreSentToTheirOutcome5.link.itemOf (.inSlot 3) =
      some { waiting (.inSlot 3) 30 .take with silence := 2, busy := 31 }) ∧
    atFramesAreSentToTheirOutcome5.RefreshedTo 30 (atFramesAreSentToTheirOutcome5.refresh 30) ∧
    atFramesAreSentToTheirOutcome1.RefreshedTo 30 (atFramesAreSentToTheirOutcome1.refresh 30) :=
  ⟨by decide, by decide, by decide, .inr ⟨by decide, by decide⟩, .inl ⟨by decide, by decide⟩⟩

/-- A node for the witness of HeardFramesAreTaken. -/
def atHeardFramesAreTaken0 : State := (up.onPresence 30 fun _ => ⟨true, none, some 1⟩).onLink fun l => { l with
      buffer := List.replicate 7 ⟨1, 12, 1, .take⟩ }

/-- A node for the witness of HeardFramesAreTaken. -/
def atHeardFramesAreTaken1 : State := (up.onPresence 30 fun _ => ⟨true, none, some 1⟩).onLink fun l => { l with
      buffer := List.replicate 8 ⟨1, 12, 1, .take⟩ }

theorem test_HeardFramesAreTaken :
    ((encodeFrame 6 ⟨30, 31, 0, .hail 65535⟩).intact = true) ∧
    (atHeardFramesAreTaken0.mode = .serving) ∧
    (atHeardFramesAreTaken0.link.state = .active) ∧
    ((encodeFrame 6 ⟨30, 31, 0, .hail 65535⟩).source.toNat = 30) ∧
    (atHeardFramesAreTaken0.isPresent 30 = true) ∧
    (atHeardFramesAreTaken0.link.buffer.length < 8) ∧
    (decodeFrame (encodeFrame 6 ⟨30, 31, 0, .hail 65535⟩) = some ⟨30, 31, 0, .hail 65535⟩) ∧
    ((encodeFrame 4 ⟨30, 12, 255, .offer ⟨true, false, 31, 16, none, none⟩⟩).intact = true) ∧
    (decodeFrame (encodeFrame 4 ⟨30, 12, 255, .offer ⟨true, false, 31, 16, none, none⟩⟩) = some ⟨30, 12,
      255, .offer ⟨true, false, 31, 16, none, none⟩⟩) ∧
    (8 ≤ atHeardFramesAreTaken1.link.buffer.length) ∧
    ((encodeFrame 4 ⟨30, 12, 255, .offer ⟨true, false, 31, 16, none, none⟩⟩).dest.toNat =
      atHeardFramesAreTaken1.cfg.node) ∧
    ((encodeFrame 6 ⟨12, 31, 0, .hail 1⟩).intact = true) ∧
    ((encodeFrame 6 ⟨12, 31, 0, .hail 1⟩).source.toNat = up.cfg.node) ∧
    (up.link.sendList = []) ∧
    (({ encodeFrame 6 ⟨12, 31, 0, .hail 1⟩ with crc := 0 } : RawFrame).intact = false) := by decide +kernel

theorem test_HeardFramesAreTaken_absent_source :
    (atFramesAreSentToTheirOutcome5.link.state ≠ .faulted) ∧
    (atFramesAreSentToTheirOutcome5.mode ≠ .stopped) ∧ (atFramesAreSentToTheirOutcome5.mode ≠ .halted) ∧
    ((encodeFrame 6 ⟨30, 31, 0, .hail 65535⟩).source.toNat ≠ atFramesAreSentToTheirOutcome5.cfg.node) ∧
    ((encodeFrame 1 ⟨30, 11, 1, .take⟩).intact = true) ∧
    (decodeFrame (encodeFrame 1 ⟨30, 11, 1, .take⟩) = some ⟨30, 11, 1, .take⟩) ∧
    ((encodeFrame 1 ⟨30, 11, 1, .take⟩).dest.toNat ≠ atFramesAreSentToTheirOutcome5.cfg.node) ∧
    (atLinkTimersAndMediumFaults1.link.state ≠ .active) ∧
    (atLinkTimersAndMediumFaults1.link.state ≠ .faulted) := by decide +kernel

/-- The small node with an inbound transfer of node 30 under tag 255 and an outbound one to it under tag 7. -/
def transferring (st : InState) : State := (up.onPresence 30 fun _ => ⟨true, none, some 1⟩).onDeliv fun d =>
      { d with
        inSlots := d.inSlots.set 3 { InSlot.blank with
          state := st, source := 30, tag := 255, object := 2, offered := 16, received := 8, accept := 9 }
        outSlots := d.outSlots.set 1 { OutSlot.blank with
          state := .offering, tag := 7, dest := some 30, seek := some ⟨65535, 2000, none⟩ } }

/-- A frame of node 30 to this node. -/
def from30 (tag : Nat) (b : Body) : RawFrame := encodeFrame 3 ⟨30, 12, tag, b⟩

theorem from30_intact (tag : Nat) (b : Body) : (from30 tag b).intact = true := by
  simp [from30, encodeFrame, RawFrame.intact, RawFrame.crcBits, Config.nodes]

theorem from30_head (tag : Nat) (b : Body) :
    (from30 tag b).source.toNat = 30 ∧ (from30 tag b).dest.toNat = 12 := ⟨rfl, rfl⟩

theorem test_HeardFramesAreTaken_frames :
    (∀ x ∈ [(255, Body.close 16), (254, .close 16), (7, .take), (7, .balk .store), (7, .receipt true),
        (8, .take), (1, .claim 65535 2000), (1, .claim 65534 2000)],
      decodeFrame (from30 x.1 x.2) = some ⟨30, 12, x.1, x.2⟩) ∧
    (decodeFrame (encodeFrame 3 ⟨30, 31, 1, .seek 65535 1999⟩) = some ⟨30, 31, 1, .seek 65535 1999⟩) ∧
    (decodeFrame (from30 1 (.offer ⟨false, false, 1999, 15, none, none⟩)) = none) := by decide +kernel

theorem from30_carry (i : Nat) (h : i ∈ [8, 9, 10]) :
    decodeFrame (from30 255 (.carry i loudSeg)) = some ⟨30, 12, 255, .carry i loudSeg⟩ := by
  have e : ∀ i ∈ [8, 9, 10], decodeBody 7 (500 * 2047) (encodeBody (.carry i loudSeg)) =
      some (.carry i loudSeg) := by decide +kernel
  have hb : ∀ f : Frame, decodeFrame (encodeFrame 3 f) =
      match decodeBody (BitVec.ofNat 4 f.body.code).toNat f.body.magnitude (encodeBody f.body) with
      | none => none
      | some b =>
        if b.toAll == ((BitVec.ofNat 5 f.dest).toNat == Config.allNodes) then
          some ⟨(BitVec.ofNat 5 f.source).toNat, (BitVec.ofNat 5 f.dest).toNat,
            (BitVec.ofNat 8 f.tag).toNat, b⟩
        else none := fun _ => rfl
  have h7 : (BitVec.ofNat 4 (Body.carry i loudSeg).code).toNat = 7 := rfl
  have hm : (Body.carry i loudSeg).magnitude = 500 * 2047 := rfl
  rw [from30, hb, h7, hm, e i h]
  simp [Body.toAll, Config.allNodes]

theorem test_HeardFramesAreTaken_slots :
    (∀ st ∈ [InState.filling, .committed],
      (transferring st).inByKey 30 255 = some 3 ∧ (transferring st).inByKey 30 254 = none ∧
      ((transferring st).inSlot 3).state = st ∧ ((transferring st).inSlot 3).accept = 9 ∧
      ((transferring st).inSlot 3).offered = 16 ∧ ((transferring st).inSlot 3).received = 8) ∧
    (∃ o ∈ (transferring .filling).deliv.outSlots, o.state ≠ .free ∧ o.tag = 7 ∧ o.dest = some 30) ∧
    (∀ o ∈ (transferring .filling).deliv.outSlots, o.state = .free ∨ o.tag ≠ 8 ∨ o.dest ≠ some 30) ∧
    (∃ o ∈ (transferring .filling).deliv.outSlots, o.seek = some ⟨65535, 2000, none⟩) ∧
    ((transferring .filling).link.state = .active) ∧ ((transferring .filling).mode = .serving) ∧
    ((transferring .filling).link.buffer.length < 8) ∧ ((transferring .filling).isPresent 30 = true) ∧
    ((transferring .filling).cfg.node = 12) := by decide +kernel

/-- A node for the witness of InboundFramesAreHanded. -/
def atInboundFramesAreHanded0 : State := { up with
      link := { up.link with buffer := [⟨30, 31, 0, .hail 9⟩] } }

/-- A node for the witness of InboundFramesAreHanded. -/
def atInboundFramesAreHanded1 : State := { up with
      link := { up.link with buffer := [⟨1, 31, 5, .seek 65535 1999⟩] } }

/-- A node for the witness of InboundFramesAreHanded. -/
def atInboundFramesAreHanded2 : State := { { up with mode := .starting } with
      link := { up.link with buffer := [⟨1, 12, 255, .offer ⟨false, true, 1999, 9, some 1000, none⟩⟩] } }

/-- A node for the witness of InboundFramesAreHanded. -/
def atInboundFramesAreHanded3 : State := { (up) with
      link := { up.link with buffer := [⟨1, 12, 255, .carry 8 loudSeg⟩] }
      deliv := { up.deliv with
        inSlots := up.deliv.inSlots.set 3 { InSlot.blank with
          state := .filling
          source := 1
          tag := 255
          target := 0
          offered := 16
          received := 8
          accept := 8
          grant := 2
          object := 2
          reservation := true
          idleTimer := some 3000 } } }

/-- A node for the witness of InboundFramesAreHanded. -/
def atInboundFramesAreHanded4 : State := { (up.onObj 2 fun o => { o with segments := 16, chain := [2, 5] }) with
      link := { up.link with buffer := [⟨1, 12, 255, .close 16⟩] }
      deliv := { up.deliv with
        inSlots := up.deliv.inSlots.set 3 { InSlot.blank with
          state := .filling
          source := 1
          tag := 255
          target := 0
          offered := 16
          received := 16
          accept := 16
          grant := 2
          object := 2
          reservation := true
          idleTimer := some 3000 } } }

/-- A node for the witness of InboundFramesAreHanded. -/
def atInboundFramesAreHanded5 : State := { up with
      link := { up.link with buffer := [⟨1, 12, 255, .offer ⟨false, true, 1999, 64, some 1000, none⟩⟩] } }

theorem test_InboundFramesAreHanded :
    (atInboundFramesAreHanded0.link.buffer = ⟨30, 31, 0, .hail 9⟩ :: []) ∧
    ((atInboundFramesAreHanded0.presence 30).generation ≠ some 9) ∧
    (atInboundFramesAreHanded0.link.presence.length = 30) ∧
    (atInboundFramesAreHanded1.link.buffer = ⟨1, 31, 5, .seek 65535 1999⟩ :: []) ∧
    (atInboundFramesAreHanded1.find 1999 = .homed 1) ∧
    (atInboundFramesAreHanded1.deliv.answers = []) ∧
    (atInboundFramesAreHanded1.link.state = .active) ∧
    (atInboundFramesAreHanded1.mode = .serving) ∧
    (∀ y ∈ atInboundFramesAreHanded1.link.sendList, y.req ≠ .answers) ∧
    (atInboundFramesAreHanded2.link.buffer = ⟨1, 12, 255, .offer ⟨false, true, 1999, 9, some 1000, none⟩⟩
      :: []) ∧
    (atInboundFramesAreHanded2.inByKey 1 255 = none) ∧
    (atInboundFramesAreHanded2.mode = .starting) ∧
    (atInboundFramesAreHanded2.deliv.answers = []) ∧
    (atInboundFramesAreHanded2.link.state = .active) ∧
    (atInboundFramesAreHanded3.link.buffer = ⟨1, 12, 255, .carry 8 loudSeg⟩ :: []) ∧
    (atInboundFramesAreHanded3.inByKey 1 255 = some 3) ∧
    ((atInboundFramesAreHanded3.inSlot 3).state = .filling) ∧
    ((atInboundFramesAreHanded3.inSlot 3).received = 8) ∧
    ((({ atInboundFramesAreHanded3 with
        link := { atInboundFramesAreHanded3.link with buffer := [] } } : State).append (atInboundFramesAreHanded3.inSlot 3).object loudSeg).isSome = true) ∧
    (atInboundFramesAreHanded4.link.buffer = ⟨1, 12, 255, .close 16⟩ :: []) ∧
    (atInboundFramesAreHanded4.inByKey 1 255 = some 3) ∧
    ((atInboundFramesAreHanded4.inSlot 3).state = .filling) ∧
    ((atInboundFramesAreHanded4.inSlot 3).list = false) ∧
    ((atInboundFramesAreHanded4.inSlot 3).offered = 16) ∧
    ((atInboundFramesAreHanded4.inSlot 3).received = 16) ∧
    ((({ atInboundFramesAreHanded4 with
        link := { atInboundFramesAreHanded4.link with buffer := [] } } : State).closeObj (atInboundFramesAreHanded4.inSlot 3).object 0 1).1 = true) ∧
    (atInboundFramesAreHanded5.link.buffer = ⟨1, 12, 255, .offer ⟨false, true, 1999, 64, some 1000, none⟩⟩
      :: []) ∧
    (atInboundFramesAreHanded5.inByKey 1 255 = none) ∧
    (atInboundFramesAreHanded5.mode = .serving) ∧
    (atInboundFramesAreHanded5.find 1999 = .homed 1) ∧
    (atInboundFramesAreHanded5.freeIn = some 0) ∧
    ((atInboundFramesAreHanded5.mb 1).entries.length + (atInboundFramesAreHanded5.mb 1).reserved <
      (atInboundFramesAreHanded5.cls 1).maxEntries) ∧
    (((({ atInboundFramesAreHanded5 with
        link := { atInboundFramesAreHanded5.link with buffer := [] } } : State).onMb 1 fun m => { m with reserved := m.reserved + 1 }).admitDirect 1 64).1 = .granted 4 8) := by decide +kernel

/-- A node for the witness of InboundFramesAreHanded: a LIST OFFER for list 31, which mailbox 1 is in. -/
def atInboundFramesAreHanded6 : State := { up with
      link := { up.link with buffer := [⟨1, 12, 255, .offer ⟨true, true, 31, 32, some 1000, none⟩⟩] } }

/-- A node for the witness of InboundFramesAreHanded: a LIST OFFER for list 7, which no mailbox is in. -/
def atInboundFramesAreHanded7 : State := { up with
      link := { up.link with buffer := [⟨1, 12, 255, .offer ⟨true, true, 7, 32, some 1000, none⟩⟩] } }

/-- A node for the witness of InboundFramesAreHanded: the OFFER of the FILLING slot repeated. -/
def atInboundFramesAreHanded8 : State := { atInboundFramesAreHanded4 with
      mode := .draining
      link := { up.link with buffer := [⟨1, 12, 255, .offer ⟨false, true, 1000, 16, none, none⟩⟩] } }

/-- A node for the witness of InboundFramesAreHanded: the same with the slot's TAKE not yet sent. -/
def atInboundFramesAreHanded9 : State := atInboundFramesAreHanded8.onLink fun l => { l with
      sendList := [waiting (.inSlot 3) 1 .take] }

/-- A node for the witness of InboundFramesAreHanded: the CLOSE of a LIST transfer for list 31. -/
def atInboundFramesAreHanded10 : State := atInboundFramesAreHanded4.onIn 3 fun x => { x with
      list := true, target := 31, reservation := false }

/-- A node for the witness of InboundFramesAreHanded: the same for list 7. -/
def atInboundFramesAreHanded11 : State := atInboundFramesAreHanded10.onIn 3 fun x => { x with target := 7 }

/-- A node for the witness of InboundFramesAreHanded: an OFFER in DRAINING. -/
def atInboundFramesAreHanded12 : State := { atInboundFramesAreHanded2 with mode := .draining }

/-- A node for the witness of InboundFramesAreHanded: a CLOSE that counts one segment less. -/
def atInboundFramesAreHanded13 : State := { atInboundFramesAreHanded4 with
      link := { up.link with buffer := [⟨1, 12, 255, .close 15⟩] } }

theorem test_InboundFramesAreHanded_lists :
    (atInboundFramesAreHanded6.link.buffer = ⟨1, 12, 255, .offer ⟨true, true, 31, 32, some 1000, none⟩⟩ ::
      []) ∧ (atInboundFramesAreHanded6.inByKey 1 255 = none) ∧ (atInboundFramesAreHanded6.mode = .serving) ∧
    (atInboundFramesAreHanded6.freeIn = some 0) ∧ (1 < atInboundFramesAreHanded6.cfg.mailboxes.length) ∧
    (atInboundFramesAreHanded6.inService 1 = true) ∧
    ((atInboundFramesAreHanded6.mbCfg 1).lists.getLsbD 31 = true) ∧
    ((({ atInboundFramesAreHanded6 with
        link := { atInboundFramesAreHanded6.link with buffer := [] } } : State).admitList 32).1 =
      .granted 4 4) ∧
    (∀ k, k < atInboundFramesAreHanded7.cfg.mailboxes.length → atInboundFramesAreHanded7.inService k =
      false ∨ (atInboundFramesAreHanded7.mbCfg k).lists.getLsbD 7 = false) ∧
    (atInboundFramesAreHanded7.deliv.answers = []) ∧ (atInboundFramesAreHanded7.link.state = .active) ∧
    (∀ y ∈ atInboundFramesAreHanded7.link.sendList, y.req ≠ .answers) ∧
    (atInboundFramesAreHanded12.mode = .draining) ∧ (atInboundFramesAreHanded12.inByKey 1 255 = none) ∧
    (atInboundFramesAreHanded12.deliv.answers = []) ∧ (atInboundFramesAreHanded12.link.state = .active) := by
  decide +kernel

/-- The small node with a new OFFER of `segs` segments at the head of its buffer. -/
def offered (list : Bool) (target segs : Nat) : State := { up with
      link := { up.link with buffer := [⟨1, 12, 255, .offer ⟨list, true, target, segs, some 1000, none⟩⟩] } }

theorem test_InboundFramesAreHanded_balks :
    ((offered false 2000 16).inByKey 1 255 = none) ∧ ((offered false 2000 16).mode = .serving) ∧
    ((offered false 2000 16).find 2000 = .foreign) ∧ ((offered false 1600 16).find 1600 = .inRange) ∧
    ((offered false 1500 16).find 1500 = .disabled 2) ∧ ((offered false 1999 16).find 1999 = .homed 1) ∧
    (((offered false 1999 16).onDeliv fun d => { d with
      inSlots := d.inSlots.map fun x => { x with state := .committed } }).freeIn = none) ∧
    ((offered false 1999 16).freeIn.isSome = true) ∧
    ((((offered false 1999 16).onMb 1 fun m => { m with reserved := 3 }).mb 1).reserved = 3 ∧
      ((offered false 1999 16).cls 1).maxEntries = 3) ∧
    (((offered false 1999 97).cls 1).quota - ((offered false 1999 97).mb 1).charged -
      ((offered false 1999 97).mb 1).pending < (97 + 7) / 8) ∧
    ((offered false 1999 72).store.free.length - (offered false 1999 72).store.earmark -
      (offered false 1999 72).cfg.guard < (72 + 7) / 8) ∧
    (((72 + 7) / 8) ≤ ((offered false 1999 72).cls 1).quota - ((offered false 1999 72).mb 1).charged -
      ((offered false 1999 72).mb 1).pending) ∧
    ((offered true 31 56).inService 1 = true) ∧
    (((offered true 31 56).mbCfg 1).lists.getLsbD 31 = true) ∧
    ((offered true 31 56).cfg.budget < (offered true 31 56).store.sharedUse + (56 + 7) / 8) := by decide

theorem test_InboundFramesAreHanded_full_table :
    8192 < lowestFree 1 (fullTable (offered false 1999 16)).store.objects ∧
    (fullTable (offered false 1999 16)).freeIn.isSome = true ∧
    (fullTable (offered false 1999 16)).find 1999 = .homed 1 ∧
    (16 + 7) / 8 ≤ (offered false 1999 16).store.free.length - (offered false 1999 16).store.earmark -
      (offered false 1999 16).cfg.guard :=
  ⟨fullTable_full _, rfl, rfl, by decide⟩

theorem test_InboundFramesAreHanded_repeats_and_closes :
    (atInboundFramesAreHanded8.inByKey 1 255 = some 3) ∧
    ((atInboundFramesAreHanded8.inSlot 3).state = .filling) ∧
    (∀ y ∈ atInboundFramesAreHanded8.link.sendList, y.req ≠ .inSlot 3) ∧
    (atInboundFramesAreHanded9.inByKey 1 255 = some 3) ∧
    ((atInboundFramesAreHanded9.inSlot 3).state = .filling) ∧
    (∃ y ∈ atInboundFramesAreHanded9.link.sendList, y.req = .inSlot 3) ∧
    (atInboundFramesAreHanded10.link.buffer = ⟨1, 12, 255, .close 16⟩ :: []) ∧
    (atInboundFramesAreHanded10.inByKey 1 255 = some 3) ∧
    ((atInboundFramesAreHanded10.inSlot 3).list = true) ∧
    (atInboundFramesAreHanded10.membersWithRoom 31 = [1]) ∧
    ((({ atInboundFramesAreHanded10 with
        link := { atInboundFramesAreHanded10.link with buffer := [] } } : State).closeObj 2 0 1).1 = true) ∧
    (atInboundFramesAreHanded11.membersWithRoom 7 = []) ∧
    ((atInboundFramesAreHanded11.inSlot 3).list = true) ∧
    (atInboundFramesAreHanded13.link.buffer = ⟨1, 12, 255, .close 15⟩ :: []) ∧
    ((atInboundFramesAreHanded13.inSlot 3).offered ≠ 15) ∧
    ((atInboundFramesAreHanded13.inSlot 3).reservation = true) := by decide +kernel

/-- A node for the witness of OutboundAnswersAreHanded. -/
def atOutboundAnswersAreHanded0 : State := { up with
      link := { up.link with buffer := [⟨30, 12, 200, .claim 65535 2000⟩] }
      deliv := { up.deliv with
        queue := up.deliv.queue.set 63 (some { queued with carried := true })
        outSlots := up.deliv.outSlots.set 1 { OutSlot.blank with
          pos := 63
          tag := 200
          state := .offering
          seek := some ⟨65535, 2000, some 29⟩ } } }

/-- A node for the witness of OutboundAnswersAreHanded. -/
def atOutboundAnswersAreHanded1 : State := { up with
      link := { (up.onPresence 30 fun _ => ⟨true, none, some 1⟩).link with
        buffer := [⟨30, 12, 200, .claim 65535 2000⟩] }
      deliv := { up.deliv with
        queue := up.deliv.queue.set 63 (some { queued with carried := true })
        outSlots := up.deliv.outSlots.set 1 { OutSlot.blank with
          pos := 63
          tag := 200
          state := .locating
          seek := some ⟨65535, 2000, none⟩ } } }

/-- A node for the witness of OutboundAnswersAreHanded. -/
def atOutboundAnswersAreHanded2 : State := { up with
      link := { up.link with buffer := [⟨30, 12, 200, .take⟩] }
      deliv := { up.deliv with
        queue := up.deliv.queue.set 63 (some { queued with carried := true })
        outSlots := up.deliv.outSlots.set 1 { OutSlot.blank with
          pos := 63
          tag := 200
          state := .offering
          dest := some 30 } } }

/-- A node for the witness of OutboundAnswersAreHanded. -/
def atOutboundAnswersAreHanded3 : State := { up with
      link := { up.link with buffer := [⟨30, 12, 200, .balk .full⟩] }
      deliv := { up.deliv with
        queue := up.deliv.queue.set 63 (some { queued with carried := true })
        outSlots := up.deliv.outSlots.set 1 { OutSlot.blank with
          pos := 63
          tag := 200
          state := .offering
          dest := some 30 } } }

/-- A node for the witness of OutboundAnswersAreHanded. -/
def atOutboundAnswersAreHanded4 : State := { up with
      link := { up.link with buffer := [⟨30, 12, 200, .receipt true⟩] }
      deliv := { up.deliv with
        queue := up.deliv.queue.set 63 (some { queued with carried := true })
        outSlots := up.deliv.outSlots.set 1 { OutSlot.blank with
          pos := 63
          tag := 200
          state := .closing
          dest := some 30 } } }

theorem test_OutboundAnswersAreHanded :
    (atOutboundAnswersAreHanded0.link.buffer = ⟨30, 12, 200, .claim 65535 2000⟩ :: []) ∧
    (atOutboundAnswersAreHanded0.outBySeek 65535 2000 = some 1) ∧
    ((atOutboundAnswersAreHanded0.outSlot 1).seek = some ⟨65535, 2000, some 29⟩) ∧
    (29 ≠ 30) ∧
    (atOutboundAnswersAreHanded1.link.buffer = ⟨30, 12, 200, .claim 65535 2000⟩ :: []) ∧
    (atOutboundAnswersAreHanded1.outBySeek 65535 2000 = some 1) ∧
    ((atOutboundAnswersAreHanded1.outSlot 1).seek = some ⟨65535, 2000, none⟩) ∧
    ((atOutboundAnswersAreHanded1.outSlot 1).state = .locating) ∧
    (atOutboundAnswersAreHanded1.isPresent 30 = true) ∧
    (atOutboundAnswersAreHanded2.link.buffer = ⟨30, 12, 200, .take⟩ :: []) ∧
    (atOutboundAnswersAreHanded2.outByTag 30 200 = some 1) ∧
    ((atOutboundAnswersAreHanded2.outSlot 1).state = .offering) ∧
    (atOutboundAnswersAreHanded3.link.buffer = ⟨30, 12, 200, .balk .full⟩ :: []) ∧
    (atOutboundAnswersAreHanded3.outByTag 30 200 = some 1) ∧
    ((atOutboundAnswersAreHanded3.outSlot 1).state = .offering) ∧
    (atOutboundAnswersAreHanded3.qEntry? (atOutboundAnswersAreHanded3.outSlot 1).pos = some { queued with
        carried := true }) ∧
    (queued.list = false) ∧
    (atOutboundAnswersAreHanded4.link.buffer = ⟨30, 12, 200, .receipt true⟩ :: []) ∧
    (atOutboundAnswersAreHanded4.outByTag 30 200 = some 1) ∧
    ((atOutboundAnswersAreHanded4.outSlot 1).state = .closing) ∧
    (atOutboundAnswersAreHanded4.qEntry? (atOutboundAnswersAreHanded4.outSlot 1).pos = some { queued with
        carried := true }) := by decide

/-- A node for the witness of OutboundAnswersAreHanded: a BALK STORE. -/
def atOutboundAnswersAreHanded5 : State := atOutboundAnswersAreHanded3.onLink fun l => { l with
      buffer := [⟨30, 12, 200, .balk .store⟩] }

/-- A node for the witness of OutboundAnswersAreHanded: a RECEIPT FAILED. -/
def atOutboundAnswersAreHanded6 : State := atOutboundAnswersAreHanded4.onLink fun l => { l with
      buffer := [⟨30, 12, 200, .receipt false⟩] }

theorem test_OutboundAnswersAreHanded_again :
    (atOutboundAnswersAreHanded5.link.buffer = ⟨30, 12, 200, .balk .store⟩ :: []) ∧
    (atOutboundAnswersAreHanded5.outByTag 30 200 = some 1) ∧
    ((atOutboundAnswersAreHanded5.outSlot 1).state = .offering) ∧
    ((atOutboundAnswersAreHanded5.qEntry? (atOutboundAnswersAreHanded5.outSlot 1).pos).isSome = true) ∧
    (atOutboundAnswersAreHanded6.link.buffer = ⟨30, 12, 200, .receipt false⟩ :: []) ∧
    (atOutboundAnswersAreHanded6.outByTag 30 200 = some 1) ∧
    ((atOutboundAnswersAreHanded6.outSlot 1).state = .closing) := by decide

/-- The small node offering an entry to node 30, whose BALK is at the head of the buffer. -/
def balked (b : BalkReason) (f : QEntry → QEntry) : State := atOutboundAnswersAreHanded3.onLink (fun l => { l with
      buffer := [⟨30, 12, 200, .balk b⟩] }) |>.onDeliv fun d => { d with
        queue := d.queue.set 63 (some (f { queued with carried := true }))
        routes := [(1000, 1), (2000, 30)] }

theorem test_OutboundAnswersAreHanded_balks :
    (∀ b ∈ [BalkReason.notHome, .noBox, .noMembers],
      (balked b id).link.buffer = [⟨30, 12, 200, .balk b⟩] ∧ (balked b id).outByTag 30 200 = some 1 ∧
      ((balked b id).outSlot 1).state = .offering ∧
      (balked b id).qEntry? ((balked b id).outSlot 1).pos = some { queued with carried := true }) ∧
    ((balked .noMembers fun e => { e with list := true }).qEntry? 63 =
      some { queued with carried := true, list := true }) ∧
    ((balked .notHome fun e => { e with relocated := true }).qEntry? 63 =
      some { queued with carried := true, relocated := true }) ∧
    (1 < (balked .notHome id).deliv.outSlots.length) ∧
    ((balked .notHome id).deliv.routes = [(1000, 1)] ++ (2000, 30) :: []) ∧
    (∀ y ∈ (balked .notHome id).deliv.routes, y.1 ≠ 2001) := by decide

/-- A node for the witness of QueueEntriesEndWithNotices. -/
def atQueueEntriesEndWithNotices0 : State := up.onMb 0 fun m => { m with
      entries := [smallEntry 9999 .new, smallNotice 1]
      reserved := 1 }

/-- A node for the witness of QueueEntriesEndWithNotices. -/
def atQueueEntriesEndWithNotices1 : State := up.onMb 1 fun m => { m with reserved := 3 }

theorem test_QueueEntriesEndWithNotices :
    (queued.list = false) ∧
    (queued.mailbox = some 0) ∧
    (atQueueEntriesEndWithNotices0.inService 2 = false) ∧
    (atQueueEntriesEndWithNotices0.inService 1 = true) ∧
    (atQueueEntriesEndWithNotices0.hasRoom 1 = true) ∧
    (atQueueEntriesEndWithNotices0.inService 0 = true) ∧
    (atQueueEntriesEndWithNotices0.hasRoom 0 = false) ∧
    (0 < atQueueEntriesEndWithNotices0.mailboxes.length) ∧
    ((atQueueEntriesEndWithNotices0.mb 0).lock = none) ∧
    ((atQueueEntriesEndWithNotices0.mb 0).entries = [smallEntry 9999 .new] ++ smallNotice 1 :: []) ∧
    ((smallNotice 1).kind = .notice) ∧
    (∀ e ∈ [smallEntry 9999 .new], e.kind ≠ .notice ∧ e.number ≠ (smallNotice 1).number ∧ e ≠ smallNotice
      1) ∧
    (atQueueEntriesEndWithNotices1.inService 1 = true) ∧
    (atQueueEntriesEndWithNotices1.hasRoom 1 = false) ∧
    (∀ e ∈ (atQueueEntriesEndWithNotices1.mb 1).entries, e.kind ≠ .notice) := by decide

/-- A LIST entry of group 7. -/
def listQueued : QEntry :=
  { queued with list := true, target := 4, node := some 30, number := none, group := some 7 }

/-- A node for the witness of QueueEntriesEndWithNotices: group 7 waits for 29 entries. -/
def atQueueEntriesEndWithNotices2 : State := up.onDeliv fun d => { d with
      groups := d.groups.set 7 (some ⟨some 0, 4, 29, 0⟩) }

/-- A node for the witness of QueueEntriesEndWithNotices: group 7 waits for its last entry. -/
def atQueueEntriesEndWithNotices3 : State := up.onDeliv fun d => { d with
      groups := d.groups.set 7 (some ⟨some 0, 4, 1, 28⟩) }

/-- A node for the witness of QueueEntriesEndWithNotices: the full mailbox is locked by channel 15. -/
def atQueueEntriesEndWithNotices4 : State := (atQueueEntriesEndWithNotices0.onMb 0 fun m => { m with
      lock := some 15 }).onCh 15 fun c => { c with state := .main, mailbox := some 0, current := some 1 }

theorem test_QueueEntriesEndWithNotices_groups :
    (listQueued.list = true) ∧ (listQueued.group = some 7) ∧
    (atQueueEntriesEndWithNotices2.deliv.groups[7]? = some (some ⟨some 0, 4, 29, 0⟩)) ∧
    (atQueueEntriesEndWithNotices3.deliv.groups[7]? = some (some ⟨some 0, 4, 1, 28⟩)) ∧
    (atOutboundAnswersAreHanded4.qEntry? (atOutboundAnswersAreHanded4.outSlot 1).pos =
      some { queued with carried := true }) ∧
    ((atOutboundAnswersAreHanded4.outSlot 1).dest = some 30) ∧
    (atOutboundAnswersAreHanded4.isPresent 30 = false) ∧
    (∀ y ∈ atOutboundAnswersAreHanded4.link.sendList, y.req ≠ .outSlot 1) ∧
    (atQueueEntriesEndWithNotices4.inService 0 = true) ∧
    (atQueueEntriesEndWithNotices4.hasRoom 0 = false) ∧
    ((atQueueEntriesEndWithNotices4.mb 0).lock = some 15) ∧
    (15 < atQueueEntriesEndWithNotices4.chans.length) ∧
    ((atQueueEntriesEndWithNotices4.mb 0).entries = [smallEntry 9999 .new] ++ smallNotice 1 :: []) := by
  decide

/-- A node for the witness of SlotTimersRun. -/
def atSlotTimersRun0 : State := { up with
      link := { up.link with buffer := [] }
      deliv := { up.deliv with
        queue := up.deliv.queue.set 63 (some { queued with carried := true })
        outSlots := up.deliv.outSlots.set 1 { OutSlot.blank with
          pos := 63
          tag := 200
          state := .locating
          timer := some 400
          seek := some ⟨65535, 2000, none⟩
          seekCount := 2 } } }

/-- A node for the witness of SlotTimersRun. -/
def atSlotTimersRun1 : State := { up with
      link := { up.link with buffer := [] }
      deliv := { up.deliv with
        queue := up.deliv.queue.set 63 (some { queued with carried := true })
        outSlots := up.deliv.outSlots.set 1 { OutSlot.blank with
          pos := 63
          tag := 200
          state := .offering
          timer := some 1000
          dest := some 30
          offerCount := 2 } } }

/-- A node for the witness of SlotTimersRun. -/
def atSlotTimersRun2 : State := { up with
      link := { up.link with buffer := [] }
      deliv := { up.deliv with
        queue := up.deliv.queue.set 63 (some { queued with carried := true })
        outSlots := up.deliv.outSlots.set 1 { OutSlot.blank with
          pos := 63
          tag := 200
          state := .closing
          timer := some 1000
          dest := some 30
          closeCount := 2 } } }

/-- A node for the witness of SlotTimersRun. -/
def atSlotTimersRun3 : State := { up with
      link := { up.link with buffer := [] }
      deliv := { up.deliv with
        queue := up.deliv.queue.set 63 (some { queued with carried := true })
        outSlots := up.deliv.outSlots.set 1 { OutSlot.blank with
          pos := 63
          tag := 200
          state := .locating
          timer := some 400
          seek := some ⟨65535, 2000, none⟩
          seekCount := 3 } } }

/-- A node for the witness of SlotTimersRun. -/
def atSlotTimersRun4 : State := { up with
      link := { up.link with buffer := [] }
      deliv := { up.deliv with
        queue := up.deliv.queue.set 63 (some { queued with carried := true })
        outSlots := up.deliv.outSlots.set 1 { OutSlot.blank with
          pos := 63
          tag := 200
          state := .offering
          timer := some 1000
          dest := some 30
          offerCount := 3 } } }

/-- A node for the witness of SlotTimersRun. -/
def atSlotTimersRun5 : State := { up with
      link := { up.link with buffer := [] }
      deliv := { up.deliv with
        queue := up.deliv.queue.set 63 (some { queued with carried := true })
        outSlots := up.deliv.outSlots.set 1 { OutSlot.blank with
          pos := 63
          tag := 200
          state := .closing
          timer := some 1000
          dest := some 30
          closeCount := 3 } } }

/-- A node for the witness of SlotTimersRun. -/
def atSlotTimersRun6 : State := { (up) with
      link := { up.link with buffer := [] }
      deliv := { up.deliv with
        inSlots := up.deliv.inSlots.set 3 { InSlot.blank with
          state := .filling
          source := 1
          tag := 255
          target := 0
          offered := 16
          received := 8
          accept := 8
          grant := 2
          object := 2
          reservation := true
          idleTimer := some 3000 } } }

/-- A node for the witness of SlotTimersRun. -/
def atSlotTimersRun7 : State := { (up) with
      link := { up.link with buffer := [] }
      deliv := { up.deliv with
        inSlots := up.deliv.inSlots.set 3 { InSlot.blank with
          state := .filling
          source := 1
          tag := 255
          target := 0
          offered := 16
          received := 8
          accept := 8
          grant := 2
          object := 2
          reservation := true
          idleTimer := some 3000 } } }.onIn 3 fun x => { x with reservation := false }

/-- A node for the witness of SlotTimersRun. -/
def atSlotTimersRun8 : State := up.onIn 3 fun _ => { InSlot.blank with
      state := .committed
      lingerTimer := some 5000 }

/-- A node for the witness of SlotTimersRun. -/
def atSlotTimersRun9 : State := up.onDeliv fun d => { d with
      queue := d.queue.set 63 (some { queued with notBefore := some 30000 }) }

theorem test_SlotTimersRun :
    ((atSlotTimersRun0.outSlot 1).state = .locating) ∧
    ((atSlotTimersRun0.outSlot 1).timer.isSome = true) ∧
    ((atSlotTimersRun0.outSlot 1).seek = some ⟨65535, 2000, none⟩) ∧
    ((atSlotTimersRun0.outSlot 1).seekCount < 3) ∧
    ((atSlotTimersRun1.outSlot 1).state = .offering) ∧
    ((atSlotTimersRun1.outSlot 1).timer.isSome = true) ∧
    (atSlotTimersRun1.qEntry? (atSlotTimersRun1.outSlot 1).pos = some { queued with carried := true }) ∧
    ((atSlotTimersRun1.outSlot 1).offerCount < 3) ∧
    ((atSlotTimersRun2.outSlot 1).state = .closing) ∧
    ((atSlotTimersRun2.outSlot 1).timer.isSome = true) ∧
    (atSlotTimersRun2.qEntry? (atSlotTimersRun2.outSlot 1).pos = some { queued with carried := true }) ∧
    (atSlotTimersRun2.obj? queued.object = some ⟨true, .message, [0, 1], 16, 1, some 0, 0, 0⟩) ∧
    ((atSlotTimersRun2.outSlot 1).dest = some 30) ∧
    ((atSlotTimersRun2.outSlot 1).closeCount < 3) ∧
    ((atSlotTimersRun3.outSlot 1).state = .locating) ∧
    ((atSlotTimersRun3.outSlot 1).timer.isSome = true) ∧
    ((atSlotTimersRun3.outSlot 1).seek = some ⟨65535, 2000, none⟩) ∧
    ((atSlotTimersRun3.outSlot 1).seekCount = 3) ∧
    ((atSlotTimersRun4.outSlot 1).state = .offering) ∧
    ((atSlotTimersRun4.outSlot 1).timer.isSome = true) ∧
    (atSlotTimersRun4.qEntry? (atSlotTimersRun4.outSlot 1).pos = some { queued with carried := true }) ∧
    ((atSlotTimersRun4.outSlot 1).offerCount = 3) ∧
    ((atSlotTimersRun5.outSlot 1).state = .closing) ∧
    ((atSlotTimersRun5.outSlot 1).timer.isSome = true) ∧
    (atSlotTimersRun5.qEntry? (atSlotTimersRun5.outSlot 1).pos = some { queued with carried := true }) ∧
    (atSlotTimersRun5.obj? queued.object = some ⟨true, .message, [0, 1], 16, 1, some 0, 0, 0⟩) ∧
    ((atSlotTimersRun5.outSlot 1).dest = some 30) ∧
    ((atSlotTimersRun5.outSlot 1).closeCount = 3) ∧
    ((atSlotTimersRun6.inSlot 3).state = .filling) ∧
    ((atSlotTimersRun6.inSlot 3).idleTimer.isSome = true) ∧
    ((atSlotTimersRun6.inSlot 3).reservation = true) ∧
    ((atSlotTimersRun7.inSlot 3).state = .filling) ∧
    ((atSlotTimersRun7.inSlot 3).idleTimer.isSome = true) ∧
    ((atSlotTimersRun7.inSlot 3).reservation = false) ∧
    ((atSlotTimersRun8.inSlot 3).state = .committed) ∧
    ((atSlotTimersRun8.inSlot 3).lingerTimer.isSome = true) ∧
    (atSlotTimersRun9.qEntry? 63 = some { queued with notBefore := some 30000 }) ∧
    (({ queued with notBefore := some 30000 } : QEntry).carried = false) := by decide

end Sys2Proof.Tests
end

