-- ==== Sys2Proof/Proofs/ColdStart.lean ====
section
/-! PROOF. A cold start sets the store up empty and latches no STORE_LOW (R23). -/

namespace Sys2Proof.Machine

variable (s : State)

/-! ### Alarms -/

/-- After a latch the set holds the kind and what it held before (R187). -/
theorem mem_alarms_latch (a b : Alarm) :
    b ∈ (s.latch a).alarms ↔ b = a ∨ b ∈ s.alarms := by
  unfold State.latch
  split
  · rename_i ha
    exact ⟨.inr, fun h => h.elim (fun hb => hb ▸ ha) id⟩
  · simp [(joinAlarm_perm a s.alarms).mem_iff]

@[simp] theorem latch_mode (a : Alarm) : (s.latch a).mode = s.mode := by rw [latch_eq]
@[simp] theorem latch_cfg (a : Alarm) : (s.latch a).cfg = s.cfg := by rw [latch_eq]

/-! ### The store set up empty -/

/-- The store of a cold start (R23). -/
def Settings.emptyStore (c : Settings) : Store :=
  { free := List.range c.pool, objects := [], earmark := 0, sharedUse := 0, ready := true }

@[simp] theorem emptyStore_free (c : Settings) : c.emptyStore.free = List.range c.pool := rfl
@[simp] theorem emptyStore_objects (c : Settings) : c.emptyStore.objects = [] := rfl
@[simp] theorem emptyStore_earmark (c : Settings) : c.emptyStore.earmark = 0 := rfl
@[simp] theorem emptyStore_sharedUse (c : Settings) : c.emptyStore.sharedUse = 0 := rfl
@[simp] theorem emptyStore_ready (c : Settings) : c.emptyStore.ready = true := rfl

/-- With a percentage in range the threshold is at most half of P (R22). -/
theorem lowThreshold_le_half (h : s.cfg.lowPercent ≤ 50) : s.lowThreshold ≤ s.cfg.pool / 2 := by
  have hp : s.cfg.pool * s.cfg.lowPercent ≤ s.cfg.pool * 50 := Nat.mul_le_mul_left _ h
  unfold State.lowThreshold
  omega

/-- F - E of an empty store is P, which is never below such a threshold (R23). -/
theorem storeLow_emptyStore (h : s.cfg.lowPercent ≤ 50) :
    (s.onStore fun _ => s.cfg.emptyStore).storeLow = false := by
  have ht : (s.onStore fun _ => s.cfg.emptyStore).lowThreshold ≤ s.cfg.pool / 2 :=
    lowThreshold_le_half _ h
  simp only [State.storeLow, State.onStore_store, emptyStore_ready, emptyStore_free,
    emptyStore_earmark, List.length_range, Bool.true_and, decide_eq_false_iff_not]
  omega

/-- The set-up of a cold start, its store-low evaluation latching nothing (R23, R50). -/
theorem coldSetup_eq (h : s.cfg.lowPercent ≤ 50) :
    s.coldSetup = ((s.onStore fun _ => s.cfg.emptyStore).onMailboxes fun _ =>
      List.replicate s.cfg.mailboxes.length Mailbox.blank).lampSetup := by
  have he : (s.onStore fun _ => s.cfg.emptyStore).evalLow = s.onStore fun _ => s.cfg.emptyStore := by
    simp [State.evalLow, storeLow_emptyStore s h]
  exact congrArg (fun u : State => (u.onMailboxes fun _ =>
    List.replicate s.cfg.mailboxes.length Mailbox.blank).lampSetup) he

/-! ### The decision for a cold start -/

theorem warmHeader_eq_none :
    s.warmHeader = none ↔ ∀ h, s.index.header = some h → h.digest ≠ s.cfg.digest := by
  simp [State.warmHeader, Option.bind_eq_none_iff]

/-- Without a header of this configuration the start is cold (R179). -/
theorem exec_headerReadDone_cold (hs : s.startStep = .headerRead) (hw : s.warmHeader = none) :
    exec .headerReadDone s = .next s.beginCold.settle := by
  change execHeaderReadDone s = _
  simp [execHeaderReadDone, hs, hw, act]

section
variable (h : s.cfg.lowPercent ≤ 50)
include h

/-- The beginning of a cold start, part by part: COLD_START is the only kind it latches. -/
theorem beginCold_eq : s.beginCold =
    ((((s.latch .coldStart).onStore fun _ => s.cfg.emptyStore).onMailboxes fun _ =>
      List.replicate s.cfg.mailboxes.length Mailbox.blank).lampSetup).setStart (.wipe 0) := by
  have hl : (s.latch .coldStart).cfg.lowPercent ≤ 50 := by rwa [latch_cfg]
  rw [State.beginCold, coldSetup_eq _ hl, latch_cfg]

theorem beginCold_mode : s.beginCold.mode = s.mode := by
  rw [beginCold_eq s h]; exact latch_mode s _

theorem beginCold_store : s.beginCold.store = s.cfg.emptyStore := by rw [beginCold_eq s h]; rfl

theorem beginCold_alarms : s.beginCold.alarms = (s.latch .coldStart).alarms := by
  rw [beginCold_eq s h]; rfl

theorem beginCold_lineOut : s.beginCold.lineOut = (s.latch .coldStart).lineOut := by
  rw [beginCold_eq s h]; rfl

end

end Sys2Proof.Machine

namespace Sys2Proof.Proofs

open Sys2Proof Sys2Proof.Machine

/-- Settles O28: F - E is P at the set-up, so the store-low evaluation latches nothing, and what
follows the act of a node in STARTING touches neither the store nor the alarms. -/
theorem coldStartEmptiesTheStore : Obligations.ColdStartEmptiesTheStore := by
  intro s hstep hmode hlow hdigest
  have hexec : exec .headerReadDone s = .next s.beginCold.settle :=
    exec_headerReadDone_cold s hstep ((warmHeader_eq_none s).2 hdigest)
  have hrunning : s.beginCold.mode ≠ .draining := by simp [beginCold_mode s hlow, hmode]
  have hend := settle_eq s.beginCold hrunning
  have hstore : s.beginCold.settle.store = s.cfg.emptyStore := by
    rw [hend]; exact beginCold_store s hlow
  have halarms : s.beginCold.settle.alarms = (s.latch .coldStart).alarms := by
    rw [hend]; exact beginCold_alarms s hlow
  have hout : s.beginCold.settle.lineOut = (s.latch .coldStart).lineOut := by
    rw [hend]; exact beginCold_lineOut s hlow
  have hlatched : .storeLow ∈ s.beginCold.settle.alarms ↔ .storeLow ∈ s.alarms := by
    simp [halarms, mem_alarms_latch]
  exact ⟨_, hexec, by simp [hstore], by simp [hstore], by simp [hstore], by simp [hstore],
    by simp [hstore], hlatched, hout⟩

end Sys2Proof.Proofs
end

/-! PROOF. What a save, a removal and a session's end do to a mailbox's list (R43, R45, R46), and the
Directory a cold start sets up (R50). -/

namespace Sys2Proof.Machine

section
variable (s : State)

/-! ### What a telling and a page mark leave alone -/

@[simp] theorem tellLamp_mailboxes (k : Nat) : (s.tellLamp k).mailboxes = s.mailboxes :=
  (tellLamp_only s k).mailboxes

/-- A telling on a changed NEW count touches the Lamp Unit and the records sent alone (R40). -/
theorem tellIfChanged_only (k before : Nat) : LampOnly s (s.tellIfChanged k before) := by
  unfold State.tellIfChanged
  split
  · exact .refl
  · exact tellLamp_only s k

@[simp] theorem tellIfChanged_mailboxes (k before : Nat) :
    (s.tellIfChanged k before).mailboxes = s.mailboxes := (tellIfChanged_only s k before).mailboxes
@[simp] theorem tellIfChanged_store (k before : Nat) :
    (s.tellIfChanged k before).store = s.store := (tellIfChanged_only s k before).store
@[simp] theorem tellIfChanged_writer (k before : Nat) :
    (s.tellIfChanged k before).writer = s.writer := (tellIfChanged_only s k before).writer

@[simp] theorem markMailbox_mailboxes (k : Nat) : (s.markMailbox k).mailboxes = s.mailboxes := rfl

@[simp] theorem onMb_mailboxes_length (k : Nat) (f : Mailbox → Mailbox) :
    (s.onMb k f).mailboxes.length = s.mailboxes.length := List.length_modify ..

/-- A mailbox is read from the table of mailboxes alone. -/
theorem State.mb_congr {s t : State} (h : t.mailboxes = s.mailboxes) (k : Nat) : t.mb k = s.mb k := by
  rw [State.mb, State.mb, h]

end

/-! ### Entries by their numbers (R32) -/

/-- The numbers of a mailbox's entries, in the order of the list. -/
def Mailbox.numbers (m : Mailbox) : List Nat := m.entries.map (·.number)

theorem entry?_eq_none_iff (m : Mailbox) (num : Nat) : m.entry? num = none ↔ num ∉ m.numbers := by
  simp [Mailbox.entry?, Mailbox.numbers]

/-- The entry found for a number has it, and is the first in the list that does. -/
theorem entries_parted_first {m : Mailbox} {num : Nat} {e : Entry} (he : m.entry? num = some e) :
    ∃ front back, m.entries = front ++ e :: back ∧ e.number = num ∧ ∀ x ∈ front, x.number ≠ num := by
  obtain ⟨hnum, front, back, hl, hfront⟩ := List.find?_eq_some_iff_append.1 he
  exact ⟨front, back, hl, by simpa using hnum, fun x hx => by simpa using hfront x hx⟩

/-- A list with distinct numbers, parted at the entry with a number: the others have other numbers. -/
theorem entries_parted {m : Mailbox} {num : Nat} {e : Entry} (he : m.entry? num = some e)
    (hn : m.numbers.Nodup) : ∃ front back, m.entries = front ++ e :: back ∧ e.number = num ∧
      (∀ x ∈ front, x.number ≠ num) ∧ ∀ x ∈ back, x.number ≠ num := by
  obtain ⟨front, back, hl, hnum, hfront⟩ := entries_parted_first he
  have hback : e.number ∉ back.map (·.number) := by
    have hparts : (front.map (·.number) ++ e.number :: back.map (·.number)).Nodup := by
      simpa [Mailbox.numbers, hl] using hn
    exact (List.nodup_cons.1 (List.nodup_append.1 hparts).2.1).1
  exact ⟨front, back, hl, hnum, hfront, fun x hx hxn =>
    hback (List.mem_map.2 ⟨x, hx, hxn.trans hnum.symm⟩)⟩

/-- A change of the entry with a number leaves entries of other numbers as they are. -/
theorem map_other_numbers {num : Nat} (f : Entry → Entry) {l : List Entry}
    (h : ∀ x ∈ l, x.number ≠ num) : (l.map fun x => if x.number = num then f x else x) = l :=
  (List.map_congr_left fun x hx => if_neg (h x hx)).trans (List.map_id l)

/-- Erasing the first entry with a number erases that number. -/
theorem numbers_erase {m : Mailbox} {num : Nat} {e : Entry} (he : m.entry? num = some e) :
    (m.entries.erase e).map (·.number) = m.numbers.erase num := by
  obtain ⟨front, back, hl, hnum, hfront⟩ := entries_parted_first he
  have hnot : e ∉ front := fun hx => hfront e hx hnum
  have hnotNum : num ∉ front.map (·.number) := by simpa using hfront
  rw [Mailbox.numbers, hl, List.map_append, List.map_cons, hnum, List.erase_append_right _ hnot,
    List.erase_append_right _ hnotNum]
  simp

/-! ### A removal (R45) -/

section
variable (s : State) {k : Nat}

@[simp] theorem removeEntry_mailboxes_length (num : Nat) :
    (s.removeEntry k num).mailboxes.length = s.mailboxes.length := by
  unfold State.removeEntry State.removeQuiet
  split <;> simp

/-- A removal takes the number out of the list; a number without an entry changes nothing. -/
theorem removeEntry_numbers (hk : k < s.mailboxes.length) (num : Nat) :
    ((s.removeEntry k num).mb k).numbers = (s.mb k).numbers.erase num := by
  rw [State.removeEntry, State.mb_congr (tellIfChanged_mailboxes _ _ _), State.removeQuiet]
  cases he : (s.mb k).entry? num with
  | none => exact (List.erase_of_not_mem ((entry?_eq_none_iff _ _).1 he)).symm
  | some e =>
    dsimp only
    rw [State.mb_congr (markMailbox_mailboxes _ _), State.mb_congr (dropRefOpt_mailboxes _ _),
      State.mb_onMb_same _ _ hk]
    exact numbers_erase he

/-- Removals one after another take their numbers out of the list. -/
theorem foldl_removeEntry_numbers (hk : k < s.mailboxes.length) (nums : List Nat) :
    ((nums.foldl (fun t n => t.removeEntry k n) s).mb k).numbers = (s.mb k).numbers.diff nums := by
  induction nums generalizing s with
  | nil => rfl
  | cons n nums ih =>
    rw [List.foldl_cons, ih _ (by simpa using hk), removeEntry_numbers s hk, List.diff_cons]

theorem foldl_removeEntry_mailboxes_length (nums : List Nat) :
    (nums.foldl (fun t n => t.removeEntry k n) s).mailboxes.length = s.mailboxes.length := by
  induction nums generalizing s with
  | nil => rfl
  | cons n nums ih => rw [List.foldl_cons, ih, removeEntry_mailboxes_length]

/-! ### A session's end (R46) -/

/-- The end of the session that holds the lock takes the numbers marked for erasure out of the list. -/
theorem sessionEnd_numbers {i : Nat} (hk : k < s.mailboxes.length) (hl : (s.mb k).lock = some i) :
    ((s.sessionEnd k i).mb k).numbers =
      (s.mb k).numbers.diff ((s.mb k).numbers.filter fun n => n ∈ (s.mb k).erasePending) := by
  rw [State.sessionEnd, if_pos hl]
  dsimp only
  rw [State.mb_congr (tellLamp_mailboxes _ _), State.mb_onMb_same _ _
    ((foldl_removeEntry_mailboxes_length s _).symm ▸ hk)]
  exact foldl_removeEntry_numbers s hk _

/-- An entry marked for erasure is gone after the session's end. -/
theorem sessionEnd_erases {i num : Nat} (hk : k < s.mailboxes.length)
    (hn : (s.mb k).numbers.Nodup) (hl : (s.mb k).lock = some i)
    (hmark : num ∈ (s.mb k).erasePending) : ((s.sessionEnd k i).mb k).entry? num = none := by
  rw [entry?_eq_none_iff, sessionEnd_numbers s hk hl, hn.mem_sdiff_iff]
  rintro ⟨hmem, hkept⟩
  exact hkept (List.mem_filter.2 ⟨hmem, by simpa using hmark⟩)

end

/-! ### An entry takes a state (R42, R43) -/

/-- The list with its entry `num` in a state, dated today. -/
def datedEntries (s : State) (k num : Nat) (st : EntryState) : List Entry :=
  (s.mb k).entries.map fun x =>
    if x.number = num then { x with state := st, changeDay := s.today } else x

section
variable (s : State) {k : Nat} (num : Nat) (st : EntryState)

theorem setEntryState_mb_same (hk : k < s.mailboxes.length) :
    (s.setEntryState k num st).mb k = { s.mb k with entries := datedEntries s k num st } := by
  rw [State.setEntryState, State.mb_congr (tellIfChanged_mailboxes _ _ _),
    State.mb_congr (markMailbox_mailboxes _ _), State.onEntry, State.mb_onMb_same _ _ hk]
  rfl

theorem setEntryState_mb_ne {j : Nat} (hj : j ≠ k) :
    (s.setEntryState k num st).mb j = s.mb j := by
  rw [State.setEntryState, State.mb_congr (tellIfChanged_mailboxes _ _ _),
    State.mb_congr (markMailbox_mailboxes _ _), State.onEntry, State.mb_onMb_ne _ _ hj]

@[simp] theorem setEntryState_mailboxes_length :
    (s.setEntryState k num st).mailboxes.length = s.mailboxes.length := by
  simp [State.setEntryState, State.onEntry]

theorem setEntryState_store : (s.setEntryState k num st).store = s.store := by
  rw [State.setEntryState, tellIfChanged_store]; rfl

theorem setEntryState_writer : (s.setEntryState k num st).writer =
    { s.writer with dirtyOthers := joinSet s.writer.dirtyOthers (.mailbox k) } := by
  rw [State.setEntryState, tellIfChanged_writer]; rfl

/-- No number changes with a state. -/
theorem datedEntries_numbers :
    (datedEntries s k num st).map (·.number) = (s.mb k).numbers := by
  rw [datedEntries, List.map_map]
  refine List.map_congr_left fun x _ => ?_
  dsimp only [Function.comp]
  split <;> rfl

theorem setEntryState_numbers (hk : k < s.mailboxes.length) :
    ((s.setEntryState k num st).mb k).numbers = (s.mb k).numbers := by
  rw [setEntryState_mb_same s num st hk]
  exact datedEntries_numbers s num st

variable {num st}

/-- The one entry of the number leaves the NEW count when it was NEW; the others count as before. -/
theorem setEntryState_newCount {e : Entry} (hk : k < s.mailboxes.length)
    (he : (s.mb k).entry? num = some e) (hn : (s.mb k).numbers.Nodup) (hst : st ≠ .new) :
    ((s.setEntryState k num st).mb k).newCount =
      if e.state = .new then (s.mb k).newCount - 1 else (s.mb k).newCount := by
  obtain ⟨front, back, hl, hnum, hfront, hback⟩ := entries_parted he hn
  have hdated : datedEntries s k num st =
      front ++ { e with state := st, changeDay := s.today } :: back := by
    rw [datedEntries, hl, List.map_append, List.map_cons, if_pos hnum,
      map_other_numbers _ hfront, map_other_numbers _ hback]
  rw [setEntryState_mb_same s num st hk]
  simp only [Mailbox.newCount, hdated, hl, List.filter_append, List.filter_cons]
  by_cases hnew : e.state = .new <;> simp [hnew, hst]

end

/-! ### A save (R43) -/

section
variable (s : State) {k num : Nat} {e : Entry}

theorem saveEntry_of_unsaved (he : (s.mb k).entry? num = some e) (hs : e.state ≠ .saved) :
    s.saveEntry k num = s.setEntryState k num .saved := by
  simp [State.saveEntry, he, hs]

theorem saveEntry_of_saved (he : (s.mb k).entry? num = some e) (hs : e.state = .saved) :
    s.saveEntry k num = s := by
  simp [State.saveEntry, he, hs]

/-- A save leaves the marks, the lock and the numbers of the list. -/
theorem saveEntry_keeps (hk : k < s.mailboxes.length) (he : (s.mb k).entry? num = some e) :
    (s.saveEntry k num).mailboxes.length = s.mailboxes.length ∧
      ((s.saveEntry k num).mb k).erasePending = (s.mb k).erasePending ∧
      ((s.saveEntry k num).mb k).lock = (s.mb k).lock ∧
      ((s.saveEntry k num).mb k).numbers = (s.mb k).numbers := by
  by_cases hs : e.state = .saved
  · simp [saveEntry_of_saved s he hs]
  · rw [saveEntry_of_unsaved s he hs]
    refine ⟨setEntryState_mailboxes_length s num .saved, ?_, ?_,
      setEntryState_numbers s num .saved hk⟩ <;> rw [setEntryState_mb_same s num .saved hk]

end

/-! ### A cold start's Directory (R50) -/

section
variable (s : State)

@[simp] theorem evalLow_mode : s.evalLow.mode = s.mode := by rw [evalLow_eq]
@[simp] theorem evalLow_cfg : s.evalLow.cfg = s.cfg := by rw [evalLow_eq]

/-- Setting the store and the Directory up empty leaves the mode and the settings. -/
theorem coldSetup_mode : s.coldSetup.mode = s.mode :=
  evalLow_mode (s.onStore fun _ => s.cfg.emptyStore)

theorem coldSetup_cfg : s.coldSetup.cfg = s.cfg :=
  evalLow_cfg (s.onStore fun _ => s.cfg.emptyStore)

/-- Every mailbox of the configuration is set up empty. -/
theorem coldSetup_mailboxes :
    s.coldSetup.mailboxes = List.replicate s.cfg.mailboxes.length Mailbox.blank := rfl

/-- A mailbox without a NEW entry calls for no lamp (R103). -/
theorem desiredOf_eq_false {k : Nat} (h : (s.mb k).newCount = 0) : s.desiredOf k = false := by
  simp [State.desiredOf, h]

/-- The records of a Lamp Unit set up from mailboxes without NEW entries have no lamp lit (R117). -/
theorem lampSetup_desired (h : ∀ k, (s.mb k).newCount = 0) :
    ∀ r ∈ s.lampSetup.lamp.recs, r.desired = false := by
  intro r hr
  obtain ⟨k, _, rfl⟩ := List.mem_map.1 hr
  exact desiredOf_eq_false s (h k)

/-- Every mailbox read from a table of empty ones is empty. -/
theorem mb_of_replicate {n : Nat} (h : s.mailboxes = List.replicate n Mailbox.blank) (k : Nat) :
    s.mb k = Mailbox.blank := by
  rw [State.mb, h, List.getElem?_replicate]
  split <;> rfl

theorem coldSetup_desired : ∀ r ∈ s.coldSetup.lamp.recs, r.desired = false := by
  refine lampSetup_desired _ fun k => ?_
  rw [mb_of_replicate _ rfl k]
  rfl

end

end Sys2Proof.Machine

namespace Sys2Proof.Proofs

open Sys2Proof Sys2Proof.Machine

/-- Settles O21: a save of a NEW or HEARD entry is one change of its state, which no telling of the Lamp
Unit touches; it leaves the marks, the lock and the numbers, so the session's end still finds the mark. -/
theorem saveMakesAnEntrySaved : Obligations.SaveMakesAnEntrySaved := by
  intro s k num e hk he hn
  refine ⟨fun hs => ?_, fun hs => saveEntry_of_saved s he hs, fun i hmark hlock => ?_⟩
  · have hmb := setEntryState_mb_same s num .saved hk
    rw [saveEntry_of_unsaved s he hs]
    exact ⟨by rw [hmb]; rfl, by rw [hmb], setEntryState_writer s num .saved,
      setEntryState_newCount s hk he hn (by decide),
      fun j hj => setEntryState_mb_ne s num .saved hj, setEntryState_store s num .saved⟩
  · obtain ⟨hlength, hmarks, hlocked, hnumbers⟩ := saveEntry_keeps s hk he
    exact sessionEnd_erases _ (hlength.symm ▸ hk) (hnumbers.symm ▸ hn) (hlocked.trans hlock)
      (hmarks.symm ▸ hmark)

/-- Settles O29: the set-up makes every mailbox blank, so no NEW count calls for a lamp, and the end of the
act of a node in STARTING touches neither the Directory nor the Lamp Unit. -/
theorem coldStartEmptiesTheDirectory : Obligations.ColdStartEmptiesTheDirectory := by
  intro s hstep hmode hdigest
  have hexec : exec .headerReadDone s = .next s.beginCold.settle :=
    exec_headerReadDone_cold s hstep ((warmHeader_eq_none s).2 hdigest)
  have hstarting : s.beginCold.mode = .starting :=
    ((coldSetup_mode _).trans (latch_mode s _)).trans hmode
  have hend := settle_eq s.beginCold (by simp [hstarting])
  have hcfg : s.beginCold.settle.cfg = s.cfg := by
    rw [hend]; exact (coldSetup_cfg _).trans (latch_cfg s _)
  have hmailboxes : s.beginCold.settle.mailboxes =
      List.replicate s.cfg.mailboxes.length Mailbox.blank := by
    rw [hend, ← latch_cfg s .coldStart]; exact coldSetup_mailboxes _
  have hlamps : ∀ r ∈ s.beginCold.settle.lamp.recs, r.desired = false := by
    rw [hend]; exact coldSetup_desired (s.latch .coldStart)
  have hblank : ∀ m ∈ s.beginCold.settle.mailboxes, m = Mailbox.blank := fun m hm =>
    List.eq_of_mem_replicate (hmailboxes ▸ hm)
  refine ⟨_, hexec, by simp [hmailboxes], by rw [hcfg], by rw [hcfg], fun m hm => ?_, hlamps⟩
  rw [hblank m hm]
  decide

end Sys2Proof.Proofs

/-! PROOF. A busy channel refuses calls before every other check, and a channel that does not exist is the
port's to discard (R72, R185). -/

namespace Sys2Proof.Machine

variable (s : State)

/-! ### The port's check of a CALL (R191) -/

theorem wfChannel_iff (ch : Nat) : wfChannel ch = true ↔ ch ≤ 15 :=
  decide_eq_true_iff.trans Nat.lt_succ_iff

theorem wfExtension_iff (ext : Nat) : wfExtension ext = true ↔ 1000 ≤ ext ∧ ext ≤ 99999 := by
  simp [wfExtension]

theorem wfIdentity_iff (ids : List Nat) :
    wfIdentity ids = true ↔ ids.length ≤ 32 ∧ ∀ d ∈ ids, d ≤ 9 := by
  simp [wfIdentity]

/-- A channel beyond the highway fails the check (R66). -/
theorem wfChannel_eq_false {ch : Nat} (h : 15 < ch) : wfChannel ch = false :=
  Bool.eq_false_iff.2 fun hw => Nat.not_le_of_lt h ((wfChannel_iff ch).1 hw)

/-! ### What CALL and RETRIEVE do with a channel that cannot take a session -/

theorem exec_call (ch ext : Nat) (r : CallReason) (internal : Bool) (ids : List Nat) :
    exec (.call ch ext r internal ids) s = execCall ch ext r internal ids s := rfl

theorem exec_retrieve (ch ext : Nat) : exec (.retrieve ch ext) s = execRetrieve ch ext s := rfl

theorem Channel.busy_of_state {c : Channel} (h : c.state ≠ .idle) : c.busy = true := bne_iff_ne.2 h

section
variable {s} {ch ext : Nat} {r : CallReason} {internal : Bool} {ids : List Nat}

/-- A CALL for a busy channel is refused whatever the mode and the extension (R72). -/
theorem exec_call_of_busy (hok : callOk ch ext ids = true) (hbusy : (s.ch ch).state ≠ .idle) :
    exec (.call ch ext r internal ids) s = refuseCall s ch .channelBusy := by
  simp [exec_call, execCall, hok, Channel.busy_of_state hbusy]

/-- A RETRIEVE for a busy channel is refused whatever the mode and the extension (R72). -/
theorem exec_retrieve_of_busy (hch : wfChannel ch = true) (hext : wfExtension ext = true)
    (hbusy : (s.ch ch).state ≠ .idle) :
    exec (.retrieve ch ext) s = refuseCall s ch .channelBusy := by
  simp [exec_retrieve, execRetrieve, hch, hext, Channel.busy_of_state hbusy]

theorem exec_call_of_no_channel (h : wfChannel ch = false) :
    exec (.call ch ext r internal ids) s = .next s.countDiscard := by
  simp [exec_call, execCall, callOk, h, discard]

theorem exec_retrieve_of_no_channel (h : wfChannel ch = false) :
    exec (.retrieve ch ext) s = .next s.countDiscard := by
  simp [exec_retrieve, execRetrieve, h, discard]

end

/-! ### The end of an act while a session runs -/

/-- A running session keeps the drain condition from holding (R174). -/
theorem drained_of_session {i : Nat} (h : (s.ch i).state ≠ .idle) : s.drained = false := by
  have hi : i < s.chans.length := s.ch_lt_of_state h
  have hch : s.ch i = s.chans[i] := by simp [State.ch, hi]
  have hmem : s.ch i ∈ s.chans.filter Channel.busy :=
    List.mem_filter.2 ⟨hch ▸ List.getElem_mem hi, Channel.busy_of_state h⟩
  have hcount : s.busyCount ≠ 0 := (List.length_pos_of_mem hmem).ne'
  simp [State.drained, hcount]

/-- A node whose drain condition fails does not enter STOPPED as an act ends (R174, R175). -/
theorem settle_of_not_drained (h : s.beginWrite.drained = false) :
    s.settle = s.beginWrite.nextMoment.updateLines := by
  simp [State.settle, State.drainCheck, h]

/-- While a session runs, the end of an act touches the writer, the moment of the link and the status lines
alone, in DRAINING too. -/
theorem settle_of_session {i : Nat} (h : (s.ch i).state ≠ .idle) :
    s.settle = { s with
      writer := s.beginWrite.writer, link := s.link.passed, lines := s.settle.lines } := by
  have hch : s.beginWrite.ch i = s.ch i := by simp [State.ch]
  have hend := settle_of_not_drained s (drained_of_session _ (hch ▸ h))
  rw [hend, State.updateLines, nextMoment_eq, beginWrite_link]
  generalize State.lineLevels _ = l
  rw [beginWrite_eq]
  rfl

end Sys2Proof.Machine

namespace Sys2Proof.Proofs

open Sys2Proof Sys2Proof.Machine

/-- Settles O33: the busy check stands before those of the mode and the extension, and the session that
runs keeps even a draining node from stopping as the act ends, so the REFUSE record is all that is new. -/
theorem busyChannelRefusesCalls : Obligations.BusyChannelRefusesCalls := by
  intro s ch ext r internal ids
  refine ⟨fun hch hlow hhigh hlen hdigits hbusy => ?_, fun hch => ?_⟩
  · have hwch : wfChannel ch = true := (wfChannel_iff ch).2 hch
    have hwext : wfExtension ext = true := (wfExtension_iff ext).2 ⟨hlow, hhigh⟩
    have hok : callOk ch ext ids = true := by
      simp [callOk, hwch, hwext, (wfIdentity_iff ids).2 ⟨hlen, hdigits⟩]
    have hend := settle_of_session (s.send (.refuse ch .channelBusy)) hbusy
    refine ⟨_, exec_call_of_busy hok hbusy, exec_retrieve_of_busy hwch hwext hbusy, ?_⟩
    rw [hend]
    exact ⟨rfl, rfl, rfl, rfl, rfl, rfl, rfl, rfl⟩
  · have hno := wfChannel_eq_false hch
    exact ⟨exec_call_of_no_channel hno, exec_retrieve_of_no_channel hno, rfl, rfl⟩

end Sys2Proof.Proofs

/-! PROOF. What any command can answer: a quiet step, or one of the acts of a start, of a page write, of
SHUTDOWN and RESUME, each with the node before its act's end; and the laws that every step keeps for it
(R2-R20, R67, R106, R120, R172-R182, R187, R189). -/

namespace Sys2Proof.Machine

/-! ### Records that the port passes (R184) -/

/-- A record that the port passes acts as its command, or is no record (R184). -/
theorem recordPassed_cases (c : Instr) (s : State) :
    recordPassed c s = discard s ∨
      (recordPassed c s = exec c s ∧ (startCommand c = true → c = .shutdown ∨ c = .resume)) := by
  cases c
  case call | retrieve | digit | release | time | lampResult | lineReset | statusQuery =>
    exact .inr ⟨rfl, fun h => by cases h⟩
  case shutdown => exact .inr ⟨rfl, fun _ => .inl rfl⟩
  case resume => exact .inr ⟨rfl, fun _ => .inr rfl⟩
  all_goals exact .inl rfl

/-! ### The acts that are no quiet step -/

/-- The node that a command of a start, a page write, SHUTDOWN or RESUME leaves before its act's end. -/
inductive StartAct (s : State) : Instr → State → Prop where
  | reset : StartAct s .resetPin (s.freshStart s.cutIndex)
  | halted (b : List Byte) (hs : s.startStep = .configRead) (hb : loadImage b = none) :
      StartAct s (.configReadDone b) s.enterHalted
  | handedOut (b : List Byte) (c : Settings) (hs : s.startStep = .configRead)
      (hb : loadImage b = some c) : StartAct s (.configReadDone b) (s.handOut c)
  | warm (h : Header) (hs : s.startStep = .headerRead) (hw : s.warmHeader = some h) :
      StartAct s .headerReadDone (s.setStart (.headerWrite true (nextGeneration h.generation)))
  | cold (hs : s.startStep = .headerRead) (hw : s.warmHeader = none) :
      StartAct s .headerReadDone s.beginCold
  | wiped (p : Nat) (hs : s.startStep = .wipe p) : StartAct s .wipePageWriteDone (s.wiped p)
  | warmWritten (g : Nat) (hs : s.startStep = .headerWrite true g) :
      StartAct s .headerWriteDone ((s.headerWritten g).setStart .rebuild)
  | coldWritten (g : Nat) (hs : s.startStep = .headerWrite false g) :
      StartAct s .headerWriteDone (s.headerWritten g).enterServing
  | rebuilt (hs : s.startStep = .rebuild) : StartAct s .rebuildDone s.rebuild.enterServing
  | pageWritten (hw : s.writer.writing.isSome = true) : StartAct s .pageWriteDone s.writeDone
  | shutdown (hm : s.mode = .serving) :
      StartAct s .shutdown (s.setMode .draining).stopSchedule
  | resume (hm : s.mode = .stopped) :
      StartAct s .resume ((s.freshStart s.index).handOut s.cfg)

/-- What a command of a start answers. -/
theorem exec_startCommand {c : Instr} (s : State) (hc : startCommand c = true)
    (hr : ∀ r, c ≠ .recordDiscarded r) :
    exec c s = .next s ∨ ∃ u, StartAct s c u ∧ exec c s = .next u.settle := by
  cases c <;> try cases hc
  case resetPin => exact .inr ⟨_, .reset, rfl⟩
  case configReadDone b =>
    simp only [exec, execConfigReadDone]
    split
    · rename_i hs
      split
      · rename_i hb; exact .inr ⟨_, .halted b hs hb, rfl⟩
      · rename_i c hb; exact .inr ⟨_, .handedOut b c hs hb, rfl⟩
    · exact .inl rfl
  case headerReadDone =>
    simp only [exec, execHeaderReadDone]
    split
    · rename_i hs
      split
      · rename_i h hw; exact .inr ⟨_, .warm h hs hw, rfl⟩
      · rename_i hw; exact .inr ⟨_, .cold hs hw, rfl⟩
    · exact .inl rfl
  case wipePageWriteDone =>
    simp only [exec, execWipePageWriteDone]
    split
    · rename_i p hs; exact .inr ⟨_, .wiped p hs, rfl⟩
    · exact .inl rfl
  case headerWriteDone =>
    simp only [exec, execHeaderWriteDone]
    split
    · rename_i g hs; exact .inr ⟨_, .warmWritten g hs, rfl⟩
    · rename_i g hs; exact .inr ⟨_, .coldWritten g hs, rfl⟩
    · exact .inl rfl
  case rebuildDone =>
    simp only [exec, execRebuildDone]
    split
    · rename_i hs; exact .inr ⟨_, .rebuilt hs, rfl⟩
    · exact .inl rfl
  case pageWriteDone =>
    simp only [exec, execPageWriteDone]
    split
    · rename_i hw; exact .inr ⟨_, .pageWritten hw, rfl⟩
    · exact .inl rfl
  case shutdown =>
    simp only [exec, execShutdown]
    split
    · rename_i hm; exact .inr ⟨_, .shutdown hm, rfl⟩
    · exact .inl rfl
  case resume =>
    simp only [exec, execResume]
    split
    · rename_i hm; exact .inr ⟨_, .resume hm, rfl⟩
    · exact .inl rfl
  case recordDiscarded r => exact absurd rfl (hr r)

/-- A command runs another: its own, or SHUTDOWN or RESUME as a record that passes the port (R184). -/
def runs (c d : Instr) : Prop := c = d ∨ ((d = .shutdown ∨ d = .resume) ∧ asks c d)

theorem runs.asks {c d : Instr} (h : runs c d) : asks c d := h.elim .inl And.right

/-- What any command answers: a quiet step, or one of the acts of a start and its like. -/
theorem exec_cases (c : Instr) (s : State) :
    Quiet s (exec c s) ∨ ∃ d u, runs c d ∧ StartAct s d u ∧ exec c s = .next u.settle := by
  have plain : ∀ d, (∀ r, d ≠ .recordDiscarded r) →
      Quiet s (exec d s) ∨ ∃ u, StartAct s d u ∧ exec d s = .next u.settle := fun d hd => by
    cases hs : startCommand d with
    | false => exact .inl (exec_quiet d s hs)
    | true => exact (exec_startCommand s hs hd).imp (fun e => by rw [e]; exact .same) id
  cases c
  case recordDiscarded r =>
    simp only [exec, execRecordDiscarded]
    cases hd : decodeRecord r with
    | none => exact .inl .counted
    | some d =>
      rcases recordPassed_cases d s with e | ⟨e, hstart⟩
      · exact .inl (by simp only [e]; exact .same)
      · have hne : ∀ r, d ≠ .recordDiscarded r := fun r' hr => by
          subst hr; rcases hstart rfl with h | h <;> cases h
        simp only [e]
        cases hst : startCommand d with
        | false => exact .inl (exec_quiet d s hst)
        | true =>
          exact (plain d hne).imp id fun ⟨u, hu, he⟩ =>
            ⟨d, u, .inr ⟨hstart hst, .inr ⟨r, rfl, hd⟩⟩, hu, he⟩
  all_goals
    exact (plain _ (by intro r h; cases h)).imp id fun ⟨u, hu, he⟩ => ⟨_, u, .inl rfl, hu, he⟩

/-- A step runs the command at the front of the queue, or idles. -/
theorem step_cases {s t : State} (h : step s = .next t) :
    t = s ∨ ∃ c rest, s.pending = c :: rest ∧ exec c { s with pending := rest } = .next t := by
  unfold step at h
  split at h
  · exact .inl (by cases h; rfl)
  · rename_i c rest hp; exact .inr ⟨c, rest, hp, h⟩

/-- A law that does not read the queue of commands and that every command keeps is kept by every step. -/
theorem step_keeps {P : State → Prop} (hpending : ∀ s rest, P s → P { s with pending := rest })
    (hexec : ∀ c s t, P s → exec c s = .next t → P t) {s t : State} (hs : P s)
    (h : step s = .next t) : P t := by
  rcases step_cases h with rfl | ⟨c, rest, _, he⟩
  · exact hs
  · exact hexec c _ t (hpending s rest hs) he

/-- A law that a quiet act, one more discard, every act of a start and the end of an act keep is kept by every
command. -/
theorem exec_keeps {P : State → Prop} (hcalm : ∀ s u, Calm s u → P s → P u)
    (hcount : ∀ s, P s → P s.countDiscard) (hstart : ∀ s d u, StartAct s d u → P s → P u)
    (hsettle : ∀ s, P s → P s.settle) {c : Instr} {s t : State} (hs : P s)
    (h : exec c s = .next t) : P t := by
  rcases exec_cases c s with q | ⟨d, u, _, hu, e⟩
  · rw [h] at q
    cases q with
    | same => exact hs
    | counted => exact hcount s hs
    | acted hc => exact hsettle _ (hcalm _ _ hc hs)
  · cases h.symm.trans e
    exact hsettle _ (hstart s d u hu hs)

/-! ### What the acts of a start leave of the still part -/

theorem handOut_calm (s : State) (c : Settings) :
    Calm ((s.setCfg c true).setStart .headerRead) (s.handOut c) := by
  have h := onPresence_calm (markAbsent_calm (Calm.refl ((s.setCfg c true).setStart .headerRead)) c.node)
    c.node fun _ => Presence.blank
  unfold State.handOut
  dsimp only
  split
  · exact latch_calm h _
  · exact h

theorem enterServing_calm (s : State) :
    Calm ((s.setMode .serving).setStart .none) s.enterServing :=
  checkPass_calm (dispatch_calm (lampDispatch_calm (beginScan_calm (send_calm (Calm.refl _) .ready))))

theorem writeDone_still (s : State) :
    s.writeDone.still = { s.still with index := s.writeDone.index } := by
  unfold State.writeDone
  split <;> rfl

/-- A completed write changes the index area and the writer alone (R182). -/
theorem writeDone_eq (s : State) :
    s.writeDone = { s with index := s.writeDone.index, writer := s.writeDone.writer } := by
  unfold State.writeDone
  split <;> rfl

/-- What the restore changes: the alarms and records of the latches, the store, the mailboxes and the
Delivery Engine (R24, R159, R180). -/
theorem restore_eq (s : State) (r : Rebuilt) :
    s.restore r = { s with
      alarms := (s.restore r).alarms, lineOut := (s.restore r).lineOut
      store := { free := freeBlocks s.cfg.pool r.objects, objects := r.objects, earmark := 0
                 sharedUse := sharedBlocks r.objects, ready := true }
      mailboxes := r.mailboxes
      deliv := { s.deliv with
        queue := r.queue, groups := (List.range 8).map (restoredGroup r.queue)
        enqCounter := highestSeq r.queue } } := by
  unfold State.restore
  dsimp only
  rw [evalLow_eq]
  split
  · rw [latch_eq]; rfl
  · rfl

end Sys2Proof.Machine

namespace Sys2Proof.Machine

/-! ### The laws of the store through a start (R2-R20, R23, R24) -/

/-- A store that is not set up is sound beside a canonical pool. -/
theorem storeSound_of_unready {s : State} (hr : s.store.ready = false) (ha : audioWf s.audio = true) :
    s.StoreSound :=
  ⟨fun _ => hr, fun h => by simp [hr] at h, ha⟩

/-- Passing from one step of a start to another that is no configuration read keeps a store sound. -/
theorem storeSound_of_started {s t : State} (h : s.StoreSound) (hcfg : t.cfg = s.cfg)
    (hstore : t.store = s.store) (haudio : t.audio = s.audio) (hs : t.startStep ≠ .configRead) :
    t.StoreSound :=
  ⟨fun e => absurd e hs, fun e => by rw [hcfg, hstore]; exact h.laws (hstore ▸ e),
    by rw [haudio]; exact h.memory⟩

theorem enterServing_sound {s : State} (h : s.StoreSound) : s.enterServing.StoreSound :=
  (enterServing_calm s).sound (storeSound_of_started h rfl rfl rfl (by simp))

theorem handOut_sound {s : State} (c : Settings) (hr : s.store.ready = false)
    (ha : audioWf s.audio = true) : (s.handOut c).StoreSound :=
  (handOut_calm s c).sound (storeSound_of_unready hr ha)

/-- The beginning of a cold start, part by part (R23, R50, R179). -/
theorem beginCold_parts (s : State) : s.beginCold =
    (((((s.latch .coldStart).onStore fun _ => s.cfg.emptyStore).evalLow).onMailboxes fun _ =>
      List.replicate s.cfg.mailboxes.length Mailbox.blank).lampSetup).setStart (.wipe 0) := by
  rw [← latch_cfg s .coldStart]; rfl

theorem startAct_sound {s u : State} {d : Instr} (h : StartAct s d u) (hs : s.StoreSound) :
    u.StoreSound := by
  have ha := hs.memory
  cases h with
  | reset => exact storeSound_of_unready rfl ha
  | halted b hc hb => exact storeSound_of_unready (hs.unset hc) ha
  | handedOut b c hc hb => exact handOut_sound c (hs.unset hc) ha
  | warm | warmWritten => exact storeSound_of_started hs rfl rfl rfl (by simp)
  | cold hc hw =>
    have hcfg : s.beginCold.cfg = s.cfg := (coldSetup_cfg _).trans (latch_cfg s _)
    have hstore : s.beginCold.store = s.cfg.emptyStore := by
      rw [beginCold_parts, evalLow_eq]; rfl
    have haudio : s.beginCold.audio = s.audio := by
      rw [beginCold_parts, evalLow_eq, latch_eq]; rfl
    refine ⟨fun e => (by cases e), fun _ => ?_, haudio ▸ ha⟩
    rw [hcfg, hstore]
    exact coldStore_lawful _ _ _
  | wiped p hc =>
    refine storeSound_of_started hs rfl rfl rfl ?_
    simp only [State.wiped, State.setStart_startStep]
    split <;> simp
  | coldWritten g hc =>
    refine enterServing_sound (s := s.headerWritten g) ?_
    exact StoreSound.congr (s := s) rfl rfl rfl rfl hs
  | rebuilt hc =>
    refine enterServing_sound ?_
    have e := restore_eq s (rebuildIndex s.index s.cfg s.cls)
    have hset : (s.restore (rebuildIndex s.index s.cfg s.cls)).StoreSound := by
      rw [e]
      exact ⟨fun h => absurd (hc.symm.trans h) (by simp), fun _ => rebuilt_lawful _ _ _ _, ha⟩
    exact StoreSound.congr (s := s.restore (rebuildIndex s.index s.cfg s.cls)) rfl rfl rfl rfl hset
  | pageWritten hw =>
    rw [writeDone_eq]
    exact StoreSound.congr (s := s) rfl rfl rfl rfl hs
  | shutdown hm => exact StoreSound.congr (s := s) rfl rfl rfl rfl hs
  | resume hm => exact handOut_sound s.cfg rfl ha

/-! ### The sizes of the queues through a start (R67, R106, R107, R120, R127, R140, R142, R187) -/

/-- A change that leaves the channels, the lamps, the link, the Delivery Engine and the alarms keeps the
sizes. -/
theorem Bounded.congr {s t : State} (hch : t.chans = s.chans) (hla : t.lamp = s.lamp)
    (hli : t.link = s.link) (hde : t.deliv = s.deliv) (hal : t.alarms = s.alarms) (h : s.Bounded) :
    t.Bounded := by
  obtain ⟨keys, lamp, link, deliv, alarms⟩ := h
  exact ⟨hch ▸ keys, hla ▸ lamp, hli ▸ link, hde ▸ deliv, hal ▸ alarms⟩

theorem lampBlank_bounded : LampUnit.blank.Bounded := by simp [LampUnit.Bounded, LampUnit.blank]

/-- A Lamp Unit set up anew holds no command (R117). -/
theorem lampSetup_bounded {s : State} (h : s.Bounded) : s.lampSetup.Bounded :=
  ⟨h.keys, by simp [LampUnit.Bounded, State.lampSetup], h.link, h.deliv, h.alarms⟩

theorem linkFresh_bounded : LinkCtl.fresh.Bounded := by simp [LinkCtl.Bounded, LinkCtl.fresh]

theorem deliveryFresh_bounded : Delivery.fresh.Bounded := by
  simp [Delivery.Bounded, Delivery.fresh]

theorem reset_bounded : State.reset.Bounded := by
  refine ⟨fun c hc => ?_, lampBlank_bounded, linkFresh_bounded, deliveryFresh_bounded, List.nodup_nil⟩
  rw [List.eq_of_mem_replicate hc]
  exact Nat.zero_le _

theorem freshStart_bounded (s : State) (a : IndexArea) : (s.freshStart a).Bounded :=
  Bounded.congr (s := State.reset) rfl rfl rfl rfl rfl reset_bounded

theorem enterServing_bounded {s : State} (h : s.Bounded) : s.enterServing.Bounded :=
  (enterServing_calm s).bounds (Bounded.congr (s := s) rfl rfl rfl rfl rfl h)

theorem handOut_bounded {s : State} (c : Settings) (h : s.Bounded) : (s.handOut c).Bounded :=
  (handOut_calm s c).bounds (Bounded.congr (s := s) rfl rfl rfl rfl rfl h)

theorem latch_bounded {s : State} (a : Alarm) (h : s.Bounded) : (s.latch a).Bounded :=
  (latch_calm (Calm.refl s) a).bounds h

theorem onStore_evalLow_bounded {s : State} (f : Store → Store) (h : s.Bounded) :
    (s.onStore f).evalLow.Bounded :=
  (evalLow_calm (Calm.refl _)).bounds ⟨h.keys, h.lamp, h.link, h.deliv, h.alarms⟩

theorem restore_bounded {s : State} (r : Rebuilt) (h : s.Bounded) : (s.restore r).Bounded := by
  have hdamaged : (if r.damaged then s.latch .indexDamaged else s).Bounded := by
    split
    · exact latch_bounded _ h
    · exact h
  have hstored := onStore_evalLow_bounded (fun _ =>
    { free := freeBlocks (if r.damaged then s.latch .indexDamaged else s).cfg.pool r.objects
      objects := r.objects, earmark := 0, sharedUse := sharedBlocks r.objects, ready := true }) hdamaged
  exact ⟨hstored.keys, hstored.lamp, hstored.link, hstored.deliv, hstored.alarms⟩

theorem startAct_bounded {s u : State} {d : Instr} (h : StartAct s d u) (hs : s.Bounded) :
    u.Bounded := by
  cases h with
  | reset => exact freshStart_bounded s _
  | halted b hc hb =>
    exact ⟨hs.keys, lampBlank_bounded, by simp [LinkCtl.Bounded, State.enterHalted, LinkCtl.halted, LinkCtl.fresh],
      deliveryFresh_bounded, List.nodup_nil⟩
  | handedOut b c hc hb => exact handOut_bounded c hs
  | warm | warmWritten | wiped => exact Bounded.congr (s := s) rfl rfl rfl rfl rfl hs
  | cold hc hw =>
    have hstored := onStore_evalLow_bounded (fun _ => s.cfg.emptyStore) (latch_bounded .coldStart hs)
    have hset := lampSetup_bounded (s := (State.evalLow _).onMailboxes fun _ =>
      List.replicate s.cfg.mailboxes.length Mailbox.blank)
      ⟨hstored.keys, hstored.lamp, hstored.link, hstored.deliv, hstored.alarms⟩
    rw [beginCold_parts]
    exact ⟨hset.keys, hset.lamp, hset.link, hset.deliv, hset.alarms⟩
  | coldWritten g hc =>
    exact enterServing_bounded (s := s.headerWritten g) (Bounded.congr (s := s) rfl rfl rfl rfl rfl hs)
  | rebuilt hc =>
    have hset := lampSetup_bounded (restore_bounded (rebuildIndex s.index s.cfg s.cls) hs)
    exact enterServing_bounded (s := s.rebuild)
      ⟨hset.keys, hset.lamp, hset.link, hset.deliv, hset.alarms⟩
  | pageWritten hw =>
    rw [writeDone_eq]
    exact Bounded.congr (s := s) rfl rfl rfl rfl rfl hs
  | shutdown hm => exact Bounded.congr (s := s) rfl rfl rfl rfl rfl hs
  | resume hm => exact handOut_bounded s.cfg (freshStart_bounded s _)

end Sys2Proof.Machine

namespace Sys2Proof.Proofs

open Sys2Proof Sys2Proof.Machine

/-- Settles O5: the operations of the blocks are calm, and a start sets up a store that is empty, or lawful by
the tests of the rebuild. -/
theorem storeLawsKeptByEveryStep : Obligations.StoreLawsKeptByEveryStep := fun _ _ hs =>
  step_keeps (P := State.StoreSound) (fun _ _ h => ⟨h.unset, h.laws, h.memory⟩)
    (fun _ _ _ => exec_keeps (fun _ _ hc => hc.sound) (fun _ => countDiscard_sound)
      (fun _ _ _ => startAct_sound) (fun _ => settle_sound)) hs

/-- Settles O6: the operations of the blocks are calm, and a start sets the queues up empty. -/
theorem queuesKeepTheirSizes : Obligations.QueuesKeepTheirSizes := fun _ _ hs =>
  step_keeps (P := State.Bounded) (fun _ _ => Bounded.congr rfl rfl rfl rfl rfl)
    (fun _ _ _ => exec_keeps (fun _ _ hc => hc.bounds)
      (fun _ => Bounded.congr rfl rfl rfl rfl rfl)
      (fun _ _ _ => startAct_bounded) (fun _ => settle_bounded)) hs

end Sys2Proof.Proofs

namespace Sys2Proof.Machine

/-! ### What a calm change leaves -/

section
variable {s t : State} (h : Calm s t)
include h

theorem Calm.mode : t.mode = s.mode := congrArg Still.mode h.still
theorem Calm.startStep : t.startStep = s.startStep := congrArg Still.startStep h.still
theorem Calm.cfg : t.cfg = s.cfg := congrArg Still.cfg h.still
theorem Calm.configured : t.configured = s.configured := congrArg Still.configured h.still
theorem Calm.generation : t.generation = s.generation := congrArg Still.generation h.still
theorem Calm.index : t.index = s.index := congrArg Still.index h.still
theorem Calm.discarded : t.discarded = s.discarded := congrArg Still.discarded h.still
theorem Calm.pending : t.pending = s.pending := congrArg Still.pending h.still

end

/-! ### How every command ends -/

/-- A command leaves the node as it was, with one more discard counted, or as the end of an act. -/
theorem exec_ends {c : Instr} {s t : State} (h : exec c s = .next t) :
    t = s ∨ t = s.countDiscard ∨ ∃ u : State, t = u.settle := by
  rcases exec_cases c s with q | ⟨d, u, _, _, e⟩
  · rw [h] at q
    cases q with
    | same => exact .inl rfl
    | counted => exact .inr (.inl rfl)
    | acted => exact .inr (.inr ⟨_, rfl⟩)
  · exact .inr (.inr ⟨u, by cases h.symm.trans e; rfl⟩)

/-! ### The counts of the tables (R66, R128, R137, R144, R149, R157, R189) -/

/-- The counts of the tables as the still part holds them. -/
structure Still.Shaped (x : Still) : Prop where
  unset : x.startStep = .configRead → x.ready = false
  chans : x.chans = Config.channels
  queue : x.queue = Config.queuePositions
  outSlots : x.outSlots = 2
  inSlots : x.inSlots = 4
  groups : x.groups = 8
  presence : x.presence = Config.nodes
  boxes : x.ready = true → x.boxes = x.cfg.mailboxes.length
  lamps : x.ready = true → x.recs = x.boxes

/-- The shape of a node is that of its still part, with four status lines. -/
theorem shaped_iff (s : State) : s.Shaped ↔ s.still.Shaped ∧ s.lines.length = 4 :=
  ⟨fun h => ⟨⟨h.unset, h.chans, h.queue, h.outSlots, h.inSlots, h.groups, h.presence, h.boxes, h.lamps⟩,
    h.lines⟩,
   fun ⟨h, hl⟩ => ⟨h.unset, h.chans, hl, h.queue, h.outSlots, h.inSlots, h.groups, h.presence, h.boxes,
    h.lamps⟩⟩

@[simp] theorem lineLevels_length (s : State) : s.lineLevels.length = 4 := by simp [State.lineLevels]

theorem settle_lines (s : State) : s.settle.lines = s.settle.lineLevels := rfl

theorem exec_lines {c : Instr} {s t : State} (hs : s.lines.length = 4) (h : exec c s = .next t) :
    t.lines.length = 4 := by
  rcases exec_ends h with rfl | rfl | ⟨u, rfl⟩
  · exact hs
  · exact hs
  · rw [settle_lines, lineLevels_length]

/-- The end of an act changes no count. -/
theorem settle_shaped {s : State} (h : s.still.Shaped) : s.settle.still.Shaped := by
  rcases settle_still s with e | ⟨_, e⟩
  · rw [e]; exact h
  · rw [e]
    exact ⟨h.unset, h.chans, h.queue, h.outSlots, h.inSlots, h.groups, h.presence, h.boxes, h.lamps⟩

/-- A node whose counts are those of another, at a step of a start that is no configuration read. -/
theorem shaped_of_started {x y : Still} (h : x.Shaped) (hs : y.startStep ≠ .configRead)
    (hy : y = { x with
      mode := y.mode, startStep := y.startStep, generation := y.generation, index := y.index }) :
    y.Shaped := by
  rw [hy]
  exact ⟨fun e => absurd e hs, h.chans, h.queue, h.outSlots, h.inSlots, h.groups, h.presence, h.boxes,
    h.lamps⟩

theorem enterServing_shaped {s : State} (h : s.still.Shaped) : s.enterServing.still.Shaped := by
  rw [(enterServing_calm s).still]
  exact shaped_of_started h (by simp [State.still]) rfl

/-- A store that is not set up asks nothing of the mailboxes and the lamps. -/
theorem shaped_of_unready {x : Still} (hr : x.ready = false) (hc : x.chans = Config.channels)
    (hq : x.queue = Config.queuePositions) (ho : x.outSlots = 2) (hi : x.inSlots = 4)
    (hg : x.groups = 8) (hp : x.presence = Config.nodes) : x.Shaped :=
  ⟨fun _ => hr, hc, hq, ho, hi, hg, hp, fun h => by simp [hr] at h, fun h => by simp [hr] at h⟩

theorem handOut_shaped {s : State} (c : Settings) (hr : s.store.ready = false) (h : s.still.Shaped) :
    (s.handOut c).still.Shaped := by
  rw [(handOut_calm s c).still]
  exact shaped_of_unready hr h.chans h.queue h.outSlots h.inSlots h.groups h.presence

theorem freshStart_shaped (s : State) (a : IndexArea) : (s.freshStart a).still.Shaped :=
  shaped_of_unready rfl rfl rfl rfl rfl rfl rfl

@[simp] theorem rebuildIndex_mailboxes_length (a : IndexArea) (c : Settings) (f : Nat → ClassRec) :
    (rebuildIndex a c f).mailboxes.length = c.mailboxes.length := by simp [rebuildIndex]

@[simp] theorem rebuildIndex_queue_length (a : IndexArea) (c : Settings) (f : Nat → ClassRec) :
    (rebuildIndex a c f).queue.length = Config.queuePositions := by
  simp [rebuildIndex, queueWithout]

/-- The rebuild sets every mailbox, lamp record and queue position up (R180). -/
theorem rebuild_shaped {s : State} (hs : s.startStep = .rebuild) (h : s.still.Shaped) :
    s.rebuild.still.Shaped := by
  have e : s.rebuild.still = { s.still with
      boxes := s.cfg.mailboxes.length, recs := s.cfg.mailboxes.length, queue := Config.queuePositions
      groups := 8, ready := true } := by
    unfold State.rebuild
    rw [restore_eq]
    simp [State.still, State.lampSetup, State.markChanged]
  rw [e]
  exact ⟨fun hc => absurd (hs.symm.trans hc) (by simp), h.chans, rfl, h.outSlots, h.inSlots, rfl,
    h.presence, fun _ => rfl, fun _ => rfl⟩

/-- A cold start sets every mailbox and lamp record up (R50, R117). -/
theorem beginCold_shaped {s : State} (h : s.still.Shaped) : s.beginCold.still.Shaped := by
  have e : s.beginCold.still = { s.still with
      startStep := .wipe 0, boxes := s.cfg.mailboxes.length, recs := s.cfg.mailboxes.length
      ready := true } := by
    rw [beginCold_parts, evalLow_eq, latch_eq]
    simp [State.still, State.lampSetup]
  rw [e]
  exact ⟨fun hc => StartStep.noConfusion hc, h.chans, h.queue, h.outSlots, h.inSlots, h.groups, h.presence,
    fun _ => rfl, fun _ => rfl⟩

theorem startAct_shaped {s u : State} {d : Instr} (h : StartAct s d u) (hs : s.still.Shaped) :
    u.still.Shaped := by
  cases h with
  | reset => exact freshStart_shaped s _
  | halted b hc hb =>
    exact shaped_of_unready (hs.unset hc) hs.chans rfl rfl rfl rfl rfl
  | handedOut b c hc hb => exact handOut_shaped c (hs.unset hc) hs
  | warm | warmWritten => exact shaped_of_started hs (by simp [State.still]) rfl
  | cold hc hw => exact beginCold_shaped hs
  | wiped p hc =>
    refine shaped_of_started hs ?_ rfl
    simp only [State.still, State.wiped, State.setStart_startStep]
    split <;> simp
  | coldWritten g hc =>
    rw [(enterServing_calm _).still]
    exact shaped_of_started hs (by simp [State.still]) rfl
  | rebuilt hc => exact enterServing_shaped (rebuild_shaped hc hs)
  | pageWritten hw =>
    rw [writeDone_still]
    exact ⟨hs.unset, hs.chans, hs.queue, hs.outSlots, hs.inSlots, hs.groups, hs.presence, hs.boxes,
      hs.lamps⟩
  | shutdown hm =>
    exact ⟨hs.unset, hs.chans, hs.queue, hs.outSlots, hs.inSlots, hs.groups, hs.presence, hs.boxes,
      hs.lamps⟩
  | resume hm => exact handOut_shaped s.cfg rfl (freshStart_shaped s _)

/-- Every command keeps the counts of the tables. -/
theorem exec_shaped {c : Instr} {s t : State} (hs : s.Shaped) (h : exec c s = .next t) : t.Shaped := by
  obtain ⟨hstill, hlines⟩ := (shaped_iff s).1 hs
  refine (shaped_iff t).2 ⟨?_, exec_lines hlines h⟩
  exact exec_keeps (P := fun x => x.still.Shaped) (fun _ _ hc hx => by rw [hc.still]; exact hx)
    (fun _ hx => ⟨hx.unset, hx.chans, hx.queue, hx.outSlots, hx.inSlots, hx.groups, hx.presence, hx.boxes,
      hx.lamps⟩)
    (fun _ _ _ => startAct_shaped) (fun _ => settle_shaped) hstill h

/-- Every step keeps the counts of the tables. -/
theorem step_shaped {s t : State} (hs : s.Shaped) (h : step s = .next t) : t.Shaped :=
  step_keeps (P := State.Shaped)
    (fun _ _ x => ⟨x.unset, x.chans, x.lines, x.queue, x.outSlots, x.inSlots, x.groups, x.presence,
      x.boxes, x.lamps⟩) (fun _ _ _ => exec_shaped) hs h

/-! ### What the end of an act settles (R174, R175, R182, R189) -/

/-- An idle writer of a serving or draining node has taken up a page, unless none is marked (R182). -/
theorem beginWrite_idle {s : State} (hm : s.mode = .serving ∨ s.mode = .draining)
    (hw : s.beginWrite.writer.writing = none) :
    s.beginWrite.writer.dirtyObjects = [] ∧ s.beginWrite.writer.dirtyOthers = [] := by
  have hmode : (s.mode == .serving || s.mode == .draining) = true := by
    rcases hm with h | h <;> simp [h]
  unfold State.beginWrite at hw ⊢
  cases hwriting : s.writer.writing with
  | some w =>
    simp [hwriting] at hw
  | none =>
    simp only [hmode, hwriting, Option.isNone_none, Bool.and_self, if_true] at hw ⊢
    cases hobjects : s.writer.dirtyObjects with
    | cons j rest => simp [hobjects] at hw
    | nil =>
      cases hothers : s.writer.dirtyOthers with
      | cons p rest => simp [hobjects, hothers] at hw
      | nil => exact ⟨hobjects, hothers⟩

/-- The end of an act, as its last act but the lines found the node: still in its mode with the drain
condition open, or entering STOPPED. -/
theorem settle_parts (s : State) :
    (s.settle = s.beginWrite.nextMoment.updateLines ∧
      (s.mode = .draining → s.beginWrite.drained = false)) ∨
    (s.mode = .draining ∧ s.settle = s.beginWrite.enterStopped.nextMoment.updateLines) := by
  unfold State.settle State.drainCheck
  split
  · rename_i h
    simp only [beginWrite_mode, Bool.and_eq_true, decide_eq_true_eq] at h
    exact .inr ⟨h.1, rfl⟩
  · rename_i h
    simp only [beginWrite_mode, Bool.and_eq_true, decide_eq_true_eq, not_and, Bool.not_eq_true] at h
    exact .inl ⟨rfl, h⟩

/-- The end of an act leaves the lines, the writer and a drain as the rules say. -/
theorem settle_settled (s : State) : s.settle.Settled := by
  rcases settle_parts s with ⟨e, hdrain⟩ | ⟨_, e⟩ <;> rw [e, nextMoment_eq]
  · have hmode : ∀ {m}, s.beginWrite.mode = m → s.mode = m := fun hm => by rwa [← beginWrite_mode]
    exact ⟨rfl, fun hm hw => beginWrite_idle (hm.imp hmode hmode) hw, fun hm => hdrain (hmode hm)⟩
  · exact ⟨rfl, fun hm => hm.elim (fun h => Mode.noConfusion h) fun h => Mode.noConfusion h,
      fun hm => Mode.noConfusion hm⟩

theorem exec_settled {c : Instr} {s t : State} (hs : s.Settled) (h : exec c s = .next t) :
    t.Settled := by
  rcases exec_ends h with rfl | rfl | ⟨u, rfl⟩
  · exact hs
  · exact ⟨hs.lines, hs.writer, hs.drain⟩
  · exact settle_settled u

/-! ### Modes (R172-R176) -/

/-- What the end of an act does to the mode: nothing, or it ends a drain (R175). -/
theorem settle_mode (s : State) :
    s.settle.mode = s.mode ∨ (s.mode = .draining ∧ s.settle.mode = .stopped) :=
  (settle_still s).imp (congrArg Still.mode) fun ⟨hm, e⟩ => ⟨hm, congrArg Still.mode e⟩

theorem settle_startStep (s : State) : s.settle.startStep = s.startStep := by
  rcases settle_still s with e | ⟨_, e⟩ <;> exact congrArg Still.startStep e

theorem settle_mode_of_ne {s : State} (h : s.mode ≠ .draining) : s.settle.mode = s.mode :=
  (settle_mode s).resolve_right fun hd => h hd.1

/-- The end of an act keeps a start under way where it is. -/
theorem settle_startAgrees {s : State} (h : s.StartAgrees) : s.settle.StartAgrees := by
  unfold State.StartAgrees at h ⊢
  rw [settle_startStep, h]
  rcases settle_mode s with e | ⟨hm, e⟩ <;> simp [*]

theorem enterServing_mode (s : State) : s.enterServing.mode = .serving :=
  (enterServing_calm s).mode

theorem enterServing_startStep (s : State) : s.enterServing.startStep = .none :=
  (enterServing_calm s).startStep

theorem handOut_mode (s : State) (c : Settings) : (s.handOut c).mode = s.mode :=
  (handOut_calm s c).mode

theorem handOut_startStep (s : State) (c : Settings) : (s.handOut c).startStep = .headerRead :=
  (handOut_calm s c).startStep

/-- A node in a start is STARTING as its steps follow each other. -/
theorem startAgrees_of_starting {s : State} (hm : s.mode = .starting) (hs : s.startStep ≠ .none) :
    s.StartAgrees := iff_of_true hs hm

theorem startAgrees_of_serving {s : State} (hm : s.mode ≠ .starting) (hs : s.startStep = .none) :
    s.StartAgrees := iff_of_false (by simp [hs]) hm

/-- Each act of a start moves the mode as its rule says, and agrees with its step. -/
theorem startAct_mode {s u : State} {d : Instr} (h : StartAct s d u) (hs : s.StartAgrees) :
    u.StartAgrees ∧
      ((d = .resetPin ∧ u.mode = .starting) ∨
        ((∃ b, d = .configReadDone b) ∧ s.mode = .starting ∧ (u.mode = .halted ∨ u.mode = .starting)) ∨
        (u.mode = s.mode) ∨
        ((d = .headerWriteDone ∨ d = .rebuildDone) ∧ s.mode = .starting ∧ u.mode = .serving) ∨
        (d = .shutdown ∧ s.mode = .serving ∧ u.mode = .draining) ∨
        (d = .resume ∧ s.mode = .stopped ∧ u.mode = .starting)) := by
  have hstarting : ∀ {x}, s.startStep = x → x ≠ .none → s.mode = .starting := fun e hx =>
    hs.1 (e ▸ hx)
  cases h with
  | reset => exact ⟨startAgrees_of_starting rfl (by simp [State.freshStart, State.reset]), .inl ⟨rfl, rfl⟩⟩
  | halted b hc hb =>
    exact ⟨startAgrees_of_serving (by simp [State.enterHalted]) rfl,
      .inr (.inl ⟨⟨b, rfl⟩, hstarting hc (by simp), .inl rfl⟩)⟩
  | handedOut b c hc hb =>
    have hm := (handOut_mode s c).trans (hstarting hc (by simp))
    exact ⟨startAgrees_of_starting hm (by simp [handOut_startStep]), .inr (.inr (.inl (handOut_mode s c)))⟩
  | warm h hc | warmWritten g hc =>
    exact ⟨startAgrees_of_starting (hstarting hc (by simp)) (by simp), .inr (.inr (.inl rfl))⟩
  | cold hc hw =>
    have hm : s.beginCold.mode = s.mode := (coldSetup_mode _).trans (latch_mode s _)
    exact ⟨startAgrees_of_starting (hm.trans (hstarting hc (by simp))) (by simp [State.beginCold]),
      .inr (.inr (.inl hm))⟩
  | wiped p hc =>
    refine ⟨startAgrees_of_starting (hstarting hc (by simp)) ?_, .inr (.inr (.inl rfl))⟩
    simp only [State.wiped, State.setStart_startStep]
    split <;> simp
  | coldWritten g hc =>
    exact ⟨startAgrees_of_serving (by simp [enterServing_mode]) (enterServing_startStep _),
      .inr (.inr (.inr (.inl ⟨.inl rfl, hstarting hc (by simp), enterServing_mode _⟩)))⟩
  | rebuilt hc =>
    exact ⟨startAgrees_of_serving (by simp [enterServing_mode]) (enterServing_startStep _),
      .inr (.inr (.inr (.inl ⟨.inr rfl, hstarting hc (by simp), enterServing_mode _⟩)))⟩
  | pageWritten hw =>
    have e := writeDone_still s
    have hm : s.writeDone.mode = s.mode := congrArg Still.mode e
    have hst : s.writeDone.startStep = s.startStep := congrArg Still.startStep e
    exact ⟨by unfold State.StartAgrees; rw [hm, hst]; exact hs, .inr (.inr (.inl hm))⟩
  | shutdown hm =>
    have hst : s.startStep = .none := by_contra fun h => by cases hm.symm.trans (hs.1 h)
    exact ⟨startAgrees_of_serving (by simp [State.stopSchedule]) hst,
      .inr (.inr (.inr (.inr (.inl ⟨rfl, hm, rfl⟩))))⟩
  | resume hm =>
    exact ⟨startAgrees_of_starting (handOut_mode _ _) (by simp [handOut_startStep]),
      .inr (.inr (.inr (.inr (.inr ⟨rfl, hm, handOut_mode _ _⟩))))⟩

end Sys2Proof.Machine

namespace Sys2Proof.Machine

/-! ### What is held outside a start (R26, R172, R177, R179, R182, R185) -/

/-- What a command holds of the settings, the generation, the index area and the discarded count. -/
def Held (s t : State) : Prop :=
  t.cfg = s.cfg ∧ t.configured = s.configured ∧ t.generation = s.generation ∧ t.index = s.index ∧
    t.discarded = s.discarded

theorem Calm.held {s t : State} (h : Calm s t) : Held s t :=
  ⟨h.cfg, h.configured, h.generation, h.index, h.discarded⟩

theorem Held.trans {s t u : State} (h : Held s t) (h' : Held t u) : Held s u :=
  ⟨h'.1.trans h.1, h'.2.1.trans h.2.1, h'.2.2.1.trans h.2.2.1, h'.2.2.2.1.trans h.2.2.2.1,
    h'.2.2.2.2.trans h.2.2.2.2⟩

theorem settle_held (s : State) : Held s s.settle := by
  rcases settle_still s with e | ⟨_, e⟩ <;>
    exact ⟨congrArg Still.cfg e, congrArg Still.configured e, congrArg Still.generation e,
      congrArg Still.index e, congrArg Still.discarded e⟩

theorem settle_pending (s : State) : s.settle.pending = s.pending := by
  rcases settle_still s with e | ⟨_, e⟩ <;> exact congrArg Still.pending e

theorem enterServing_held (s : State) : Held s s.enterServing :=
  Held.trans (s := s) ⟨rfl, rfl, rfl, rfl, rfl⟩ (enterServing_calm s).held

theorem rebuild_held (s : State) : Held s s.rebuild := by
  unfold State.rebuild
  rw [restore_eq]
  exact ⟨rfl, rfl, rfl, rfl, rfl⟩

theorem beginCold_held (s : State) : Held s s.beginCold := by
  rw [beginCold_parts, evalLow_eq, latch_eq]
  exact ⟨rfl, rfl, rfl, rfl, rfl⟩

/-- What each act of a start may change of the settings, the generation, the index area and the discarded
count. -/
theorem startAct_held {s u : State} {d : Instr} (h : StartAct s d u) :
    (u.cfg = s.cfg ∧ u.configured = s.configured ∨
      d = .resetPin ∨ (∃ b, d = .configReadDone b) ∨ d = .resume) ∧
    (u.generation = s.generation ∨ d = .resetPin ∨ d = .headerWriteDone ∨ d = .resume) ∧
    (u.index = s.index ∨
      d = .resetPin ∨ d = .wipePageWriteDone ∨ d = .headerWriteDone ∨ d = .pageWriteDone) ∧
    (u.discarded = s.discarded ∨ (u.discarded = 0 ∧ (d = .resetPin ∨ d = .resume))) := by
  have all : Held s u →
      (u.cfg = s.cfg ∧ u.configured = s.configured ∨
        d = .resetPin ∨ (∃ b, d = .configReadDone b) ∨ d = .resume) ∧
      (u.generation = s.generation ∨ d = .resetPin ∨ d = .headerWriteDone ∨ d = .resume) ∧
      (u.index = s.index ∨
        d = .resetPin ∨ d = .wipePageWriteDone ∨ d = .headerWriteDone ∨ d = .pageWriteDone) ∧
      (u.discarded = s.discarded ∨ (u.discarded = 0 ∧ (d = .resetPin ∨ d = .resume))) :=
    fun ⟨hcfg, hconf, hgen, hidx, hdis⟩ => ⟨.inl ⟨hcfg, hconf⟩, .inl hgen, .inl hidx, .inl hdis⟩
  cases h with
  | reset => exact ⟨.inr (.inl rfl), .inr (.inl rfl), .inr (.inl rfl), .inr ⟨rfl, .inl rfl⟩⟩
  | halted => exact all ⟨rfl, rfl, rfl, rfl, rfl⟩
  | handedOut b c =>
    have hc := (handOut_calm s c)
    exact ⟨.inr (.inr (.inl ⟨b, rfl⟩)), .inl hc.generation, .inl hc.index, .inl hc.discarded⟩
  | warm => exact all ⟨rfl, rfl, rfl, rfl, rfl⟩
  | cold => exact all (beginCold_held s)
  | wiped => exact ⟨.inl ⟨rfl, rfl⟩, .inl rfl, .inr (.inr (.inl rfl)), .inl rfl⟩
  | warmWritten =>
    exact ⟨.inl ⟨rfl, rfl⟩, .inr (.inr (.inl rfl)), .inr (.inr (.inr (.inl rfl))), .inl rfl⟩
  | coldWritten g =>
    obtain ⟨hcfg, hconf, _, _, hdis⟩ := enterServing_held (s.headerWritten g)
    exact ⟨.inl ⟨hcfg, hconf⟩, .inr (.inr (.inl rfl)), .inr (.inr (.inr (.inl rfl))), .inl hdis⟩
  | rebuilt => exact all ((rebuild_held s).trans (enterServing_held _))
  | pageWritten =>
    have e := writeDone_eq s
    refine ⟨.inl ⟨?_, ?_⟩, .inl ?_, .inr (.inr (.inr (.inr rfl))), .inl ?_⟩ <;> rw [e]
  | shutdown => exact all ⟨rfl, rfl, rfl, rfl, rfl⟩
  | resume =>
    have hc := (handOut_calm (s.freshStart s.index) s.cfg)
    exact ⟨.inr (.inr (.inr rfl)), .inr (.inr (.inr rfl)), .inl hc.index, .inr ⟨hc.discarded, .inr rfl⟩⟩

/-- No act of a start touches the queue of commands. -/
theorem startAct_pending {s u : State} {d : Instr} (h : StartAct s d u) : u.pending = s.pending := by
  cases h with
  | reset | halted | warm | wiped | warmWritten | shutdown => rfl
  | handedOut b c => exact (handOut_calm s c).pending
  | cold => rw [beginCold_parts, evalLow_eq, latch_eq]; rfl
  | coldWritten g => exact (enterServing_calm _).pending
  | rebuilt =>
    refine (enterServing_calm s.rebuild).pending.trans ?_
    show s.rebuild.pending = s.pending
    unfold State.rebuild
    rw [restore_eq]
    rfl
  | pageWritten => rw [writeDone_eq]
  | resume => exact (handOut_calm (s.freshStart s.index) s.cfg).pending

/-- The count of discarded records rises by one, to 65,535 at most (R185). -/
theorem countDiscard_discarded (s : State) : s.countDiscard.discarded = s.discarded ∨
    (s.discarded < 65535 ∧ s.countDiscard.discarded = s.discarded + 1) := by
  by_cases h : s.discarded < Config.maxDiscarded
  · exact .inr ⟨h, if_pos h⟩
  · exact .inl (if_neg h)

end Sys2Proof.Machine

namespace Sys2Proof.Proofs

open Sys2Proof Sys2Proof.Machine

/-- Settles O1, by the definition of a step. -/
theorem stepRunsFrontCommand : Obligations.StepRunsFrontCommand := by
  refine ⟨fun c rest s h => ?_, fun s h => ?_⟩
  · simp only [step, h]; rfl
  · simp only [step, h]

/-- Settles O2: every command answers as a quiet step or an act of a start, and neither touches the queue of
commands. -/
theorem everyCommandCompletes : Obligations.EveryCommandCompletes := by
  intro c s
  rcases exec_cases c s with q | ⟨d, u, _, hu, e⟩
  · generalize exec c s = out at q
    cases q with
    | same => exact ⟨s, rfl, rfl⟩
    | counted => exact ⟨_, rfl, rfl⟩
    | acted hc => exact ⟨_, rfl, (settle_pending _).trans hc.pending⟩
  · exact ⟨_, e, (settle_pending u).trans (startAct_pending hu)⟩

/-- Settles O3, field by field. -/
theorem resetStateAsStarted : Obligations.ResetStateAsStarted := by
  have hpresence : ∀ n, State.reset.presence n = ⟨false, none, none⟩ := fun n => by
    unfold State.presence
    split
    · rfl
    · show ((List.replicate 30 Presence.blank)[n - 1]?).getD Presence.blank = _
      rw [List.getElem?_replicate]
      split <;> rfl
  have hout : ∀ i, (State.reset.outSlot i).state = .free := fun i => by
    show (((List.replicate 2 OutSlot.blank)[i]?).getD OutSlot.blank).state = _
    rw [List.getElem?_replicate]
    split <;> rfl
  have hin : ∀ j, (State.reset.inSlot j).state = .free := fun j => by
    show (((List.replicate 4 InSlot.blank)[j]?).getD InSlot.blank).state = _
    rw [List.getElem?_replicate]
    split <;> rfl
  exact ⟨⟨rfl, rfl, rfl, rfl, rfl, rfl, rfl⟩, ⟨rfl, rfl, rfl, rfl, rfl, rfl, rfl, hpresence⟩,
    ⟨rfl, hout, hin, rfl, rfl, rfl, rfl, rfl, rfl⟩, ⟨rfl, rfl, rfl, rfl, rfl, rfl, rfl⟩, rfl, rfl, rfl⟩

/-- Settles O8: an act ends settled whatever it did, and a command without an act changes nothing that the
law reads. -/
theorem everyStepEndsSettled : Obligations.EveryStepEndsSettled := fun _ _ hs =>
  step_keeps (P := State.Settled) (fun _ _ h => ⟨h.lines, h.writer, h.drain⟩)
    (fun _ _ _ => exec_settled) hs

/-- Settles O9: a quiet act leaves the mode to its end, which can only stop a drain, and each act of a start
moves it as its rule says. -/
theorem modesMoveOnlyAsRuled : Obligations.ModesMoveOnlyAsRuled := by
  intro c s t hs h
  rcases exec_cases c s with q | ⟨d, u, hruns, hu, e⟩
  · rw [h] at q
    cases q with
    | same => exact ⟨.inl rfl, hs⟩
    | counted => exact ⟨.inl rfl, hs⟩
    | @acted v hc =>
      have hagrees : v.StartAgrees := by
        unfold State.StartAgrees
        rw [hc.startStep, hc.mode]
        exact hs
      refine ⟨?_, settle_startAgrees hagrees⟩
      rcases settle_mode v with e | ⟨hm, e⟩
      · exact .inl (e.trans hc.mode)
      · exact .inr (.inr (.inr (.inr (.inr (.inl ⟨hc.mode ▸ hm, e⟩)))))
  · cases h.symm.trans e
    obtain ⟨hagrees, hmoves⟩ := startAct_mode hu hs
    refine ⟨?_, settle_startAgrees hagrees⟩
    have own : (d ≠ .shutdown ∧ d ≠ .resume) → c = d := fun ⟨h1, h2⟩ =>
      hruns.resolve_right fun hr => hr.1.elim h1 h2
    have keep : ∀ {m}, u.mode = m → m ≠ .draining → u.settle.mode = m := fun hm hne =>
      (settle_mode_of_ne (hm ▸ hne)).trans hm
    rcases hmoves with ⟨rfl, hm⟩ | ⟨⟨b, rfl⟩, hstart, hm | hm⟩ | hm | ⟨hd, hstart, hm⟩ |
      ⟨rfl, hstart, hm⟩ | ⟨rfl, hstart, hm⟩
    · exact .inr (.inl ⟨own (by simp), keep hm (by simp)⟩)
    · exact .inr (.inr (.inl ⟨⟨b, own (by simp)⟩, hstart, keep hm (by simp)⟩))
    · exact .inl ((keep hm (by simp)).trans hstart.symm)
    · rcases settle_mode u with e | ⟨hdrain, e⟩
      · exact .inl (e.trans hm)
      · exact .inr (.inr (.inr (.inr (.inr (.inl ⟨hm ▸ hdrain, e⟩)))))
    · have hc : c = d := own (by rcases hd with rfl | rfl <;> simp)
      exact .inr (.inr (.inr (.inl ⟨hc ▸ hd, hstart, keep hm (by simp)⟩)))
    · refine .inr (.inr (.inr (.inr (.inl ⟨hruns.asks, hstart, ?_⟩))))
      exact (settle_mode u).imp (fun e => e.trans hm) And.right
    · exact .inr (.inr (.inr (.inr (.inr (.inr ⟨hruns.asks, hstart, keep hm (by simp)⟩)))))

/-- Settles O10: a quiet act holds all of it, and each act of a start changes what its rule names. -/
theorem heldStateChangesByNamedCommands : Obligations.HeldStateChangesByNamedCommands := by
  intro c s t h
  rcases exec_cases c s with q | ⟨d, u, hruns, hu, e⟩
  · rw [h] at q
    cases q with
    | same => exact ⟨fun _ _ _ => ⟨rfl, rfl⟩, fun _ _ _ => rfl, fun _ _ _ _ => rfl, .inl rfl⟩
    | counted =>
      exact ⟨fun _ _ _ => ⟨rfl, rfl⟩, fun _ _ _ => rfl, fun _ _ _ _ => rfl,
        (countDiscard_discarded s).imp id .inl⟩
    | acted hc =>
      obtain ⟨hcfg, hconf, hgen, hidx, hdis⟩ := hc.held.trans (settle_held _)
      exact ⟨fun _ _ _ => ⟨hcfg, hconf⟩, fun _ _ _ => hgen, fun _ _ _ _ => hidx, .inl hdis⟩
  · cases h.symm.trans e
    obtain ⟨hcfg, hconf, hgen, hidx, hdis⟩ := settle_held u
    obtain ⟨hset, hgeneration, hindex, hcount⟩ := startAct_held hu
    have own : ∀ {x}, d = x → x ≠ .shutdown → x ≠ .resume → c = x := fun hx h1 h2 =>
      (hruns.resolve_right fun hr => hr.1.elim (hx ▸ h1) (hx ▸ h2)).trans hx
    have hresume : d = .resume → asks c .resume := fun hd => hd ▸ hruns.asks
    refine ⟨fun hpin hconfig hres => ?_, fun hpin hwrite hres => ?_, fun hpin hwipe hwrite hpage => ?_, ?_⟩
    · rcases hset with ⟨h1, h2⟩ | hd | ⟨b, hd⟩ | hd
      · exact ⟨hcfg.trans h1, hconf.trans h2⟩
      · exact absurd (own hd (by simp) (by simp)) hpin
      · exact absurd (own hd (by simp) (by simp)) (hconfig b)
      · exact absurd (hresume hd) hres
    · rcases hgeneration with h1 | hd | hd | hd
      · exact hgen.trans h1
      · exact absurd (own hd (by simp) (by simp)) hpin
      · exact absurd (own hd (by simp) (by simp)) hwrite
      · exact absurd (hresume hd) hres
    · rcases hindex with h1 | hd | hd | hd | hd
      · exact hidx.trans h1
      · exact absurd (own hd (by simp) (by simp)) hpin
      · exact absurd (own hd (by simp) (by simp)) hwipe
      · exact absurd (own hd (by simp) (by simp)) hwrite
      · exact absurd (own hd (by simp) (by simp)) hpage
    · rcases hcount with h1 | ⟨h1, hd | hd⟩
      · exact .inl (hdis.trans h1)
      · exact .inr (.inr ⟨hdis.trans h1, .inl (own hd (by simp) (by simp))⟩)
      · exact .inr (.inr ⟨hdis.trans h1, .inr (hresume hd)⟩)

end Sys2Proof.Proofs

/-! PROOF. Frames of the link and records of the switch are read back from their bytes (12.1, 12.2). -/

namespace Sys2Proof

/-! ### Numbers in bytes (12) -/

@[simp] theorem beBytes_length (k n : Nat) : (beBytes k n).length = k := by
  induction k with
  | zero => rfl
  | succ k ih => simp [beBytes, ih]

theorem foldl_beBytes (k n a : Nat) :
    (beBytes k n).foldl (fun m b => m * 256 + b.toNat) a = a * 256 ^ k + n % 256 ^ k := by
  induction k generalizing a with
  | zero => simp [beBytes, Nat.mod_one]
  | succ k ih =>
    have hmod := Nat.mod_mul (x := n) (a := 256 ^ k) (b := 256)
    rw [beBytes, List.foldl_cons, ih, BitVec.toNat_ofNat, pow_succ 256 k, hmod]
    norm_num
    ring

/-- A number that fits is read back from its bytes. -/
theorem beNat_beBytes {k n : Nat} (h : n < 256 ^ k) : beNat (beBytes k n) = n := by
  simp [beNat, foldl_beBytes, Nat.mod_eq_of_lt h]

@[simp] theorem take_beBytes_append (k n : Nat) (rest : List Byte) :
    (beBytes k n ++ rest).take k = beBytes k n := List.take_left' (beBytes_length k n)

@[simp] theorem drop_beBytes_append (k n : Nat) (rest : List Byte) :
    (beBytes k n ++ rest).drop k = rest := List.drop_left' (beBytes_length k n)

/-- Digits are read back from their bytes. -/
theorem map_toNat_ofNat {ds : List Nat} (h : ∀ d ∈ ds, d ≤ 9) :
    (ds.map (BitVec.ofNat 8)).map BitVec.toNat = ds := by
  rw [List.map_map]
  refine (List.map_congr_left fun d hd => ?_).trans (List.map_id ds)
  have := h d hd
  simp only [Function.comp, BitVec.toNat_ofNat, id]
  omega

theorem wfExtension_bounds {e : Nat} (h : wfExtension e = true) : 1000 ≤ e ∧ e ≤ 99999 :=
  (Machine.wfExtension_iff e).1 h

/-- An extension is read back from its 3 bytes. -/
theorem beNat_extension {e : Nat} (h : wfExtension e = true) : beNat (beBytes 3 e) = e :=
  beNat_beBytes (by have := wfExtension_bounds h; omega)

/-! ### The payloads of frames (12.1) -/

theorem balkReason?_code (r : BalkReason) : balkReason? r.code = some r := by cases r <;> rfl

/-- The fields of an OFFER lie within their encoding (12.1). -/
def OfferBody.wf (o : OfferBody) : Bool :=
  (if o.list then decide (o.target < 32) else wfExtension o.target)
    && 16 ≤ o.segments && o.segments ≤ 9600
    && (match o.origin with | none => true | some e => wfExtension e)
    && (match o.identity with
        | none => true
        | some ds => 1 ≤ ds.length && ds.length ≤ 16 && ds.all (· ≤ 9))

/-- The flags of an OFFER are read back bit by bit. -/
theorem offerFlags (list urgent : Bool) :
    (((if list then 1 else 0) + (if urgent then 2 else 0)) % 2 == 1) = list ∧
      (((if list then 1 else 0) + (if urgent then 2 else 0)) / 2 == 1) = urgent ∧
      (if list then 1 else 0) + (if urgent then 2 else 0) < 4 := by
  revert list urgent; decide

/-- An optional extension is read back; 0 stands for none (12). -/
theorem optExt_origin {o : Option Nat} (h : ∀ e, o = some e → wfExtension e = true) :
    optExt (o.getD 0) = o ∧ (o.getD 0 == 0 || wfExtension (o.getD 0)) = true ∧
      o.getD 0 < 256 ^ 3 := by
  cases o with
  | none => simp [optExt]
  | some e =>
    have hb := wfExtension_bounds (h e rfl)
    have hne : e ≠ 0 := by omega
    refine ⟨by simp [optExt, hne], by simp [h e rfl], ?_⟩
    simp only [Option.getD_some]
    omega

/-- Identity digits are read back; no digits stand for none (12.1). -/
theorem optDigits_identity {o : Option (List Nat)}
    (h : ∀ ds, o = some ds → 1 ≤ ds.length ∧ ds.length ≤ 16 ∧ ∀ d ∈ ds, d ≤ 9) :
    optDigits (o.getD []) = o ∧ (o.getD []).length ≤ 16 ∧ ∀ d ∈ o.getD [], d ≤ 9 := by
  cases o with
  | none => simp [optDigits]
  | some ds =>
    obtain ⟨h1, h2, h3⟩ := h ds rfl
    refine ⟨?_, h2, h3⟩
    cases ds with
    | nil => simp at h1
    | cons d ds => rfl

theorem decodeOffer_encodeOffer {o : OfferBody} (h : o.wf = true) :
    decodeOffer (encodeOffer o) = some o := by
  obtain ⟨list, urgent, target, segments, origin, identity⟩ := o
  simp only [OfferBody.wf, Bool.and_eq_true, decide_eq_true_eq] at h
  obtain ⟨⟨⟨⟨htarget, hlow⟩, hhigh⟩, horigin⟩, hidentity⟩ := h
  obtain ⟨hlist, hurgent, hflags⟩ := offerFlags list urgent
  obtain ⟨hopt, hext, hfits⟩ := optExt_origin (o := origin) fun e he => by simpa [he] using horigin
  obtain ⟨hdigits, hlen, hall⟩ := optDigits_identity (o := identity) fun ds he => by
    simpa [he, and_assoc] using hidentity
  have htfits : target < 256 ^ 3 := by
    cases list with
    | true => simp at htarget; omega
    | false => have := wfExtension_bounds (by simpa using htarget); omega
  have hsfits : segments < 256 ^ 2 := by omega
  have hbytes := map_toNat_ofNat hall
  have hlength : (encodeOffer ⟨list, urgent, target, segments, origin, identity⟩).length =
      10 + (identity.getD []).length := by simp [encodeOffer]; omega
  have e : (encodeOffer ⟨list, urgent, target, segments, origin, identity⟩).drop 0 =
      beBytes 1 ((if list then 1 else 0) + (if urgent then 2 else 0)) ++ (beBytes 3 target ++
      (beBytes 2 segments ++ (beBytes 3 (origin.getD 0) ++ (beBytes 1 (identity.getD []).length ++
      (identity.getD []).map (BitVec.ofNat 8))))) := by simp [encodeOffer]
  generalize encodeOffer ⟨list, urgent, target, segments, origin, identity⟩ = p at *
  generalize (if list = true then 1 else 0) + (if urgent = true then 2 else 0) = flags at *
  obtain ⟨f0, e⟩ := part_at e (beBytes_length _ _)
  obtain ⟨f1, e⟩ := part_at e (beBytes_length _ _)
  obtain ⟨f4, e⟩ := part_at e (beBytes_length _ _)
  obtain ⟨f6, e⟩ := part_at e (beBytes_length _ _)
  obtain ⟨f9, e⟩ := part_at e (beBytes_length _ _)
  simp only [List.drop_zero, Nat.zero_add, Nat.reduceAdd] at f0 f1 f4 f6 f9 e
  rw [decodeOffer, f0, f1, f4, f6, f9, e, beNat_beBytes (by omega : flags < 256 ^ 1),
    beNat_beBytes htfits, beNat_beBytes hsfits, beNat_beBytes hfits,
    beNat_beBytes (by omega : (identity.getD []).length < 256 ^ 1), hbytes]
  rw [hlist, hurgent, hopt, hdigits, if_pos]
  simp only [Bool.and_eq_true, decide_eq_true_eq, beq_iff_eq, List.all_eq_true, hlength]
  exact ⟨⟨⟨⟨⟨⟨⟨⟨by omega, hlen⟩, trivial⟩, hflags⟩, htarget⟩, hlow⟩, hhigh⟩, hext⟩, hall⟩

/-- The fields of a body lie within their encodings (12.1). -/
def Body.wf : Body → Bool
  | .hail g => g < 65536
  | .seek n e => 1 ≤ n && n < 65536 && wfExtension e
  | .claim n e => 1 ≤ n && n < 65536 && wfExtension e
  | .offer o => o.wf
  | .take => true
  | .balk _ => true
  | .carry i seg => i ≤ 9599 && seg.code.length == segmentBytes
  | .close n => n < 65536
  | .receipt _ => true

/-- A number and an extension, as SEEK and CLAIM carry them, are read back. -/
theorem number_extension {n e : Nat} (h : (1 ≤ n && n < 65536 && wfExtension e) = true) :
    (beBytes 2 n ++ beBytes 3 e).length = 5 ∧
      beNat ((beBytes 2 n ++ beBytes 3 e).take 2) = n ∧
      beNat ((beBytes 2 n ++ beBytes 3 e).drop 2) = e ∧ n ≠ 0 ∧ wfExtension e = true := by
  simp only [Bool.and_eq_true, decide_eq_true_eq] at h
  obtain ⟨⟨hlow, hhigh⟩, hext⟩ := h
  refine ⟨by simp, ?_, ?_, by omega, hext⟩
  · rw [take_beBytes_append, beNat_beBytes (by omega)]
  · rw [drop_beBytes_append, beNat_extension hext]

/-- A well-formed body is read back from its payload (12.1). -/
theorem decodeBody_encodeBody {b : Body} (h : b.wf = true) :
    decodeBody b.code b.magnitude (encodeBody b) = some b := by
  cases b with
  | hail g =>
    have hg : g < 65536 := by simpa [Body.wf] using h
    simp [decodeBody, Body.code, encodeBody, beNat_beBytes (k := 2) hg]
  | seek n e =>
    obtain ⟨hlen, hnum, hext, hne, hwf⟩ := number_extension h
    simp only [decodeBody, Body.code, encodeBody, hlen, hnum, hext]
    simp [hne, hwf]
  | claim n e =>
    obtain ⟨hlen, hnum, hext, hne, hwf⟩ := number_extension h
    simp only [decodeBody, Body.code, encodeBody, hlen, hnum, hext]
    simp [hne, hwf]
  | offer o => simp [decodeBody, Body.code, encodeBody, decodeOffer_encodeOffer h]
  | take => rfl
  | balk r =>
    have hr : r.code < 256 := by cases r <;> decide
    simp [decodeBody, Body.code, encodeBody, beNat_beBytes (k := 1) hr, balkReason?_code]
  | carry i seg =>
    simp only [Body.wf, Bool.and_eq_true, decide_eq_true_eq, beq_iff_eq, segmentBytes] at h
    obtain ⟨hi, hcode⟩ := h
    have hfits : i < 256 ^ 2 := by omega
    simp [decodeBody, Body.code, encodeBody, Body.magnitude, beNat_beBytes hfits, hi, hcode]
  | close n =>
    have hn : n < 65536 := by simpa [Body.wf] using h
    simp [decodeBody, Body.code, encodeBody, beNat_beBytes (k := 2) hn]
  | receipt ok => cases ok <;> rfl

/-- A frame is well formed when its addresses, its tag and its body are (12.1). -/
theorem Frame.wf_parts {f : Frame} (h : f.wf = true) :
    (1 ≤ f.source ∧ f.source ≤ 30) ∧ (1 ≤ f.dest ∧ f.dest ≤ 31) ∧ f.tag < 256 ∧
      (f.body.toAll == (f.dest == Config.allNodes)) = true ∧ f.body.wf = true := by
  obtain ⟨source, dest, tag, body⟩ := f
  simp only [Frame.wf, Bool.and_eq_true, decide_eq_true_eq] at h
  obtain ⟨⟨⟨⟨⟨⟨h1, h2⟩, h3⟩, h4⟩, h5⟩, h6⟩, h7⟩ := h
  refine ⟨⟨h1, h2⟩, ⟨h3, h4⟩, h5, h6, ?_⟩
  cases body <;> exact h7

/-! ### Records from the switch (12.2) -/

theorem callReason?_code (r : CallReason) : callReason? r.code = some r := by cases r <;> rfl
theorem lampResult?_code (r : LampResult) : lampResult? r.code = some r := by cases r <;> rfl

theorem key?_code {k : Key} (h : wfKey k = true) : key? k.code = some k := by
  cases k with
  | num n => simp [key?, Key.code, show n ≤ 9 by simpa [wfKey] using h]
  | star => rfl
  | hash => rfl

theorem Key.code_lt {k : Key} (h : wfKey k = true) : k.code < 256 ^ 1 := by
  cases k with
  | num n => have : n ≤ 9 := by simpa [wfKey] using h
             simp only [Key.code]; omega
  | star => decide
  | hash => decide

/-- A CALL is read back from its fields (12.2). -/
theorem decodeCall_fields {ch ext : Nat} (r : CallReason) (internal : Bool) {ids : List Nat}
    (hext : wfExtension ext = true) (hids : wfIdentity ids = true) :
    decodeCall ch (beBytes 3 ext ++ beBytes 1 r.code ++ beBytes 1 (if internal then 1 else 0) ++
      beBytes 1 ids.length ++ ids.map (BitVec.ofNat 8)) = some (.call ch ext r internal ids) := by
  obtain ⟨hlen, hall⟩ : ids.length ≤ 32 ∧ ∀ d ∈ ids, d ≤ 9 := (Machine.wfIdentity_iff ids).1 hids
  have hbytes := map_toNat_ofNat hall
  have hreason : r.code < 256 ^ 1 := by cases r <;> decide
  have hflag : (if internal then 1 else 0) < 256 ^ 1 ∧ ((if internal then 1 else 0) == 1) = internal ∧
      (if internal then 1 else 0) < 2 := by cases internal <;> decide
  obtain ⟨hflag, hinternal, hflags⟩ := hflag
  generalize hp : beBytes 3 ext ++ beBytes 1 r.code ++ beBytes 1 (if internal then 1 else 0) ++
    beBytes 1 ids.length ++ ids.map (BitVec.ofNat 8) = p
  have hlength : p.length = 6 + ids.length := by rw [← hp]; simp; omega
  have e : p.drop 0 = beBytes 3 ext ++ (beBytes 1 r.code ++
      (beBytes 1 (if internal then 1 else 0) ++ (beBytes 1 ids.length ++
      ids.map (BitVec.ofNat 8)))) := by rw [← hp]; simp
  clear hp
  generalize (if internal = true then 1 else 0) = flag at *
  obtain ⟨f0, e⟩ := part_at e (beBytes_length _ _)
  obtain ⟨f3, e⟩ := part_at e (beBytes_length _ _)
  obtain ⟨f4, e⟩ := part_at e (beBytes_length _ _)
  obtain ⟨f5, e⟩ := part_at e (beBytes_length _ _)
  simp only [List.drop_zero, Nat.zero_add, Nat.reduceAdd] at f0 f3 f4 f5 e
  rw [decodeCall, f0, f3, f4, f5, e, beNat_extension hext, beNat_beBytes hreason,
    beNat_beBytes hflag, beNat_beBytes (by omega : ids.length < 256 ^ 1), hbytes, callReason?_code]
  rw [hinternal, if_pos]
  · rfl
  simp only [Bool.and_eq_true, decide_eq_true_eq, beq_iff_eq, List.all_eq_true, hlength]
  exact ⟨⟨⟨⟨⟨by omega, trivial⟩, hlen⟩, hext⟩, hflags⟩, hall⟩

/-- The channel and the length of a record stand in their bytes. -/
theorem rawRecord_reads {type ch : Nat} {p : List Byte} (hch : ch < 256) (hp : p.length < 256)
    (htype : type < 256) : (rawRecord type ch p).type.toNat = type ∧
      (rawRecord type ch p).channel.toNat = ch ∧ (rawRecord type ch p).length.toNat = p.length ∧
      (rawRecord type ch p).fields = p := by
  simp [rawRecord, Nat.mod_eq_of_lt, hch, hp, htype]

end Sys2Proof

namespace Sys2Proof.Proofs

open Sys2Proof Sys2Proof.Machine

/-- Settles O11: the body is read back from its payload, the addresses and the tag from their bits, and the
CRC is the one computed over them. -/
theorem framesRoundTrip : Obligations.FramesRoundTrip := by
  intro priority f hpriority hwf
  obtain ⟨⟨hs1, hs2⟩, ⟨hd1, hd2⟩, htag, hall, hbody⟩ := Frame.wf_parts hwf
  have hcode : f.body.code < 16 := by cases f.body <;> simp [Body.code]
  have hsource : (BitVec.ofNat 5 f.source).toNat = f.source := by
    rw [BitVec.toNat_ofNat]; exact Nat.mod_eq_of_lt (by omega)
  have hdest : (BitVec.ofNat 5 f.dest).toNat = f.dest := by
    rw [BitVec.toNat_ofNat]; exact Nat.mod_eq_of_lt (by omega)
  have hkind : (BitVec.ofNat 4 f.body.code).toNat = f.body.code := by
    rw [BitVec.toNat_ofNat]; exact Nat.mod_eq_of_lt (by omega)
  have htagged : (BitVec.ofNat 8 f.tag).toNat = f.tag := by
    rw [BitVec.toNat_ofNat]; exact Nat.mod_eq_of_lt (by omega)
  constructor
  · simp only [decodeFrame, encodeFrame, hsource, hdest, hkind, htagged,
      decodeBody_encodeBody hbody, hall, if_true]
  · simp only [RawFrame.intact, encodeFrame, hsource, hdest, Config.nodes, Bool.and_eq_true,
      decide_eq_true_eq]
    exact ⟨⟨⟨beq_iff_eq.2 rfl, hs1⟩, hs2⟩, hd1⟩

/-- Settles O12, record by record. -/
theorem recordsRoundTrip : Obligations.RecordsRoundTrip := by
  intro c r hwf hr
  have hchannel : ∀ {ch}, wfChannel ch = true → ch < 256 := fun h => by
    have := (wfChannel_iff _).1 h; omega
  cases c with
  | call ch ext reason internal ids =>
    simp only [wellFormed, Bool.and_eq_true] at hwf
    obtain ⟨⟨hch, hext⟩, hids⟩ := hwf
    have hlen : ids.length ≤ 32 := ((wfIdentity_iff ids).1 hids).1
    cases hr
    obtain ⟨h1, h2, h3, h4⟩ := rawRecord_reads (type := 1) (p := beBytes 3 ext ++ beBytes 1 reason.code ++
      beBytes 1 (if internal then 1 else 0) ++ beBytes 1 ids.length ++ ids.map (BitVec.ofNat 8))
      (hchannel hch) (by simp; omega) (by omega)
    simp only [decodeRecord, h1, h2, h3, h4, hch, ne_eq, not_true_eq_false, if_true, if_false]
    exact decodeCall_fields reason internal hext hids
  | retrieve ch ext =>
    simp only [wellFormed, Bool.and_eq_true] at hwf
    obtain ⟨hch, hext⟩ := hwf
    cases hr
    obtain ⟨h1, h2, h3, h4⟩ := rawRecord_reads (type := 2) (p := beBytes 3 ext) (hchannel hch)
      (by simp) (by omega)
    simp only [decodeRecord, h1, h2, h3, h4, hch, ne_eq, not_true_eq_false, if_false,
      beNat_extension hext, hext, beBytes_length]
    rfl
  | digit ch key =>
    simp only [wellFormed, Bool.and_eq_true] at hwf
    obtain ⟨hch, hkey⟩ := hwf
    cases hr
    obtain ⟨h1, h2, h3, h4⟩ := rawRecord_reads (type := 3) (p := beBytes 1 key.code) (hchannel hch)
      (by simp) (by omega)
    simp only [decodeRecord, h1, h2, h3, h4, hch, ne_eq, not_true_eq_false, if_false,
      beNat_beBytes (Key.code_lt hkey), key?_code hkey, beBytes_length]
    rfl
  | release ch g =>
    simp only [wellFormed, Bool.and_eq_true] at hwf
    cases g with
    | some seg => cases hr
    | none =>
      cases hr
      obtain ⟨h1, h2, h3, h4⟩ := rawRecord_reads (type := 4) (p := []) (hchannel hwf.1)
        (by simp) (by omega)
      simp only [decodeRecord, h1, h2, h3, h4, hwf.1, ne_eq, not_true_eq_false, if_false]
      rfl
  | time day minute =>
    simp only [wellFormed, Bool.and_eq_true, decide_eq_true_eq] at hwf
    cases hr
    obtain ⟨h1, -, h3, h4⟩ := rawRecord_reads (type := 5) (ch := 0)
      (p := beBytes 2 day ++ beBytes 2 minute) (by omega) (by simp) (by omega)
    simp only [decodeRecord, h1, h3, h4, ne_eq, not_true_eq_false, if_false,
      take_beBytes_append, drop_beBytes_append, beNat_beBytes (k := 2) hwf.1,
      beNat_beBytes (k := 2) hwf.2, List.length_append, beBytes_length]
    rfl
  | lampResult ext result =>
    have hext : wfExtension ext = true := hwf
    have hresult : result.code < 256 ^ 1 := by cases result <;> decide
    cases hr
    obtain ⟨h1, -, h3, h4⟩ := rawRecord_reads (type := 6) (ch := 0)
      (p := beBytes 3 ext ++ beBytes 1 result.code) (by omega) (by simp) (by omega)
    simp only [decodeRecord, h1, h3, h4, ne_eq, not_true_eq_false, if_false,
      take_beBytes_append, drop_beBytes_append, beNat_extension hext, beNat_beBytes hresult, hext,
      lampResult?_code, List.length_append, beBytes_length]
    rfl
  | lineReset g =>
    cases g with
    | nil => cases hr; rfl
    | cons x g => cases hr
  | statusQuery | shutdown | resume => cases hr; rfl
  | _ => cases hr

end Sys2Proof.Proofs

/-! PROOF. The settings of a usable image lie in their ranges (R2, R7, R17, R22, R26, R28, R111, R176, R177). -/

namespace Sys2Proof.Machine

/-! ### Clamping (R28) -/

theorem clampTo_bounds {lo hi n : Nat} (h : lo ≤ hi) : lo ≤ clampTo lo hi n ∧ clampTo lo hi n ≤ hi := by
  unfold clampTo; omega

/-- Every value of a clamped class lies in its range, and the minimum room below the longest message. -/
theorem classOf_bounds (b : List Byte) (c : Nat) :
    let x := classOf b c
    (x.quota ≤ 16000 ∧ 1 ≤ x.maxEntries ∧ x.maxEntries ≤ 64 ∧ 10 ≤ x.maxSeconds ∧
      x.maxSeconds ≤ 600 ∧ 2 ≤ x.minRoom ∧ x.minRoom ≤ 30 ∧ x.minRoom ≤ x.maxSeconds ∧
      1 ≤ x.heardDays ∧ x.heardDays ≤ 90 ∧ 1 ≤ x.savedDays ∧ x.savedDays ≤ 365 ∧
      x.allowance ≤ 480 ∧ 1 ≤ x.broadcastLife ∧ x.broadcastLife ≤ 30 ∧
      ∀ e, x.operator = some e → 1000 ≤ e ∧ e ≤ 99999) := by
  intro x
  have hseconds : 10 ≤ classSeconds b c ∧ classSeconds b c ≤ 600 := clampTo_bounds (by decide)
  have hroom := clampTo_bounds (n := field b (classBase c + 5) 1) (show 2 ≤ 30 by decide)
  have hentries := clampTo_bounds (n := field b (classBase c + 2) 1) (show 1 ≤ 64 by decide)
  have hheard := clampTo_bounds (n := field b (classBase c + 6) 1) (show 1 ≤ 90 by decide)
  have hsaved := clampTo_bounds (n := field b (classBase c + 8) 2) (show 1 ≤ 365 by decide)
  have hlife := clampTo_bounds (n := field b (classBase c + 12) 1) (show 1 ≤ 30 by decide)
  have hquota := clampTo_bounds (n := field b (classBase c) 2) (show 0 ≤ 16000 by decide)
  have hallow := clampTo_bounds (n := field b (classBase c + 10) 2) (show 0 ≤ 480 by decide)
  have hmin : x.minRoom = min (clampTo 2 30 (field b (classBase c + 5) 1)) (classSeconds b c) := rfl
  refine ⟨hquota.2, hentries.1, hentries.2, hseconds.1, hseconds.2, by omega, by omega,
    Nat.min_le_right _ _, hheard.1, hheard.2, hsaved.1, hsaved.2, hallow.2, hlife.1, hlife.2, fun e he => ?_⟩
  simp only [x, classOf] at he
  split at he
  · rename_i hwf
    cases he
    exact (wfExtension_iff _).1 hwf
  · cases he

/-! ### The mailbox table (R26) -/

theorem recordsFrom_length (b : List Byte) (n k : Nat) (earlier : List Nat) :
    (recordsFrom b n k earlier).length = n := by
  induction n generalizing k earlier with
  | zero => rfl
  | succ n ih => simp [recordsFrom, ih]

/-- Every record is one of the image, judged after some extensions. -/
theorem mem_recordsFrom {b : List Byte} {n k : Nat} {earlier : List Nat} {m : MailboxCfg}
    (h : m ∈ recordsFrom b n k earlier) : ∃ seen j, m = recordOfImage b seen j := by
  induction n generalizing k earlier with
  | zero => cases h
  | succ n ih =>
    rcases List.mem_cons.1 h with rfl | h
    · exact ⟨earlier, k, rfl⟩
    · exact ih h

/-- A record's class is one of eight, and a usable one has an extension of a range. -/
theorem recordOfImage_bounds (b : List Byte) (seen : List Nat) (j : Nat) :
    (recordOfImage b seen j).cls ≤ 7 ∧ ((recordOfImage b seen j).usable = true →
      1000 ≤ (recordOfImage b seen j).extension ∧ (recordOfImage b seen j).extension ≤ 99999 ∧
      ∃ r ∈ imageRanges b, r.1 ≤ (recordOfImage b seen j).extension ∧
        (recordOfImage b seen j).extension ≤ r.2) := by
  refine ⟨Nat.min_le_left _ _, fun h => ?_⟩
  simp only [recordOfImage, recordUsable, Bool.and_eq_true, List.any_eq_true, decide_eq_true_eq] at h
  obtain ⟨⟨hwf, r, hr, hlow, hhigh⟩, _⟩ := h
  obtain ⟨hmin, hmax⟩ := (wfExtension_iff _).1 hwf
  exact ⟨hmin, hmax, r, hr, hlow, hhigh⟩

/-! ### The scan range (R111) -/

theorem scanRange_bounds {m first last : Nat} (h : 1 ≤ m) :
    (scanRange m first last).1 ≤ (scanRange m first last).2 ∧ (scanRange m first last).2 < m := by
  unfold scanRange
  dsimp only
  split <;> constructor <;> dsimp only <;> omega

/-- The settings of a usable image are those of a body that passes the tests of R176. -/
theorem loadImage_body {stream : List Byte} {c : Settings} (h : loadImage stream = some c) :
    ∃ b digest, c = settingsOf b digest ∧ 1 ≤ field b 0 1 ∧ field b 0 1 ≤ 30 ∧
      1 ≤ mailboxCount b ∧ mailboxCount b ≤ 2048 ∧ 1 ≤ rangeCount b ∧ rangeCount b ≤ 8 := by
  simp only [loadImage, Option.map_eq_some_iff, usableBody, Option.bind_eq_some_iff] at h
  obtain ⟨b, ⟨body, _, htests⟩, rfl⟩ := h
  split at htests
  · rename_i hok
    cases htests
    simp only [Bool.and_eq_true, decide_eq_true_eq] at hok
    obtain ⟨⟨⟨⟨⟨⟨⟨h1, h2⟩, h3⟩, h4⟩, h5⟩, h6⟩, _⟩, _⟩ := hok
    exact ⟨b, _, rfl, h1, h2, h3, h4, h5, h6⟩
  · cases htests

end Sys2Proof.Machine

namespace Sys2Proof.Proofs

open Sys2Proof Sys2Proof.Machine

/-- Settles O13: each value is a clamp or a test of the image. -/
theorem imageIsClamped : Obligations.ImageIsClamped := by
  intro stream c h
  obtain ⟨b, digest, rfl, hnode, hnode', hboxes, hboxes', hranges, hranges'⟩ := loadImage_body h
  have hlength : (imageMailboxes b).length = mailboxCount b := recordsFrom_length _ _ _ _
  have hcount : (imageRanges b).length = rangeCount b := by simp [imageRanges]
  have hpool : 1024 ≤ poolSize b ∧ poolSize b ≤ 65536 := clampTo_bounds (by decide)
  have hlow := clampTo_bounds (n := field b (scanBase b + 24) 1) (show 1 ≤ 50 by decide)
  have hscan := scanRange_bounds (first := field b (scanBase b) 2)
    (last := field b (scanBase b + 2) 2) hboxes
  simp only [settingsOf, hlength, hcount, List.length_map, List.length_range]
  refine ⟨⟨hnode, hnode', hboxes, hboxes', hranges, hranges'⟩,
    ⟨hpool.1, hpool.2, Nat.min_le_left _ _, Nat.min_le_left _ _, Nat.min_le_left _ _, hlow.1, hlow.2⟩,
    ⟨hscan.1, hscan.2, Nat.min_le_left _ _, Nat.min_le_left _ _, trivial⟩,
    ⟨trivial, fun x hx => ?_⟩, fun m hm => ?_⟩
  · obtain ⟨k, _, rfl⟩ := List.mem_map.1 hx
    exact classOf_bounds b k
  · obtain ⟨seen, j, rfl⟩ := mem_recordsFrom hm
    exact recordOfImage_bounds b seen j

end Sys2Proof.Proofs

/-! PROOF. What a latch and the store-low evaluation leave alone, and how each request of the Audio Store
behaves (R4-R20, R22, R187). -/

namespace Sys2Proof.Machine

section
variable (s : State)

/-! ### What a latch and an evaluation leave alone (R22, R187) -/

@[simp] theorem latch_startStep (a : Alarm) : (s.latch a).startStep = s.startStep := by rw [latch_eq]
@[simp] theorem latch_configured (a : Alarm) : (s.latch a).configured = s.configured := by rw [latch_eq]
@[simp] theorem latch_generation (a : Alarm) : (s.latch a).generation = s.generation := by rw [latch_eq]
@[simp] theorem latch_store (a : Alarm) : (s.latch a).store = s.store := by rw [latch_eq]
@[simp] theorem latch_mailboxes (a : Alarm) : (s.latch a).mailboxes = s.mailboxes := by rw [latch_eq]
@[simp] theorem latch_chans (a : Alarm) : (s.latch a).chans = s.chans := by rw [latch_eq]
@[simp] theorem latch_lamp (a : Alarm) : (s.latch a).lamp = s.lamp := by rw [latch_eq]
@[simp] theorem latch_link (a : Alarm) : (s.latch a).link = s.link := by rw [latch_eq]
@[simp] theorem latch_deliv (a : Alarm) : (s.latch a).deliv = s.deliv := by rw [latch_eq]
@[simp] theorem latch_house (a : Alarm) : (s.latch a).house = s.house := by rw [latch_eq]
@[simp] theorem latch_writer (a : Alarm) : (s.latch a).writer = s.writer := by rw [latch_eq]
@[simp] theorem latch_index (a : Alarm) : (s.latch a).index = s.index := by rw [latch_eq]
@[simp] theorem latch_audio (a : Alarm) : (s.latch a).audio = s.audio := by rw [latch_eq]
@[simp] theorem latch_discarded (a : Alarm) : (s.latch a).discarded = s.discarded := by rw [latch_eq]
@[simp] theorem latch_lines (a : Alarm) : (s.latch a).lines = s.lines := by rw [latch_eq]
@[simp] theorem latch_linkOut (a : Alarm) : (s.latch a).linkOut = s.linkOut := by rw [latch_eq]
@[simp] theorem latch_pending (a : Alarm) : (s.latch a).pending = s.pending := by rw [latch_eq]

@[simp] theorem evalLow_startStep : s.evalLow.startStep = s.startStep := by rw [evalLow_eq]
@[simp] theorem evalLow_configured : s.evalLow.configured = s.configured := by rw [evalLow_eq]
@[simp] theorem evalLow_generation : s.evalLow.generation = s.generation := by rw [evalLow_eq]
@[simp] theorem evalLow_store : s.evalLow.store = s.store := by rw [evalLow_eq]
@[simp] theorem evalLow_mailboxes : s.evalLow.mailboxes = s.mailboxes := by rw [evalLow_eq]
@[simp] theorem evalLow_chans : s.evalLow.chans = s.chans := by rw [evalLow_eq]
@[simp] theorem evalLow_lamp : s.evalLow.lamp = s.lamp := by rw [evalLow_eq]
@[simp] theorem evalLow_link : s.evalLow.link = s.link := by rw [evalLow_eq]
@[simp] theorem evalLow_deliv : s.evalLow.deliv = s.deliv := by rw [evalLow_eq]
@[simp] theorem evalLow_house : s.evalLow.house = s.house := by rw [evalLow_eq]
@[simp] theorem evalLow_writer : s.evalLow.writer = s.writer := by rw [evalLow_eq]
@[simp] theorem evalLow_index : s.evalLow.index = s.index := by rw [evalLow_eq]
@[simp] theorem evalLow_audio : s.evalLow.audio = s.audio := by rw [evalLow_eq]
@[simp] theorem evalLow_discarded : s.evalLow.discarded = s.discarded := by rw [evalLow_eq]
@[simp] theorem evalLow_lines : s.evalLow.lines = s.lines := by rw [evalLow_eq]
@[simp] theorem evalLow_linkOut : s.evalLow.linkOut = s.linkOut := by rw [evalLow_eq]
@[simp] theorem evalLow_pending : s.evalLow.pending = s.pending := by rw [evalLow_eq]

/-! ### Reading an object (R4) -/

/-- An object is read from the object table alone. -/
theorem State.obj?_congr {s t : State} (h : t.store.objects = s.store.objects) (n : Nat) :
    t.obj? n = s.obj? n := by rw [State.obj?, State.obj?, h]

@[simp] theorem latch_obj? (a : Alarm) (n : Nat) : (s.latch a).obj? n = s.obj? n :=
  State.obj?_congr (by simp) n
@[simp] theorem evalLow_obj? (n : Nat) : s.evalLow.obj? n = s.obj? n := State.obj?_congr (by simp) n
@[simp] theorem markObject_obj? (m n : Nat) : (s.markObject m).obj? n = s.obj? n := rfl
@[simp] theorem markObject_store (m : Nat) : (s.markObject m).store = s.store := rfl
@[simp] theorem onAudio_obj? (f : List (Nat × Segment) → List (Nat × Segment)) (n : Nat) :
    (s.onAudio f).obj? n = s.obj? n := rfl
@[simp] theorem onStore_obj? (f : Store → Store) (n : Nat) :
    (s.onStore f).obj? n = tblGet n (f s.store).objects := rfl

/-- A change of an object that is there sets it in the table. -/
theorem onObj_of_obj? {n : Nat} {o : Obj} (f : Obj → Obj) (h : s.obj? n = some o) :
    s.onObj n f = s.onStore fun st => { st with objects := tblSet n (f o) st.objects } := by
  simp [State.onObj, h]

theorem obj?_tblSet_same {s : State} (n : Nat) (o : Obj) :
    tblGet n (tblSet n o s.store.objects) = some o := tblGet_tblSet_same n o _

/-! ### Appending (R16, R17) -/

section
variable {s} {n : Nat} {o : Obj}

theorem counted_silent (s : State) (o : Obj) (seg : Segment) :
    o.counted (s.silent seg) = { o with
      segments := o.segments + 1
      silentTail := if seg.magnitude < 500 * s.cfg.silence then o.silentTail + 1 else 0 } := by
  by_cases h : seg.magnitude < 500 * s.cfg.silence <;>
    simp [Obj.counted, State.silent, Config.samplesPerSegment, h]

/-- A spent earmark refuses the block that a full last block calls for (R16). -/
theorem append_spent (seg : Segment) (ho : s.obj? n = some o) (hfull : o.segments % 8 = 0)
    (he : o.earmark = 0) : s.append n seg = none := by
  unfold State.append
  simp only [ho, hfull, he, if_true]
  split <;> rfl

/-- A full last block takes the block at the head of the free list (R16). -/
theorem append_newBlock {b : Nat} {rest : List Nat} (seg : Segment) (ho : s.obj? n = some o)
    (hfull : o.segments % 8 = 0) (he : 0 < o.earmark) (hf : s.store.free = b :: rest) :
    s.append n seg = some ((s.onStore fun st => { st with
      free := rest, earmark := st.earmark - 1
      objects := tblSet n (({ o with chain := o.chain ++ [b], earmark := o.earmark - 1 } : Obj).counted
        (s.silent seg)) st.objects }).onAudio fun m => audioWrite m (audioAddr b 0) seg).evalLow := by
  unfold State.append
  simp [ho, hfull, hf, Nat.ne_of_gt he]

/-- Any other segment joins the last block (R16). -/
theorem append_lastBlock {b : Nat} (seg : Segment) (ho : s.obj? n = some o)
    (hroom : o.segments % 8 ≠ 0) (hb : o.chain.getLast? = some b) :
    s.append n seg = some ((s.onStore fun st => { st with
      objects := tblSet n (o.counted (s.silent seg)) st.objects }).onAudio fun m =>
        audioWrite m (audioAddr b (o.segments % 8)) seg) := by
  unfold State.append
  simp [ho, hroom, hb, onObj_of_obj? s _ ho]

end

/-! ### Closing and discarding (R18, R19) -/

section
variable {s} {n : Nat} {o : Obj}

/-- The last acts of a close that keeps the object: the removed blocks join the free-list tail (R18). -/
def State.keepClosed (s : State) (n : Nat) (o : Obj) (trim holders : Nat) : State :=
  ((s.onStore fun st => { st with
    free := st.free ++ o.chain.drop (blocksOf (o.segments - trim))
    objects := tblSet n (o.closed trim holders) st.objects
    earmark := st.earmark - o.earmark
    sharedUse :=
      if o.use = .shared then
        st.sharedUse - ((o.chain.drop (blocksOf (o.segments - trim))).length + o.earmark)
      else st.sharedUse }).markObject n).evalLow

/-- A close that leaves 16 segments or more keeps the object (R18). -/
theorem closeObj_kept (ho : s.obj? n = some o) {trim holders : Nat} (hmin : 16 ≤ o.segments - trim)
    (hh : 1 ≤ holders) : s.closeObj n trim holders = (true, s.keepClosed n o trim holders) := by
  have hlow : ¬ o.segments - trim < Config.minSegments := Nat.not_lt.2 hmin
  have hne : holders ≠ 0 := by omega
  simp only [State.closeObj, ho, if_neg hlow, if_neg hne]
  rfl

/-- A close that leaves fewer discards the object (R19). -/
theorem closeObj_short (ho : s.obj? n = some o) {trim : Nat} (holders : Nat)
    (hmin : o.segments - trim < 16) : s.closeObj n trim holders = (false, s.discardObj n) := by
  simp only [State.closeObj, ho, if_pos (show o.segments - trim < Config.minSegments from hmin)]

/-- The store after a discard (R19). -/
theorem discardObj_store (ho : s.obj? n = some o) : (s.discardObj n).store = { s.store with
    free := s.store.free ++ o.chain, objects := tblDel n s.store.objects
    earmark := s.store.earmark - o.earmark
    sharedUse := if o.use = .shared then s.store.sharedUse - (o.chain.length + o.earmark)
      else s.store.sharedUse } := by
  simp [State.discardObj, ho]

/-- A discard takes its object out of the table and no other (R19). -/
theorem discardObj_obj?_same (ho : s.obj? n = some o) (hr : rising s.store.objects = true) :
    (s.discardObj n).obj? n = none := by
  rw [State.obj?, discardObj_store ho]; exact tblGet_tblDel_same hr

theorem discardObj_obj?_ne {m : Nat} (hm : m ≠ n) : (s.discardObj n).obj? m = s.obj? m := by
  unfold State.discardObj
  split
  · rfl
  · simp only [evalLow_obj?, markObject_obj?, onStore_obj?]; exact tblGet_tblDel_ne _ hm

/-! ### References (R20) -/

theorem addRef_of_room (ho : s.obj? n = some o) (hc : o.complete = true) (hr : o.refs < 65535) :
    s.addRef n = some ((s.onStore fun st => { st with
      objects := tblSet n { o with refs := o.refs + 1 } st.objects }).markObject n) := by
  simp [State.addRef, ho, hc, show o.refs < Config.maxRefs from hr, onObj_of_obj? s _ ho]

theorem addRef_of_full (ho : s.obj? n = some o) (hr : 65535 ≤ o.refs) : s.addRef n = none := by
  simp [State.addRef, ho, show ¬ o.refs < Config.maxRefs from Nat.not_lt.2 hr]

theorem addRef_of_none (ho : s.obj? n = none) : s.addRef n = none := by simp [State.addRef, ho]

/-- A drop that leaves a reference lowers the count (R20). -/
theorem dropRef_of_more (ho : s.obj? n = some o) (hr : 2 ≤ o.refs) :
    s.dropRef n = (s.onStore fun st => { st with
      objects := tblSet n { o with refs := o.refs - 1 } st.objects }).markObject n := by
  have hlast : ¬ o.refs ≤ 1 := by omega
  simp [State.dropRef, ho, hlast, onObj_of_obj? s _ ho]

/-- The store after the last reference to a COMPLETE object is dropped (R20). -/
theorem dropRef_last_store (ho : s.obj? n = some o) (hc : o.complete = true) (hr : o.refs ≤ 1)
    (hrise : rising s.store.objects = true) : (s.dropRef n).store = { s.store with
      free := s.store.free ++ o.chain, objects := tblDel n s.store.objects
      sharedUse := if o.use = .shared then s.store.sharedUse - o.chain.length
        else s.store.sharedUse } := by
  simp [State.dropRef, ho, hc, hr, onObj_of_obj? s _ ho, State.freeObj, tblGet_tblSet_same,
    tblDel_tblSet hrise (show tblGet n s.store.objects = some o from ho)]

/-- A drop touches no other object (R20). -/
theorem dropRef_obj?_ne {m : Nat} (hm : m ≠ n) : (s.dropRef n).obj? m = s.obj? m := by
  have hset : ∀ o' : Obj, tblGet m (tblSet n o' s.store.objects) = s.obj? m := fun o' =>
    tblGet_tblSet_ne _ _ hm
  unfold State.dropRef
  split
  · rfl
  · rename_i o ho
    rw [onObj_of_obj? s _ ho]
    dsimp only
    split
    · unfold State.freeObj
      split
      · simp [hset]
      · simp only [evalLow_obj?, markObject_obj?, onStore_obj?]
        rw [tblGet_tblDel_ne _ hm]
        exact hset _
    · simp [hset]

end

end

end Sys2Proof.Machine

namespace Sys2Proof.Proofs

open Sys2Proof Sys2Proof.Machine

/-- Settles O16: the three branches of an append, and the memory of the pool written at one position. -/
theorem appendStoresASegment : Obligations.AppendStoresASegment := by
  intro s n seg o ho hwf
  refine ⟨append_spent seg ho, fun b rest hfull he hf => ⟨_, append_newBlock seg ho hfull he hf, ?_⟩,
    fun b hroom hb => ⟨_, append_lastBlock seg ho hroom hb, ?_⟩⟩
  · refine ⟨?_, ?_, fun a ha => ?_, by simp, by simp, by simp⟩
    · simp [counted_silent]
    · simpa [audioAddr] using audioRead_write_same (audioAddr b 0) seg hwf
    · simpa [audioAddr] using audioRead_write_ne (a := audioAddr b 0) seg (m := s.audio) (b := a) ha
  · refine ⟨?_, ?_, fun a ha => ?_, by simp, by simp, by simp⟩
    · simp [counted_silent]
    · exact audioRead_write_same (audioAddr b (o.segments % 8)) seg hwf
    · exact audioRead_write_ne (a := audioAddr b (o.segments % 8)) seg (m := s.audio) ha

/-- Settles O17: a close keeps the object or discards it. -/
theorem closeKeepsOrDiscards : Obligations.CloseKeepsOrDiscards := by
  intro s n trim holders o ho hr
  refine ⟨fun hmin hh => ⟨_, closeObj_kept ho hmin hh, ?_⟩,
    fun hmin => ⟨_, closeObj_short ho holders hmin, rfl, discardObj_obj?_same ho hr,
      fun m => discardObj_obj?_ne, ?_, ?_, ?_, by simp, by simp, (discardObj_only s n).audio⟩⟩
  · refine ⟨?_, fun m hm => ?_, ?_, ?_, fun hu => ?_, ?_, ?_, ?_⟩
    · simp [State.keepClosed, tblGet_tblSet_same, Obj.closed, blocksOf]
    · simp only [State.keepClosed, evalLow_obj?, markObject_obj?, onStore_obj?]
      exact tblGet_tblSet_ne _ _ hm
    all_goals simp [State.keepClosed, blocksOf, State.markObject]
    simp [hu]
  all_goals rw [discardObj_store ho]

/-- Settles O18: an add raises the count of a COMPLETE object, and a drop lowers it or frees the object. -/
theorem referencesRiseAndFall : Obligations.ReferencesRiseAndFall := by
  intro s n o ho hc hr
  refine ⟨fun hroom => ⟨_, addRef_of_room ho hc hroom, ?_⟩, addRef_of_full ho, fun h2 => ?_, fun h1 => ?_,
    fun m => dropRef_obj?_ne, (dropRef_only s n).audio, by simp, by simp⟩
  · exact ⟨tblGet_tblSet_same _ _ _, fun m hm => tblGet_tblSet_ne _ _ hm, rfl, rfl, rfl, rfl, rfl, rfl⟩
  · rw [dropRef_of_more ho h2]
    exact ⟨tblGet_tblSet_same _ _ _, rfl⟩
  · have hstore := dropRef_last_store ho hc (Nat.le_of_eq h1) hr
    refine ⟨?_, ?_, ?_, ?_⟩
    · rw [State.obj?, hstore]; exact tblGet_tblDel_same hr
    all_goals rw [hstore]

end Sys2Proof.Proofs

/-! PROOF. The end of an act: the writer's next page, a completed write, the sources of the status lines,
and how a drain ends (R174, R175, R182, R189). -/

namespace Sys2Proof.Machine

section
variable (s : State)

/-! ### Pages of the index area (R178, R182) -/

theorem find?_storePage_same (p : PageId) (c : PageImage) (l : List (PageId × PageImage)) :
    (storePage p c l).find? (fun x => x.1 == p) = some (p, c) := by
  induction l with
  | nil => simp [storePage]
  | cons x rest ih =>
    by_cases hx : x.1 = p
    · simp [storePage, hx]
    · simpa [storePage, hx] using ih

theorem find?_storePage_ne {p q : PageId} (hq : q ≠ p) (c : PageImage) (l : List (PageId × PageImage)) :
    (storePage p c l).find? (fun x => x.1 == q) = l.find? fun x => x.1 == q := by
  have hpq : (p == q) = false := beq_eq_false_iff_ne.2 hq.symm
  induction l with
  | nil => simp [storePage, hpq]
  | cons x rest ih =>
    by_cases hx : x.1 = p
    · simp [storePage, hx, hpq]
    · by_cases hxq : x.1 = q
      · simp [storePage, hxq, hq]
      · simp [storePage, hx, hxq, ih]

/-- A stored page is read back, and every other page as before (R182). -/
theorem IndexArea.page?_stored (a : IndexArea) (p : PageId) (c : PageImage) :
    ({ a with pages := storePage p c a.pages } : IndexArea).page? p = some c ∧
      ∀ q, q ≠ p → ({ a with pages := storePage p c a.pages } : IndexArea).page? q = a.page? q := by
  simp only [IndexArea.page?, find?_storePage_same]
  exact ⟨rfl, fun q hq => by rw [find?_storePage_ne hq]⟩

/-! ### The writer (R182) -/

section
variable {s} (hm : s.mode = .serving ∨ s.mode = .draining) (hw : s.writer.writing = none)
include hm hw

theorem beginWrite_object {j : Nat} {rest : List Nat} (hd : s.writer.dirtyObjects = j :: rest) :
    s.beginWrite = { s with writer :=
      ⟨rest, s.writer.dirtyOthers, some (.object j, .objects (s.objectPageImage j))⟩ } := by
  rcases hm with hm | hm <;> simp [State.beginWrite, hm, hw, hd, State.onWriter, State.pageImage]

theorem beginWrite_other {p : PageId} {rest : List PageId} (hd : s.writer.dirtyObjects = [])
    (ho : s.writer.dirtyOthers = p :: rest) :
    s.beginWrite = { s with writer := ⟨[], rest, some (p, s.pageImage p)⟩ } := by
  rcases hm with hm | hm <;> simp [State.beginWrite, hm, hw, hd, ho, State.onWriter]

end

/-- A node that is neither serving nor draining begins no write (R182). -/
theorem beginWrite_of_mode (hs : s.mode ≠ .serving) (hd : s.mode ≠ .draining) : s.beginWrite = s := by
  simp [State.beginWrite, hs, hd]

/-- A completed write stands in the index area, and the writer is idle (R182). -/
theorem exec_pageWriteDone {p : PageId} {c : PageImage} (h : s.writer.writing = some (p, c)) :
    exec .pageWriteDone s = .next ({ s with
      index := { s.index with pages := storePage p c s.index.pages }
      writer := { s.writer with writing := none } } : State).settle := by
  change execPageWriteDone s = _
  simp [execPageWriteDone, State.writeDone, h, State.onIndex, State.onWriter, act]

/-! ### Status lines (R189) -/

theorem lineLevels_getElem? {i : Nat} (hi : i < 4) :
    s.lineLevels[i]? =
      some (s.configured && s.sourceActive ((s.cfg.lineSources[i]?).getD .none)) := by
  simp [State.lineLevels, hi]

theorem storeLow_iff : s.storeLow = true ↔ s.store.ready = true ∧
    s.store.free.length < s.cfg.pool * s.cfg.lowPercent / 100 + s.store.earmark := by
  rw [State.storeLow, Bool.and_eq_true, decide_eq_true_iff]
  rfl

theorem dirtyCount_pos_iff : 0 < s.dirtyCount ↔
    s.writer.dirtyObjects ≠ [] ∨ s.writer.dirtyOthers ≠ [] := by
  rw [← List.length_pos_iff, ← List.length_pos_iff, State.dirtyCount]
  omega

/-! ### The drain condition (R174) -/

theorem busyCount_eq_zero_iff : s.busyCount = 0 ↔ ∀ c ∈ s.chans, c.state = .idle := by
  simp [State.busyCount, Channel.busy]

theorem drained_iff : s.drained = true ↔ (∀ c ∈ s.chans, c.state = .idle) ∧
    (∀ o ∈ s.deliv.outSlots, o.state = .free) ∧ (∀ x ∈ s.deliv.inSlots, x.state = .free) ∧
    s.writer = ⟨[], [], none⟩ := by
  have hw : s.writer = ⟨[], [], none⟩ ↔ s.dirtyCount = 0 ∧ s.writer.writing = none := by
    rw [State.dirtyCount]
    cases s.writer
    simp [and_assoc]
  simp [State.drained, busyCount_eq_zero_iff, hw, and_assoc]

/-- A write under way is not begun anew, and an idle writer without a page begins none (R182). -/
theorem beginWrite_of_writing (h : s.writer.writing.isSome = true) : s.beginWrite = s := by
  obtain ⟨w, hw⟩ := Option.isSome_iff_exists.1 h
  simp [State.beginWrite, hw]

theorem beginWrite_of_clean (h : s.writer = ⟨[], [], none⟩) : s.beginWrite = s := by
  simp [State.beginWrite, h]

end

end Sys2Proof.Machine

namespace Sys2Proof.Proofs

open Sys2Proof Sys2Proof.Machine

/-- Settles O14: what the end of an act changes, how the writer takes up and completes a page, and what each
source makes of a line. -/
theorem actEndsWithTheWriter : Obligations.ActEndsWithTheWriter := by
  refine ⟨fun s h => settle_eq s h, ⟨fun s hm hw => ⟨fun j rest => beginWrite_object hm hw,
    fun p rest => beginWrite_other hm hw⟩, beginWrite_of_mode, fun s p c h => ?_⟩,
    fun s => ⟨lineLevels_length s, fun i x hi hx => ⟨_, lineLevels_getElem? s hi, ?_⟩⟩⟩
  · obtain ⟨hsame, hother⟩ := s.index.page?_stored p c
    exact ⟨_, exec_pageWriteDone s h, rfl, hsame, hother⟩
  · subst hx
    refine ⟨fun hc => by simp [hc], fun hc => ?_⟩
    simp only [hc, Bool.true_and]
    refine ⟨?_, ?_, ?_, ?_, ?_, ?_, ?_, ?_⟩ <;> intro hx <;> rw [hx]
    · rfl
    · simp [State.sourceActive]
    · exact storeLow_iff s
    · rfl
    · exact beq_iff_eq
    · simp [State.sourceActive]
    · simp only [State.sourceActive, decide_eq_true_eq]
      exact dirtyCount_pos_iff s
    · simp [State.sourceActive]

/-- Settles O15: the drain condition is evaluated after the writer's next page is begun, so an idle writer
without a page leads to STOPPED and anything under way keeps the mode. -/
theorem drainEndsInStopped : Obligations.DrainEndsInStopped := by
  intro s hm
  refine ⟨fun hc ho hi hw => ?_, fun h => ?_⟩
  · have hdrained : s.drained = true := (drained_iff s).2 ⟨hc, ho, hi, hw⟩
    rcases settle_parts s with ⟨_, hopen⟩ | ⟨_, e⟩
    · rw [beginWrite_of_clean s hw, hdrained] at hopen
      exact absurd (hopen hm) (by decide)
    · rw [e, beginWrite_of_clean s hw, nextMoment_eq]
      exact ⟨_, rfl⟩
  · have hopen : s.beginWrite.drained = false := by
      rw [Bool.eq_false_iff, Ne, drained_iff]
      rintro ⟨hc, ho, hi, hw⟩
      simp only [beginWrite_chans, beginWrite_deliv] at hc ho hi
      rcases h with ⟨c, hmem, hne⟩ | ⟨o, hmem, hne⟩ | ⟨x, hmem, hne⟩ | hwriting
      · exact hne (hc c hmem)
      · exact hne (ho o hmem)
      · exact hne (hi x hmem)
      · rw [beginWrite_of_writing s hwriting] at hw
        simp [hw] at hwriting
    rw [settle_of_not_drained s hopen, nextMoment_eq]
    exact (beginWrite_mode s).trans hm

end Sys2Proof.Proofs

/-! PROOF. Admission, commits and removals, greeting slots (R9, R32, R35, R45, R52-R62). -/

namespace Sys2Proof.Machine

/-! ### Message numbers (R32) -/

/-- The first 9,999 numbers after one: they run upward, and from the end of their range begin at 1. -/
theorem iterate_nextNum {i : Nat} (n : Nat) (hi : i ≤ 9999) : nextNum^[i] n =
    if i = 0 then n else if 9999 < n then i else if n + i ≤ 9999 then n + i else n + i - 9999 := by
  induction i with
  | zero => rfl
  | succ i ih =>
    have hstep : ∀ m, nextNum m = if 9999 ≤ m then 1 else m + 1 := fun m => rfl
    have hi' := ih (Nat.le_of_succ_le hi)
    rw [Function.iterate_succ_apply', hstep, if_neg (Nat.succ_ne_zero i)]
    generalize nextNum^[i] n = v at hi' ⊢
    split_ifs at hi' ⊢ <;> omega

/-- No number comes twice among the first 9,999. -/
theorem iterate_nextNum_injective {i j : Nat} (n : Nat) (hi : i < 9999) (hj : j < 9999)
    (h : nextNum^[i] n = nextNum^[j] n) : i = j := by
  rw [iterate_nextNum n (Nat.le_of_lt hi), iterate_nextNum n (Nat.le_of_lt hj)] at h
  split_ifs at h <;> omega

/-- The search passes over used numbers alone, and stops at one that is not used or when its fuel is spent. -/
theorem freeNumber_cases (used : List Nat) (fuel n : Nat) : ∃ i, i ≤ fuel ∧
    freeNumber used fuel n = nextNum^[i] n ∧ (∀ j, j < i → nextNum^[j] n ∈ used) ∧
    (i < fuel → nextNum^[i] n ∉ used) := by
  induction fuel generalizing n with
  | zero => exact ⟨0, le_refl 0, rfl, fun j hj => absurd hj (Nat.not_lt_zero j), fun h => absurd h (Nat.lt_irrefl 0)⟩
  | succ fuel ih =>
    by_cases hn : n ∈ used
    · obtain ⟨i, hi, heq, hbefore, hstop⟩ := ih (nextNum n)
      refine ⟨i + 1, Nat.succ_le_succ hi, by simpa [freeNumber, hn] using heq, fun j hj => ?_,
        fun h => by simpa using hstop (Nat.lt_of_succ_lt_succ h)⟩
      cases j with
      | zero => exact hn
      | succ j => simpa using hbefore j (Nat.lt_of_succ_lt_succ hj)
    · exact ⟨0, Nat.zero_le _, by simp [freeNumber, hn], fun j hj => absurd hj (Nat.not_lt_zero j), fun _ => hn⟩

/-- Of more distinct numbers than a list holds, not all are in it. -/
theorem not_all_used {used : List Nat} {n m : Nat} (hm : used.length < m) (hlt : m ≤ 9999) :
    ¬ ∀ j, j < m → nextNum^[j] n ∈ used := by
  intro h
  have hnodup : ((List.range m).map fun j => nextNum^[j] n).Nodup :=
    List.nodup_range.map_on fun i hi j hj e => iterate_nextNum_injective n
      (Nat.lt_of_lt_of_le (List.mem_range.1 hi) hlt) (Nat.lt_of_lt_of_le (List.mem_range.1 hj) hlt) e
  have hsub : ((List.range m).map fun j => nextNum^[j] n) ⊆ used := fun x hx => by
    obtain ⟨j, hj, rfl⟩ := List.mem_map.1 hx
    exact h j (List.mem_range.1 hj)
  have := (hnodup.subperm hsub).length_le
  simp at this
  omega

/-- The number a commit gives is the first from the mailbox's next number on that no entry holds (R32). -/
theorem commitNumber_spec (m : Mailbox) (hm : m.entries.length < 9999) :
    (∃ i, m.commitNumber = nextNum^[i] m.nextNumber ∧
      ∀ j, j < i → nextNum^[j] m.nextNumber ∈ m.numbers) ∧ m.commitNumber ∉ m.numbers := by
  obtain ⟨i, hi, heq, hbefore, hstop⟩ := freeNumber_cases m.numbers m.entries.length m.nextNumber
  refine ⟨⟨i, heq, hbefore⟩, ?_⟩
  change freeNumber m.numbers m.entries.length m.nextNumber ∉ m.numbers
  rw [heq]
  rcases Nat.lt_or_eq_of_le hi with hlt | rfl
  · exact hstop hlt
  · intro hlast
    refine not_all_used (used := m.numbers) (n := m.nextNumber) (m := m.entries.length + 1)
      (by simp [Mailbox.numbers]) hm fun j hj => ?_
    rcases Nat.lt_or_eq_of_le (Nat.le_of_lt_succ hj) with hlt | rfl
    · exact hbefore j hlt
    · exact hlast

section
variable (s : State) {k : Nat}

/-! ### A commit (R35) -/

/-- The mailbox after a commit (R35). -/
def State.committed (s : State) (k : Nat) (e : Entry) (reserved : Bool) (grant : Nat) : Mailbox :=
  { s.mb k with
    entries := (s.mb k).entries ++ [s.stampedEntry k e]
    nextNumber := nextNum (s.mb k).commitNumber
    reserved := if reserved then (s.mb k).reserved - 1 else (s.mb k).reserved
    pending := (s.mb k).pending - grant
    charged := (s.mb k).charged + if e.kind = .voice then s.chainLen e.object else 0 }

/-- A commit but for its telling: the mailbox changes and its page is marked. -/
theorem commit_only {e : Entry} {reserved : Bool} {grant : Nat} (hin : s.inService k = true) :
    LampOnly ((s.onMb k fun _ => s.committed k e reserved grant).markMailbox k)
      (s.commit k e reserved grant) := by
  have hmb : s.onMb k (fun m => { m with
      entries := m.entries ++ [s.stampedEntry k e]
      nextNumber := nextNum m.commitNumber
      reserved := if reserved then m.reserved - 1 else m.reserved
      pending := m.pending - grant
      charged := m.charged + if e.kind = .voice then s.chainLen e.object else 0 }) =
      s.onMb k fun _ => s.committed k e reserved grant := by
    simp only [State.onMb, State.onMailboxes]
    rw [modify_congr fun m hm => ?_]
    have : s.mb k = m := by simp [State.mb, hm]
    rw [State.committed, this]
  rw [← hmb]
  simp only [State.commit, hin]
  exact tellLamp_only _ k

theorem commit_of_out {e : Entry} {reserved : Bool} {grant : Nat} (hin : s.inService k = false) :
    s.commit k e reserved grant = s := by simp [State.commit, hin]

variable {s}

theorem commit_mb_same {e : Entry} {reserved : Bool} {grant : Nat} (hin : s.inService k = true)
    (hk : k < s.mailboxes.length) :
    (s.commit k e reserved grant).mb k = s.committed k e reserved grant := by
  rw [State.mb_congr (commit_only s hin).mailboxes, State.mb_congr (markMailbox_mailboxes _ k),
    State.mb_onMb_same _ _ hk]

theorem commit_mb_ne {e : Entry} {reserved : Bool} {grant j : Nat} (hj : j ≠ k) :
    (s.commit k e reserved grant).mb j = s.mb j := by
  cases hin : s.inService k with
  | false => rw [commit_of_out s hin]
  | true =>
    rw [State.mb_congr (commit_only s hin).mailboxes, State.mb_congr (markMailbox_mailboxes _ k),
      State.mb_onMb_ne _ _ hj]

/-! ### A removal (R45) -/

/-- The mailbox after a removal (R45). -/
def State.removedFrom (s : State) (k : Nat) (e : Entry) : Mailbox :=
  { s.mb k with
    charged := (s.mb k).charged - if e.kind = .voice then s.chainLen e.object else 0
    entries := (s.mb k).entries.erase e }

theorem removeQuiet_of_entry {num : Nat} {e : Entry} (he : (s.mb k).entry? num = some e) :
    s.removeQuiet k num =
      ((s.onMb k fun _ => s.removedFrom k e).dropRefOpt e.object).markMailbox k := by
  have hmb : s.onMb k (fun m => { m with
      charged := m.charged - if e.kind = .voice then s.chainLen e.object else 0
      entries := m.entries.erase e }) = s.onMb k fun _ => s.removedFrom k e := by
    simp only [State.onMb, State.onMailboxes]
    rw [modify_congr fun m hm => ?_]
    have : s.mb k = m := by simp [State.mb, hm]
    rw [State.removedFrom, this]
  rw [← hmb]
  simp only [State.removeQuiet, he]

theorem removeEntry_mb_same {num : Nat} {e : Entry} (hk : k < s.mailboxes.length)
    (he : (s.mb k).entry? num = some e) : (s.removeEntry k num).mb k = s.removedFrom k e := by
  rw [State.removeEntry, State.mb_congr (tellIfChanged_mailboxes _ _ _), removeQuiet_of_entry he,
    State.mb_congr (markMailbox_mailboxes _ _), State.mb_congr (dropRefOpt_mailboxes _ _),
    State.mb_onMb_same _ _ hk]

theorem removeEntry_mb_ne {num j : Nat} (hj : j ≠ k) : (s.removeEntry k num).mb j = s.mb j := by
  rw [State.removeEntry, State.mb_congr (tellIfChanged_mailboxes _ _ _), State.removeQuiet]
  split
  · rfl
  · rw [State.mb_congr (markMailbox_mailboxes _ _), State.mb_congr (dropRefOpt_mailboxes _ _),
      State.mb_onMb_ne _ _ hj]

end

/-! ### The store's part of a dropped reference -/

/-- The store after a drop of a reference to object `n` (R20). -/
def Store.dropRef (st : Store) (n : Nat) : Store :=
  match tblGet n st.objects with
  | none => st
  | some o =>
    let less := tblSet n { o with refs := o.refs - 1 } st.objects
    if o.complete && decide (o.refs ≤ 1) then { st with
      free := st.free ++ o.chain
      objects := tblDel n less
      sharedUse := if o.use = .shared then st.sharedUse - o.chain.length else st.sharedUse }
    else { st with objects := less }

theorem dropRef_store (s : State) (n : Nat) : (s.dropRef n).store = s.store.dropRef n := by
  unfold State.dropRef Store.dropRef
  cases ho : s.obj? n with
  | none =>
    rw [State.obj?] at ho
    simp [ho]
  | some o =>
    have hget : tblGet n s.store.objects = some o := ho
    simp only [hget, onObj_of_obj? s _ ho]
    split
    · have hless : ((s.onStore fun st => { st with
          objects := tblSet n { o with refs := o.refs - 1 } st.objects }).markObject n).obj? n =
          some { o with refs := o.refs - 1 } := tblGet_tblSet_same _ _ _
      rw [State.freeObj, hless]
      simp
    · rfl

/-- The store after a drop depends on the store before it alone. -/
theorem dropRefOpt_store_congr {s t : State} (h : t.store = s.store) (o : Option Nat) :
    (t.dropRefOpt o).store = (s.dropRefOpt o).store := by
  cases o with
  | none => exact h
  | some n => exact (dropRef_store t n).trans (h ▸ (dropRef_store s n).symm)

end Sys2Proof.Machine

namespace Sys2Proof.Machine

section
variable (s : State)

/-! ### Admission (R4, R5, R9) -/

/-- The node with a new OPEN object `n` and its earmark (R4, R6, R7). -/
def State.opened (s : State) (n : Nat) (use : Use) (owner : Option Nat) (blocks : Nat) : State :=
  (s.onStore fun st => { st with
    objects := tblSet n (Obj.opened use owner blocks) st.objects
    earmark := st.earmark + blocks
    sharedUse := if use = .shared then st.sharedUse + blocks else st.sharedUse }).evalLow

theorem openObj_of_entry {use : Use} {owner : Option Nat} {blocks : Nat}
    (h : lowestFree 1 s.store.objects ≤ 8192) :
    s.openObj use owner blocks = (.granted (lowestFree 1 s.store.objects) blocks,
      s.opened (lowestFree 1 s.store.objects) use owner blocks) := by
  simp [State.openObj, Config.maxObjects, Nat.not_lt.2 h, State.opened]

theorem openObj_of_full {use : Use} {owner : Option Nat} {blocks : Nat}
    (h : 8192 < lowestFree 1 s.store.objects) :
    s.openObj use owner blocks = (.noEntry, s.latch .objectsFull) := by
  simp [State.openObj, Config.maxObjects, h]

theorem opened_obj?_same (n : Nat) (use : Use) (owner : Option Nat) (blocks : Nat) :
    (s.opened n use owner blocks).obj? n = some (Obj.opened use owner blocks) := by
  simp [State.opened, tblGet_tblSet_same]

theorem opened_obj?_ne {m n : Nat} (use : Use) (owner : Option Nat) (blocks : Nat) (hm : m ≠ n) :
    (s.opened n use owner blocks).obj? m = s.obj? m := by
  simp only [State.opened, evalLow_obj?, onStore_obj?]
  exact tblGet_tblSet_ne _ _ hm

theorem admitDeposit_of_small {k : Nat} (h : min ((s.cls k).maxSeconds * 16) (8 * s.depositBlocks k) <
    (s.cls k).minRoom * 16) : s.admitDeposit k = (.full, s) := by
  simp only [State.admitDeposit, if_pos h]

theorem admitDeposit_of_room {k : Nat} (h : (s.cls k).minRoom * 16 ≤
    min ((s.cls k).maxSeconds * 16) (8 * s.depositBlocks k)) :
    s.admitDeposit k = raisePending k (s.openObj .message (some k) (s.depositBlocks k)) := by
  simp only [State.admitDeposit, if_neg (Nat.not_lt.2 h)]

/-! ### Greeting slots (R53, R59, R60, R62) -/

variable {s} {k : Nat}

theorem absenceHolds_iff (m : Mailbox) : s.absenceHolds m = true ↔
    m.endDay = none ∨ s.today = none ∨ ∃ d t, m.endDay = some d ∧ s.today = some t ∧ t ≤ d := by
  unfold State.absenceHolds
  cases m.endDay <;> cases s.today <;> simp

theorem chooseGreeting_absence {r : CallReason} {o : Nat} (ho : (s.mb k).absence = some o)
    (hh : s.absenceHolds (s.mb k) = true) : s.chooseGreeting k r = .recorded o true := by
  simp [State.chooseGreeting, ho, hh]

/-- Without an ABSENCE greeting that holds, a call hears BUSY, STANDARD or the system greeting (R53). -/
theorem chooseGreeting_present {r : CallReason}
    (h : (s.mb k).absence = none ∨ s.absenceHolds (s.mb k) = false) :
    s.chooseGreeting k r = match (if r = .busy then (s.mb k).busy else none) with
      | some o => .recorded o false
      | none => match (s.mb k).standard with
        | some o => .recorded o false
        | none => .system (s.mb k).name := by
  unfold State.chooseGreeting
  rcases h with h | h
  · simp only [h] <;> rfl
  · cases ha : (s.mb k).absence <;> simp only [h, ha] <;> rfl

/-- The mailbox after an accept of object `n` into slot `g` with a pending end day (R59, R62). -/
def Mailbox.accepting (m : Mailbox) (g : GreetSlot) (n : Nat) (d : Option Nat) : Mailbox :=
  let m1 := m.withSlot g (some n)
  if g = .absence then { m1 with endDay := d.or m1.endDay } else m1

/-- The mailbox after slot `g` has been emptied (R60). -/
def Mailbox.emptied (m : Mailbox) (g : GreetSlot) : Mailbox :=
  let m1 := m.withSlot g none
  if g = .absence then { m1 with endDay := none } else m1

theorem Mailbox.accepting_eq (m : Mailbox) (g : GreetSlot) (n : Nat) (d : Option Nat) :
    m.accepting g n d = { m with
      standard := if g = .standard then some n else m.standard
      busy := if g = .busy then some n else m.busy
      absence := if g = .absence then some n else m.absence
      name := if g = .name then some n else m.name
      endDay := if g = .absence ∧ d.isSome = true then d else m.endDay } := by
  cases g <;> cases d <;> simp [Mailbox.accepting, Mailbox.withSlot]

theorem Mailbox.emptied_eq (m : Mailbox) (g : GreetSlot) : m.emptied g = { m with
      standard := if g = .standard then none else m.standard
      busy := if g = .busy then none else m.busy
      absence := if g = .absence then none else m.absence
      name := if g = .name then none else m.name
      endDay := if g = .absence then none else m.endDay } := by
  cases g <;> simp [Mailbox.emptied, Mailbox.withSlot]

variable (s k)

theorem acceptSlot_eq (g : GreetSlot) (n : Nat) (d : Option Nat) : s.acceptSlot k g n d =
    (((s.onMb k fun m => m.accepting g n d).markObject n).dropRefOpt ((s.mb k).slotObj g)).markMailbox k :=
  rfl

theorem emptySlot_eq (g : GreetSlot) : s.emptySlot k g =
    ((s.onMb k fun m => m.emptied g).dropRefOpt ((s.mb k).slotObj g)).markMailbox k := rfl

theorem mem_joinSet {α : Type} [DecidableEq α] (l : List α) (x y : α) :
    y ∈ joinSet l x ↔ y = x ∨ y ∈ l := by
  unfold joinSet
  split
  · rename_i hx
    exact ⟨.inr, fun h => h.elim (fun e => e ▸ hx) id⟩
  · simp [or_comm]

theorem markMailbox_store : (s.markMailbox k).store = s.store := rfl

theorem mem_markMailbox : PageId.mailbox k ∈ (s.markMailbox k).writer.dirtyOthers :=
  (mem_joinSet _ _ _).2 (.inl rfl)

/-- A freed object's drop leaves every page marked that was (R21). -/
theorem dropRef_marks {j n : Nat} (h : j ∈ s.writer.dirtyObjects) : j ∈ (s.dropRef n).writer.dirtyObjects := by
  unfold State.dropRef
  split
  · exact h
  · rename_i o ho
    have hmark : j ∈ ((s.onObj n fun o => { o with refs := o.refs - 1 }).markObject n).writer.dirtyObjects := by
      rw [onObj_of_obj? s _ ho]
      exact (mem_joinSet _ _ _).2 (.inr h)
    dsimp only
    split
    · unfold State.freeObj
      split
      · exact hmark
      · rw [evalLow_writer]
        exact (mem_joinSet _ _ _).2 (.inr hmark)
    · exact hmark

theorem setEndDay_of_ne {d : Option Nat} (h : (s.mb k).endDay ≠ d) :
    s.setEndDay k d = (s.onMb k fun m => { m with endDay := d }).markMailbox k := if_neg h

theorem setEndDay_of_eq {d : Option Nat} (h : (s.mb k).endDay = d) : s.setEndDay k d = s := if_pos h

end

end Sys2Proof.Machine

namespace Sys2Proof.Proofs

open Sys2Proof Sys2Proof.Machine

/-- Settles O19: an admission checks the minimum room, then the object table, and only then opens the object
in the lowest free entry. -/
theorem depositAdmission : Obligations.DepositAdmission := by
  intro s k b hb
  have hblocks : b = s.depositBlocks k := hb
  subst hblocks
  refine ⟨admitDeposit_of_small s, fun hroom => ⟨fun hfull => ?_, fun hentry hrise hpos => ?_⟩⟩
  · rw [admitDeposit_of_room s hroom, openObj_of_full s hfull]
    rfl
  · obtain ⟨_, hnone, hbelow⟩ := lowestFree_spec hrise hpos
    rw [admitDeposit_of_room s hroom, openObj_of_entry s hentry]
    exact ⟨_, _, rfl, hnone, hbelow, opened_obj?_same s _ _ _ _, fun m => opened_obj?_ne s _ _ _,
      by simp [State.opened, State.addPending, State.onMb], by simp [State.opened, State.addPending, State.onMb],
      by simp [State.opened, State.addPending, State.onMb], by simp [State.opened, State.addPending, State.onMb],
      by simp [State.opened, State.addPending, State.onMb], by simp [State.opened, State.addPending, State.onMb]⟩

/-- Settles O20: a commit changes its mailbox and marks the page, and its telling touches the Lamp Unit alone;
a removal drops the entry's reference besides. -/
theorem entriesAreAppendedAndRemoved : Obligations.EntriesAreAppendedAndRemoved := by
  refine ⟨fun s k e reserved grant hin hk hvoice hlen => ?_, fun s k num e hk he => ?_⟩
  · have honly := commit_only s (e := e) (reserved := reserved) (grant := grant) hin
    have hmb := commit_mb_same (e := e) (reserved := reserved) (grant := grant) hin hk
    obtain ⟨⟨i, hi, hused⟩, hnew⟩ := commitNumber_spec (s.mb k) (by omega)
    refine ⟨(s.mb k).commitNumber, _, rfl, ⟨i, hi, fun j hj => ?_⟩, ?_, fun x hx h => ?_, ?_, ?_, ?_, ?_,
      fun j hj => commit_mb_ne hj, honly.store, honly.chans, honly.writer⟩
    · exact List.mem_map.1 (hused j hj)
    · simp [hmb, State.committed, State.stampedEntry, hvoice]
    · exact hnew (List.mem_map.2 ⟨x, hx, h⟩)
    · rw [hmb]; rfl
    · rw [hmb]; rfl
    · rw [hmb]; rfl
    · simp [hmb, State.committed, hvoice]
  · have hmb := removeEntry_mb_same hk he
    have hstore : (s.removeEntry k num).store = (s.dropRefOpt e.object).store := by
      rw [State.removeEntry, tellIfChanged_store, removeQuiet_of_entry he]
      exact (markMailbox_store _ k).trans (dropRefOpt_store_congr (by rfl) _)
    have hwriter : PageId.mailbox k ∈ (s.removeEntry k num).writer.dirtyOthers := by
      rw [State.removeEntry, tellIfChanged_writer, removeQuiet_of_entry he]
      exact mem_markMailbox _ k
    exact ⟨by rw [hmb]; rfl, by rw [hmb]; rfl, by rw [hmb]; rfl, by rw [hmb]; rfl, hwriter,
      fun j hj => removeEntry_mb_ne hj, fun ho => by rw [hstore, ho]; rfl,
      fun n ho => by rw [hstore, ho]; rfl⟩

/-- Settles O23: the choice goes by the ABSENCE slot while it holds, then by the reason of the call; accepts,
emptyings and end days change one mailbox, the reference of the object that leaves its slot and the page. -/
theorem greetingChoice : Obligations.GreetingChoice := by
  refine ⟨fun s k r => ⟨fun o ho hh => chooseGreeting_absence ho ((absenceHolds_iff _).2 hh), fun h => ?_⟩,
    fun s t k g n d hk => ⟨?_, ?_, ?_, ?_⟩⟩
  · have hpast : (s.mb k).absence = none ∨ s.absenceHolds (s.mb k) = false := by
      refine h.imp id fun ⟨d, t, hd, ht, hlt⟩ => Bool.eq_false_iff.2 fun hh => ?_
      rcases (absenceHolds_iff _).1 hh with h | h | ⟨d', t', hd', ht', hle⟩
      · simp [hd] at h
      · simp [ht] at h
      · simp only [hd, ht, Option.some.injEq] at hd' ht'
        omega
    rw [chooseGreeting_present hpast]
    refine ⟨fun o hr ho => by simp [hr, ho], fun hr => ?_⟩
    have hnobusy : (if r = .busy then (s.mb k).busy else none) = none := by
      rcases hr with h | h <;> simp [h]
    rw [hnobusy]
    exact ⟨fun o ho => by simp [ho], fun ho => by simp [ho]⟩
  · rintro rfl
    rw [acceptSlot_eq]
    refine ⟨(markMailbox_store _ k).trans (dropRefOpt_store_congr (by rfl) _), ?_, ?_⟩
    · have hmark : (n - 1) / 16 ∈ ((s.onMb k fun m => m.accepting g n d).markObject n).writer.dirtyObjects :=
        (mem_joinSet _ _ _).2 (.inl rfl)
      cases (s.mb k).slotObj g with
      | none => exact hmark
      | some o => exact dropRef_marks _ hmark
    · rw [State.mb_congr (markMailbox_mailboxes _ k), State.mb_congr (dropRefOpt_mailboxes _ _)]
      exact (State.mb_onMb_same s _ hk).trans (Mailbox.accepting_eq _ g n d)
  · rintro rfl
    rw [emptySlot_eq]
    refine ⟨(markMailbox_store _ k).trans (dropRefOpt_store_congr (by rfl) _), ?_⟩
    rw [State.mb_congr (markMailbox_mailboxes _ k), State.mb_congr (dropRefOpt_mailboxes _ _)]
    exact (State.mb_onMb_same s _ hk).trans (Mailbox.emptied_eq _ g)
  · rintro (rfl | rfl | ⟨rfl, hne⟩)
    · rw [acceptSlot_eq]
      refine ⟨mem_markMailbox _ k, dropRefOpt_chans _ _, dropRefOpt_deliv _ _, fun i hi => ?_⟩
      rw [State.mb_congr (markMailbox_mailboxes _ k), State.mb_congr (dropRefOpt_mailboxes _ _)]
      exact State.mb_onMb_ne s _ hi
    · rw [emptySlot_eq]
      refine ⟨mem_markMailbox _ k, dropRefOpt_chans _ _, dropRefOpt_deliv _ _, fun i hi => ?_⟩
      rw [State.mb_congr (markMailbox_mailboxes _ k), State.mb_congr (dropRefOpt_mailboxes _ _)]
      exact State.mb_onMb_ne s _ hi
    · rw [setEndDay_of_ne s k hne]
      exact ⟨mem_markMailbox _ k, rfl, rfl, fun i hi => State.mb_onMb_ne s _ hi⟩
  · rintro rfl
    by_cases h : (s.mb k).endDay = d
    · rw [setEndDay_of_eq s k h]
      exact ⟨by rw [← h], rfl, fun _ => rfl⟩
    · rw [setEndDay_of_ne s k h]
      exact ⟨State.mb_onMb_same s _ hk, rfl, fun he => absurd he h⟩

end Sys2Proof.Proofs

/-! PROOF. The commands of a start: the reset pin, the image, the decision, the wipe and the header write, and
SHUTDOWN and RESUME (R172-R179). -/

namespace Sys2Proof.Machine

section
variable (s : State)

/-! ### The end of an act in a mode without writes -/

/-- Where the writer begins nothing, the end of an act touches the moment of the link and the lines alone. -/
theorem settle_quiet (hs : s.mode ≠ .serving) (hd : s.mode ≠ .draining) :
    s.settle = { s with link := s.link.passed, lines := s.lineLevels } := by
  rw [settle_eq s hd, beginWrite_of_mode s hs hd]

theorem passed_of_empty {l : LinkCtl} (h : l.sendList = []) : l.passed = l := by
  cases l
  simp_all [LinkCtl.passed]

@[simp] theorem passed_presence (l : LinkCtl) : l.passed.presence = l.presence := rfl
@[simp] theorem passed_state (l : LinkCtl) : l.passed.state = l.state := rfl
@[simp] theorem passed_joinTimer (l : LinkCtl) : l.passed.joinTimer = l.joinTimer := rfl
@[simp] theorem passed_sendList (l : LinkCtl) : l.passed.sendList = l.sendList := rfl

/-! ### Pages cut off (R172) -/

theorem IndexArea.page?_cut (a : IndexArea) (p : PageId) :
    (a.cutPage p).header = a.header ∧ (a.cutPage p).page? p = none ∧
      ∀ q, q ≠ p → (a.cutPage p).page? q = a.page? q := by
  refine ⟨rfl, ?_, fun q hq => ?_⟩
  · simp [IndexArea.page?, IndexArea.cutPage]
  · simp only [IndexArea.page?, IndexArea.cutPage, List.find?_filter]
    congr 2
    funext x
    by_cases hx : x.1 = q <;> simp [hx, hq]

theorem cutIndex_wipe {p : Nat} (h : s.startStep = .wipe p) :
    s.cutIndex = s.index.cutPage (wipePage s.cfg.mailboxes.length p) := by simp [State.cutIndex, h]

theorem cutIndex_header {w : Bool} {g : Nat} (h : s.startStep = .headerWrite w g) :
    s.cutIndex = { s.index with header := none } := by simp [State.cutIndex, h]

/-- In the other steps of a start the page that the writer writes is cut off, if there is one (R172). -/
theorem cutIndex_writer (h : s.startStep = .none ∨ s.startStep = .configRead ∨ s.startStep = .headerRead ∨
    s.startStep = .rebuild) : s.cutIndex =
      match s.writer.writing with
      | some (p, _) => s.index.cutPage p
      | none => s.index := by
  unfold State.cutIndex
  rcases h with h | h | h | h <;> rw [h] <;> rfl

/-- The end of an act leaves a fresh start as it is: no frame has been handed, and no line is active. -/
theorem settle_freshStart (a : IndexArea) : (s.freshStart a).settle = s.freshStart a := by
  rw [settle_quiet _ (by simp [State.freshStart, State.reset]) (by simp [State.freshStart, State.reset]),
    passed_of_empty rfl]
  rfl

/-! ### Setting up the settings (R176, R177) -/

/-- A node found absent is a change of the link and of the Delivery Engine alone (R131). -/
theorem markAbsent_eq (n : Nat) : s.markAbsent n =
    { s with link := (s.markAbsent n).link, deliv := (s.markAbsent n).deliv } := by
  unfold State.markAbsent State.onPresence
  split
  · by_cases hn : n = 0 <;> simp only [hn, if_true, if_false] <;> split <;> rfl
  · rfl

theorem onPresence_eq (n : Nat) (f : Presence → Presence) :
    s.onPresence n f = { s with link := (s.onPresence n f).link } := by
  unfold State.onPresence
  split <;> rfl

/-- The presence entries are those of the list, whatever else the link holds. -/
theorem State.presence_congr {s t : State} (h : t.link.presence = s.link.presence) (n : Nat) :
    t.presence n = s.presence n := by rw [State.presence, State.presence, h]

theorem presence_onPresence_ne {m n : Nat} (f : Presence → Presence) (hm : m ≠ n) :
    (s.onPresence n f).presence m = s.presence m := by
  unfold State.onPresence State.presence
  by_cases hn : n = 0
  · simp [hn]
  · by_cases hm0 : m = 0
    · simp [hm0]
    · have hne : ¬ n - 1 = m - 1 := by omega
      simp [hn, hm0, hne]

theorem presence_onPresence_blank (n : Nat) :
    (s.onPresence n fun _ => Presence.blank).presence n = Presence.blank := by
  unfold State.onPresence State.presence
  by_cases hn : n = 0
  · simp [hn]
  · simp only [hn, if_false, State.onLink_link, List.getElem?_modify_eq]
    cases s.link.presence[n - 1]? <;> rfl

theorem markAbsent_presence_ne {m n : Nat} (hm : m ≠ n) :
    (s.markAbsent n).presence m = s.presence m := by
  unfold State.markAbsent
  split
  · dsimp only
    have hkept : (((s.onPresence n fun p => { p with present := false, absence := none }).purgeRoutes
        n).unlocate n).presence m = s.presence m :=
      (State.presence_congr rfl m).trans (presence_onPresence_ne s _ hm)
    split
    · exact (State.presence_congr rfl m).trans hkept
    · exact hkept
  · rfl

/-- The node with the settings held and the entry of its own number cleared, before the alarm (R177). -/
def State.heldOut (s : State) (c : Settings) : State :=
  (((s.setCfg c true).setStart .headerRead).markAbsent c.node).onPresence c.node fun _ => Presence.blank

theorem handOut_eq (c : Settings) :
    s.handOut c = if c.clampedMark then (s.heldOut c).latch .configClamped else s.heldOut c := rfl

/-- The hand-out changes the settings, the step, the link and the Delivery Engine alone, but for the alarm. -/
theorem heldOut_eq (c : Settings) : s.heldOut c = { s with
    cfg := c, configured := true, startStep := .headerRead
    link := (s.heldOut c).link, deliv := (s.heldOut c).deliv } := by
  rw [State.heldOut, onPresence_eq, markAbsent_eq]
  rfl

/-- A latch after a change of other parts adds to the alarms and records that stood. -/
theorem latch_congr {s t : State} (ha : t.alarms = s.alarms) (ho : t.lineOut = s.lineOut) (a : Alarm) :
    (t.latch a).alarms = (s.latch a).alarms ∧ (t.latch a).lineOut = (s.latch a).lineOut := by
  unfold State.latch
  rw [ha]
  split
  · exact ⟨ha, ho⟩
  · exact ⟨rfl, congrArg (· ++ _) ho⟩

theorem handOut_alarms (c : Settings) : (s.handOut c).alarms =
    (if c.clampedMark = true then (s.latch .configClamped).alarms else s.alarms) ∧
    (s.handOut c).lineOut =
      (if c.clampedMark = true then (s.latch .configClamped).lineOut else s.lineOut) := by
  have ha : (s.heldOut c).alarms = s.alarms := by rw [heldOut_eq]
  have ho : (s.heldOut c).lineOut = s.lineOut := by rw [heldOut_eq]
  rw [handOut_eq]
  split
  · exact latch_congr ha ho _
  · exact ⟨ha, ho⟩

/-- The parts a hand-out leaves alone, with the parts it sets. -/
theorem handOut_parts (c : Settings) : s.handOut c = { s with
    cfg := c, configured := true, startStep := .headerRead
    link := (s.heldOut c).link, deliv := (s.heldOut c).deliv
    alarms := (s.handOut c).alarms, lineOut := (s.handOut c).lineOut } := by
  have hlatch : (s.heldOut c).latch .configClamped = { s.heldOut c with
      alarms := ((s.heldOut c).latch .configClamped).alarms
      lineOut := ((s.heldOut c).latch .configClamped).lineOut } := latch_eq _ _
  rw [handOut_eq]
  split
  · rw [hlatch, heldOut_eq]
  · rw [heldOut_eq]

theorem heldOut_presence (c : Settings) : (s.heldOut c).presence c.node = Presence.blank ∧
    ∀ n, n ≠ c.node → (s.heldOut c).presence n = s.presence n := by
  refine ⟨presence_onPresence_blank _ _, fun n hn => ?_⟩
  rw [State.heldOut, presence_onPresence_ne _ _ hn, markAbsent_presence_ne _ hn]
  rfl

theorem markAbsent_of_absent {n : Nat} (h : s.isPresent n = false) : s.markAbsent n = s := by
  simp [State.markAbsent, h]

/-- No node is present at a fresh start (R128, R136). -/
theorem freshStart_presence (a : IndexArea) (n : Nat) : (s.freshStart a).presence n = Presence.blank := by
  have hl : (s.freshStart a).link.presence = List.replicate 30 Presence.blank := rfl
  rw [State.presence, hl, List.getElem?_replicate]
  split
  · rfl
  · split <;> rfl

/-- Handing settings out at a fresh start leaves the link joining, with nothing to send (R133, R136). -/
theorem heldOut_freshStart (a : IndexArea) (c : Settings) :
    ((s.freshStart a).heldOut c).link.state = .joining ∧
      ((s.freshStart a).heldOut c).link.joinTimer = some 10000 ∧
      ((s.freshStart a).heldOut c).link.sendList = [] ∧
      ((s.freshStart a).heldOut c).deliv = Delivery.fresh := by
  have habsent : (((s.freshStart a).setCfg c true).setStart .headerRead).isPresent c.node = false := by
    exact congrArg Presence.present (freshStart_presence s a c.node)
  rw [State.heldOut, markAbsent_of_absent _ habsent]
  unfold State.onPresence
  split <;> exact ⟨rfl, rfl, rfl, rfl⟩

/-! ### The decision, the wipe and the header write (R173, R179) -/

theorem warmHeader_eq_some {h : Header} (hh : s.index.header = some h) (hd : h.digest = s.cfg.digest) :
    s.warmHeader = some h := by simp [State.warmHeader, hh, hd]

/-- A lamp dispatch with an empty queue sends nothing (R107). -/
theorem lampDispatch1_of_empty (h : s.lamp.queue = []) : s.lampDispatch1 = s := by
  simp [State.lampDispatch1, h]

theorem lampDispatch_of_empty (h : s.lamp.queue = []) : s.lampDispatch = s := by
  simp only [State.lampDispatch, lampDispatch1_of_empty s h]

theorem firstEligible_of_empty {n : Nat} {l : List (Option QEntry)} (h : ∀ q ∈ l, q = none) :
    firstEligible n l = none := by
  induction l generalizing n with
  | nil => rfl
  | cons q l ih =>
    rw [h q (by simp)]
    exact ih fun x hx => h x (List.mem_cons_of_mem _ hx)

/-- A dispatch of an empty queue does nothing (R139). -/
theorem dispatch_of_empty (h : ∀ q ∈ s.deliv.queue, q = none) : s.dispatch = s := by
  unfold State.dispatch
  split
  · simp [Config.queuePositions, State.dispatchLoop, firstEligible_of_empty h]
  · rfl

/-- No pass falls due while the clock is unset (R162). -/
theorem checkPass_of_unset (h : s.house.clock = none) : s.checkPass = s := by
  simp [State.checkPass, State.passDue, h]

/-- The entry to SERVING with nothing to dispatch and an unset clock (R173). -/
theorem enterServing_still (hl : s.lamp.queue = []) (hq : ∀ q ∈ s.deliv.queue, q = none)
    (hc : s.house.clock = none) : s.enterServing = { s with
      mode := .serving, startStep := .none, lineOut := s.lineOut ++ [.ready]
      lamp := { s.lamp with
        scanPos := s.cfg.scanStart, scanRunning := true, scanTimer := some 200 } } := by
  unfold State.enterServing
  dsimp only
  rw [lampDispatch_of_empty, dispatch_of_empty, checkPass_of_unset]
  · rfl
  · exact hc
  · exact hq
  · exact hl

theorem lampSetup_recs : s.lampSetup.lamp.recs =
    (List.range s.mailboxes.length).map fun k => ⟨s.desiredOf k, .unknown, false⟩ := rfl

/-- The lamp records of a cold start: OFF desired, UNKNOWN reported, no flag (R117). -/
theorem coldSetup_recs : ∀ r ∈ s.coldSetup.lamp.recs, r = ⟨false, .unknown, false⟩ := by
  intro r hr
  have hdesired := coldSetup_desired s r hr
  rw [State.coldSetup, lampSetup_recs] at hr
  obtain ⟨k, _, rfl⟩ := List.mem_map.1 hr
  exact congrArg (LampRec.mk · Reported.unknown false) hdesired

theorem beginCold_frame : s.beginCold = { s with
    startStep := .wipe 0, alarms := s.beginCold.alarms, lineOut := s.beginCold.lineOut
    store := s.cfg.emptyStore, mailboxes := List.replicate s.cfg.mailboxes.length Mailbox.blank
    lamp := s.beginCold.lamp } := by
  rw [beginCold_parts, evalLow_eq, latch_eq]
  rfl

theorem beginCold_alarm : .coldStart ∈ s.beginCold.alarms := by
  have hlatched : .coldStart ∈ (s.latch .coldStart).alarms := (mem_alarms_latch s _ _).2 (.inl rfl)
  rw [beginCold_parts]
  change .coldStart ∈ (State.evalLow _).alarms
  unfold State.evalLow
  split
  · exact (mem_alarms_latch _ _ _).2 (.inr hlatched)
  · exact hlatched

theorem exec_wipePageWriteDone {p : Nat} (h : s.startStep = .wipe p) :
    exec .wipePageWriteDone s = .next (s.wiped p).settle := by
  change execWipePageWriteDone s = _
  simp [execWipePageWriteDone, h, act]

theorem exec_headerWriteDone {w : Bool} {g : Nat} (h : s.startStep = .headerWrite w g) :
    exec .headerWriteDone s = .next (if w then (s.headerWritten g).setStart .rebuild
      else (s.headerWritten g).enterServing).settle := by
  change execHeaderWriteDone s = _
  cases w <;> simp [execHeaderWriteDone, h, act]

end

end Sys2Proof.Machine

namespace Sys2Proof.Proofs

open Sys2Proof Sys2Proof.Machine

/-- Settles O25: the reset pin's act ends as it began, and what the pin cuts off is the page under way. -/
theorem resetPinStartsAfresh : Obligations.ResetPinStartsAfresh := by
  refine fun s => ⟨congrArg Host.Outcome.next (settle_freshStart s _), fun p h => ?_, fun w g h => ?_,
    fun h => ⟨fun p c hw => ?_, fun hw => ?_⟩⟩
  · rw [cutIndex_wipe s h]
    exact IndexArea.page?_cut _ _
  · rw [cutIndex_header s h]
    exact ⟨rfl, rfl⟩
  · rw [cutIndex_writer s h, hw]
    exact IndexArea.page?_cut _ _
  · rw [cutIndex_writer s h, hw]

/-- Settles O26: an image that loads to nothing halts the node, and one that loads is held and handed out. -/
theorem imageReadHaltsOrHandsOut : Obligations.ImageReadHaltsOrHandsOut := by
  intro stream s hm hs
  have hexec : exec (.configReadDone stream) s = match loadImage stream with
      | none => .next s.enterHalted.settle
      | some c => .next (s.handOut c).settle := by
    change execConfigReadDone stream s = _
    simp only [execConfigReadDone, hs, if_true, act] <;> rfl
  refine ⟨fun hb => ?_, fun c hb => ⟨(s.handOut c).settle, ?_, ?_⟩⟩
  · rw [hexec, hb]
    rfl
  · rw [hexec, hb]
  · have hmode : (s.handOut c).mode = .starting := (handOut_mode s c).trans hm
    obtain ⟨halarms, hout⟩ := handOut_alarms s c
    obtain ⟨hown, hothers⟩ := heldOut_presence s c
    rw [settle_quiet _ (by simp [hmode]) (by simp [hmode])]
    have hlink : (s.handOut c).link.presence = (s.heldOut c).link.presence := by rw [handOut_parts]
    refine ⟨?_, ?_, ?_, hmode, halarms, hout, (State.presence_congr hlink _).trans hown,
      fun n hn => (State.presence_congr hlink n).trans (hothers n hn), ?_⟩
    all_goals rw [handOut_parts]
    exact ⟨rfl, rfl, rfl, rfl, rfl, rfl, rfl, rfl⟩

/-- Settles O27: the header decides, the wipe stores one empty page after another, and the header write leads
to the rebuild or into service. -/
theorem startGoesThroughItsSteps : Obligations.StartGoesThroughItsSteps := by
  refine ⟨fun s hm hs => ⟨fun h hh hd => ?_, fun hd => ⟨s.beginCold.settle, ?_, ?_⟩⟩,
    fun s p m hs hmail hp => ?_, fun s g => ⟨fun hs => ?_, fun hs hl hq hc => ?_⟩⟩
  · change execHeaderReadDone s = _
    simp only [execHeaderReadDone, hs, if_true, warmHeader_eq_some s hh hd]
    rfl
  · exact exec_headerReadDone_cold s hs ((warmHeader_eq_none s).2 hd)
  · have hrecs : ∀ r ∈ s.beginCold.lamp.recs, r = ⟨false, .unknown, false⟩ := coldSetup_recs _
    have hmode : s.beginCold.mode = .starting := ((coldSetup_mode _).trans (latch_mode s _)).trans hm
    rw [settle_quiet _ (by simp [hmode]) (by simp [hmode])]
    refine ⟨rfl, hmode, beginCold_alarm s, ?_, rfl, rfl, hrecs, ?_⟩ <;> rw [beginCold_frame]
    · rfl
    · exact ⟨rfl, rfl, rfl, rfl, rfl, rfl⟩
  · obtain ⟨hsame, hother⟩ := s.index.page?_stored (wipePage m p) (emptyPage (wipePage m p))
    subst hmail
    refine ⟨_, exec_wipePageWriteDone s hs, rfl, fun h => ?_, fun h h' => ?_, fun h => ?_⟩
    · have hpage : wipePage s.cfg.mailboxes.length p = .mailbox p := by simp [wipePage, h]
      rw [hpage] at hsame hother ⊢
      exact ⟨hsame, hother⟩
    · have hpage : wipePage s.cfg.mailboxes.length p = .object (p - s.cfg.mailboxes.length) := by
        simp [wipePage, Config.objectPages, Nat.not_lt.2 h, h']
      rw [hpage] at hsame hother ⊢
      exact ⟨hsame, hother⟩
    · have hpage : wipePage s.cfg.mailboxes.length p = .queue (p - s.cfg.mailboxes.length - 512) := by
        simp [wipePage, Config.objectPages, Nat.not_lt.2 h, Nat.not_lt.2 (Nat.le_trans (Nat.le_add_right _ 512) h)]
      rw [hpage] at hsame hother ⊢
      exact ⟨hsame, hother⟩
  · rw [exec_headerWriteDone s hs, if_pos rfl]
    rfl
  · rw [exec_headerWriteDone s hs, if_neg (by decide), enterServing_still (s.headerWritten g) hl hq hc]
    rfl

/-- Settles O32: SHUTDOWN and RESUME are taken in one mode each; a start with the held image hands it out. -/
theorem shutdownDrainsResumeStarts : Obligations.ShutdownDrainsResumeStarts := by
  refine fun s => ⟨fun hm => ?_, fun hm => ?_, fun hm => ⟨((s.freshStart s.index).handOut s.cfg).settle, ?_, ?_⟩,
    fun hm => ?_⟩
  · change execShutdown s = _
    simp only [execShutdown, hm, if_true]
    rfl
  · change execShutdown s = _
    simp only [execShutdown, hm, if_false]
    rfl
  · change execResume s = _
    simp only [execResume, hm, if_true, act]
  · obtain ⟨halarms, -⟩ := handOut_alarms (s.freshStart s.index) s.cfg
    obtain ⟨hstate, hjoin, hsend, hdeliv⟩ := heldOut_freshStart s s.index s.cfg
    have hmode : ((s.freshStart s.index).handOut s.cfg).mode = .starting := handOut_mode _ _
    rw [settle_quiet _ (by simp [hmode]) (by simp [hmode])]
    refine ⟨hmode, by rw [handOut_parts], by rw [handOut_parts], by rw [handOut_parts],
      by rw [handOut_parts]; rfl, by rw [handOut_parts]; rfl, halarms, ?_⟩
    rw [handOut_parts]
    exact ⟨rfl, rfl, rfl, rfl, hdeliv, rfl, hstate, hjoin, hsend, rfl⟩
  · change execResume s = _
    simp only [execResume, hm, if_false]
    rfl

end Sys2Proof.Proofs

/-! PROOF. Calls: turned away, opening a deposit with its greeting, or taking the retrieval lock (R41, R48,
R53-R55, R73, R85). -/

namespace Sys2Proof.Machine

/-! ### Channels as a call finds them -/

section
variable (s : State)

/-- A change that keeps the digits that wait keeps them on a channel that does not exist, too. -/
theorem typeAhead_onCh {i : Nat} {f : Channel → Channel} (hf : ∀ c, (f c).typeAhead = c.typeAhead) :
    ((s.onCh i f).ch i).typeAhead = (s.ch i).typeAhead := by
  by_cases hi : i < s.chans.length
  · rw [State.ch_onCh_same s f hi, hf]
  · simp [State.ch, State.onCh, hi]

/-- A channel set to one without waiting digits has none, whether it exists or not. -/
theorem typeAhead_onCh_const {i : Nat} {c : Channel} (hc : c.typeAhead = []) :
    ((s.onCh i fun _ => c).ch i).typeAhead = [] := by
  by_cases hi : i < s.chans.length
  · rw [State.ch_onCh_same s _ hi, hc]
  · simp [State.ch, State.onCh, hi, Channel.idle]

/-- The end of an act on a channel where no digit waits. -/
theorem chanAct_nil {u v : State} {i : Nat} (h : u = v) (hv : (v.ch i).typeAhead = []) :
    chanAct u i = .next v.settle := by
  rw [chanAct, h, State.takeDigits_nil v hv]
  rfl

/-- Changes of an IDLE channel are one change to what they make of it. -/
theorem onCh_of_idle {i : Nat} {f : Channel → Channel} {c : Channel} (hidle : s.ch i = Channel.idle)
    (hc : f Channel.idle = c) : s.onCh i f = s.onCh i fun _ => c :=
  s.onCh_congr (by rw [hidle, hc])

theorem Channel.busy_eq_false {c : Channel} (h : c.state = .idle) : c.busy = false := by
  simp [Channel.busy, h]

theorem callOk_of {ch ext : Nat} {ids : List Nat} (hch : ch ≤ 15) (hlow : 1000 ≤ ext) (hhigh : ext ≤ 99999)
    (hlen : ids.length ≤ 32) (hdigits : ∀ d ∈ ids, d ≤ 9) : callOk ch ext ids = true := by
  simp [callOk, (wfChannel_iff ch).2 hch, (wfExtension_iff ext).2 ⟨hlow, hhigh⟩,
    (wfIdentity_iff ids).2 ⟨hlen, hdigits⟩]

theorem keptIdentity_eq (ids : List Nat) :
    keptIdentity ids = if ids = [] then none else some (ids.take 16) := by
  cases ids <;> simp [keptIdentity, optDigits]

/-! ### What a CALL and a RETRIEVE for a free channel come to (R73, R85) -/

section
variable {s} {ch ext : Nat} {r : CallReason} {internal : Bool} {ids : List Nat} {c : Instr}
variable (hc : c = .call ch ext r internal ids ∨ c = .retrieve ch ext)
variable (hok : callOk ch ext ids = true) (hidle : (s.ch ch).state = .idle)
include hc hok hidle

theorem exec_call_unavailable (hm : s.mode ≠ .serving) :
    exec c s = refuseCall s ch .unavailable := by
  have hfree := Channel.busy_eq_false hidle
  rcases hc with rfl | rfl
  · rw [exec_call]
    simp [execCall, hok, hfree, hm]
  · simp only [callOk, Bool.and_eq_true] at hok
    rw [exec_retrieve]
    simp [execRetrieve, hok, hfree, hm]

/-- In SERVING the lookup decides (R73, R85). -/
theorem exec_call_of_find (hm : s.mode = .serving) :
    (s.find ext = .inRange ∨ s.find ext = .foreign → exec c s = refuseCall s ch .noMailbox) ∧
      ∀ k, s.find ext = .disabled k → exec c s = act (s.notInService ch) := by
  have hfree := Channel.busy_eq_false hidle
  rcases hc with rfl | rfl
  · rw [exec_call]
    refine ⟨fun hf => ?_, fun k hf => ?_⟩
    · rcases hf with hf | hf <;> simp [execCall, hok, hfree, hm, hf]
    · simp [execCall, hok, hfree, hm, hf]
  · simp only [callOk, Bool.and_eq_true] at hok
    rw [exec_retrieve]
    refine ⟨fun hf => ?_, fun k hf => ?_⟩
    · rcases hf with hf | hf <;> simp [execRetrieve, hok, hfree, hm, hf]
    · simp [execRetrieve, hok, hfree, hm, hf]

end

theorem exec_call_homed {ch ext k : Nat} {r : CallReason} {internal : Bool} {ids : List Nat}
    (hok : callOk ch ext ids = true) (hidle : (s.ch ch).state = .idle) (hm : s.mode = .serving)
    (hf : s.find ext = .homed k) :
    exec (.call ch ext r internal ids) s = chanAct (s.openDeposit ch k r internal ids) ch := by
  rw [exec_call]
  simp [execCall, hok, Channel.busy_eq_false hidle, hm, hf]

theorem exec_retrieve_homed {ch ext k : Nat} (hch : wfChannel ch = true) (hext : wfExtension ext = true)
    (hidle : (s.ch ch).state = .idle) (hm : s.mode = .serving) (hf : s.find ext = .homed k) :
    exec (.retrieve ch ext) s = chanAct (s.openRetrieval ch k) ch := by
  rw [exec_retrieve]
  simp [execRetrieve, hch, hext, Channel.busy_eq_false hidle, hm, hf]

/-! ### The greeting of a deposit (R53-R55, R74) -/

variable {s} {i k : Nat} {r : CallReason}

theorem startGreeting_extension (h : s.chooseGreeting k r = .system none) :
    s.startGreeting i k r = s.onCh i fun c => { c with
      state := .greeting, playing := none, absenceChosen := false
      sound := [.prompt .youHaveReached, .digits (decimalDigits (s.mbCfg k).extension),
        .prompt .recordAfterTone] } := by
  simp [State.startGreeting, h]

/-- The node with one more reference to object `n`, whose page is marked (R20). -/
def State.referred (s : State) (n : Nat) (x : Obj) : State :=
  (s.onStore fun st => { st with objects := tblSet n { x with refs := x.refs + 1 } st.objects }).markObject n

theorem referred_onCh (f : Channel → Channel) (n : Nat) (x : Obj) :
    (s.onCh i f).referred n x = (s.referred n x).onCh i f := rfl

theorem onMb_onCh (f : Channel → Channel) (g : Mailbox → Mailbox) :
    (s.onCh i f).onMb k g = (s.onMb k g).onCh i f := rfl

theorem addRef_eq {n : Nat} {x : Obj} (ho : s.obj? n = some x) (hc : x.complete = true)
    (hr : x.refs < 65535) : s.addRef n = some (s.referred n x) := addRef_of_room ho hc hr

theorem startGreeting_name {o : Nat} {x : Obj} (h : s.chooseGreeting k r = .system (some o))
    (ho : s.obj? o = some x) (hc : x.complete = true) (hr : x.refs < 65535) :
    s.startGreeting i k r = (s.referred o x).onCh i fun c => { c with
      state := .greeting, playing := some o, absenceChosen := false
      sound := [.prompt .youHaveReached, .object o, .prompt .recordAfterTone] } := by
  simp [State.startGreeting, h, addRef_eq ho hc hr]

theorem startGreeting_recorded {o : Nat} {a : Bool} {x : Obj} (h : s.chooseGreeting k r = .recorded o a)
    (ho : s.obj? o = some x) (hc : x.complete = true) (hr : x.refs < 65535) :
    s.startGreeting i k r = (s.referred o x).onCh i fun c => { c with
      state := .greeting, playing := some o, absenceChosen := a, sound := [.object o] } := by
  simp [State.startGreeting, h, addRef_eq ho hc hr]

/-- The channel as an answered CALL fills it before its greeting (R70, R73). -/
def Channel.called (c : Channel) (k : Nat) (r : CallReason) (internal : Bool) (ids : List Nat) : Channel :=
  { c with
    sessionTimer := some 1200000, mailbox := some k, reason := some r
    identity := if ids = [] then none else some (ids.take 16), internal := internal }

theorem openDeposit_eq (internal : Bool) (ids : List Nat) : s.openDeposit i k r internal ids =
    ((s.send (.answer i)).onCh i fun c => c.called k r internal ids).startGreeting i k r := by
  simp only [State.openDeposit, State.answerCall, State.onCh_onCh, keptIdentity_eq]
  rfl

/-! ### The retrieval lock (R41, R85) -/

theorem inService_of_homed {ext : Nat} (h : s.find ext = .homed k) : s.inService k = true := by
  unfold State.find at h
  cases hr : s.recordOf ext with
  | none =>
    simp only [hr] at h
    split at h <;> cases h
  | some j =>
    simp only [hr] at h
    split at h
    · rename_i hen
      cases h
      obtain ⟨hk, hu, -⟩ := List.findIdx?_eq_some_iff_getElem.1 hr
      simp only [Bool.and_eq_true] at hu
      have hcfg : s.mbCfg k = s.cfg.mailboxes[k] := by simp [State.mbCfg, hk]
      rw [State.inService, hen, hcfg, hu.1]
      rfl
    · cases h

/-- A change that keeps what a summary counts keeps the summary (R86). -/
theorem summary_onMb (s : State) {k : Nat} {f : Mailbox → Mailbox} (hf : ∀ m, (f m).summary = m.summary) :
    ((s.onMb k f).mb k).summary = (s.mb k).summary := by
  simp only [State.mb, State.onMb, State.onMailboxes_mailboxes, List.getElem?_modify_eq]
  cases s.mailboxes[k]? with
  | none => rfl
  | some m => exact hf m

theorem askLock_granted (hin : s.inService k = true) (hl : (s.mb k).lock = none)
    (hno : ∀ m ∈ s.mailboxes, m.lock ≠ some i) :
    s.askLock k i = (.granted, s.onMb k fun m => { m with lock := some i, erasePending := [] }) := by
  have hany : (s.mailboxes.any fun m => m.lock == some i) = false := by simpa using hno
  simp only [State.askLock, hin, hl, hany]
  rfl

theorem askLock_inUse (hin : s.inService k = true) (hl : (s.mb k).lock.isSome = true) :
    s.askLock k i = (.inUse, s) := by
  simp [State.askLock, hin, hl]

end

end Sys2Proof.Machine

namespace Sys2Proof.Proofs

open Sys2Proof Sys2Proof.Machine

/-- Settles O34: the mode stands before the lookup, and a disabled mailbox is answered before it clears. -/
theorem callsTurnedAway : Obligations.CallsTurnedAway := by
  intro s ch ext r internal ids c hc hch hlow hhigh hlen hdigits hidle
  have hok := callOk_of hch hlow hhigh hlen hdigits
  refine ⟨fun hm => exec_call_unavailable hc hok hidle hm, fun hm => (exec_call_of_find hc hok hidle hm).1,
    fun k hm hf => ?_⟩
  rw [(exec_call_of_find hc hok hidle hm).2 k hf, State.notInService, State.answerCall, State.clearWith,
    State.onCh_onCh]
  rfl

/-- Settles O35: the answered channel takes the call's fields, and the greeting chosen plays under a reference
where it has an object. -/
theorem callOpensADeposit : Obligations.CallOpensADeposit := by
  intro s ch ext k r internal ids hch hlow hhigh hlen hdigits hidle hm hf
  have hexec := exec_call_homed s (r := r) (internal := internal)
    (callOk_of hch hlow hhigh hlen hdigits) (by rw [hidle]; rfl) hm hf
  rw [hexec, openDeposit_eq]
  refine ⟨fun hg => ?_, fun o x hg ho hc hr => ?_, fun o a x hg ho hc hr => ?_⟩
  · refine chanAct_nil ?_ (typeAhead_onCh_const _ rfl)
    rw [startGreeting_extension (s := (s.send _).onCh ch _) hg, State.onCh_onCh]
    exact onCh_of_idle _ hidle rfl
  · refine chanAct_nil ?_ (typeAhead_onCh_const _ rfl)
    rw [startGreeting_name (s := (s.send _).onCh ch _) hg ho hc hr, referred_onCh, State.onCh_onCh]
    exact onCh_of_idle _ hidle rfl
  · refine chanAct_nil ?_ (typeAhead_onCh_const _ rfl)
    rw [startGreeting_recorded (s := (s.send _).onCh ch _) hg ho hc hr, referred_onCh, State.onCh_onCh]
    exact onCh_of_idle _ hidle rfl

/-- Settles O36: a mailbox found as homed is in service, so a RETRIEVE meets the lock alone. -/
theorem retrieveTakesTheLock : Obligations.RetrieveTakesTheLock := by
  intro s ch ext k hch hlow hhigh hidle hm hf
  rw [exec_retrieve_homed s ((wfChannel_iff ch).2 hch) ((wfExtension_iff ext).2 ⟨hlow, hhigh⟩)
    (by rw [hidle]; rfl) hm hf]
  have hin : (s.answerCall ch).inService k = true := inService_of_homed hf
  refine ⟨fun hl hno => ?_, fun hl => ?_⟩
  · refine chanAct_nil ?_ (typeAhead_onCh_const _ rfl)
    have hsummary : (((s.answerCall ch).onMb k fun m =>
        { m with lock := some ch, erasePending := [] }).mb k).summary = (s.mb k).summary :=
      summary_onMb (s.answerCall ch) fun _ => rfl
    simp only [State.openRetrieval, askLock_granted hin hl hno]
    rw [State.enterSummary, hsummary]
    rw [State.answerCall, onMb_onCh, State.onCh_onCh]
    exact onCh_of_idle _ hidle rfl
  · refine chanAct_nil ?_ (typeAhead_onCh_const _ rfl)
    simp only [State.openRetrieval, askLock_inUse hin hl]
    rw [State.answerCall, State.clearWith, State.onCh_onCh]
    exact onCh_of_idle _ hidle rfl

end Sys2Proof.Proofs

/-! SUPPORT. A change of a channel and the operations of the other blocks go by in either order: no operation of
the Audio Store, the Lamp Unit or the Directory reads a channel. -/

namespace Sys2Proof.Machine

section
variable (s : State) (i : Nat) (f : Channel → Channel)

/-! ### What a change of a channel leaves to be read -/

@[simp] theorem onCh_mode : (s.onCh i f).mode = s.mode := rfl
@[simp] theorem onCh_startStep : (s.onCh i f).startStep = s.startStep := rfl
@[simp] theorem onCh_cfg : (s.onCh i f).cfg = s.cfg := rfl
@[simp] theorem onCh_configured : (s.onCh i f).configured = s.configured := rfl
@[simp] theorem onCh_generation : (s.onCh i f).generation = s.generation := rfl
@[simp] theorem onCh_store : (s.onCh i f).store = s.store := rfl
@[simp] theorem onCh_mailboxes : (s.onCh i f).mailboxes = s.mailboxes := rfl
@[simp] theorem onCh_lamp : (s.onCh i f).lamp = s.lamp := rfl
@[simp] theorem onCh_link : (s.onCh i f).link = s.link := rfl
@[simp] theorem onCh_deliv : (s.onCh i f).deliv = s.deliv := rfl
@[simp] theorem onCh_house : (s.onCh i f).house = s.house := rfl
@[simp] theorem onCh_writer : (s.onCh i f).writer = s.writer := rfl
@[simp] theorem onCh_index : (s.onCh i f).index = s.index := rfl
@[simp] theorem onCh_audio : (s.onCh i f).audio = s.audio := rfl
@[simp] theorem onCh_alarms : (s.onCh i f).alarms = s.alarms := rfl
@[simp] theorem onCh_discarded : (s.onCh i f).discarded = s.discarded := rfl
@[simp] theorem onCh_lines : (s.onCh i f).lines = s.lines := rfl
@[simp] theorem onCh_lineOut : (s.onCh i f).lineOut = s.lineOut := rfl
@[simp] theorem onCh_linkOut : (s.onCh i f).linkOut = s.linkOut := rfl
@[simp] theorem onCh_pending : (s.onCh i f).pending = s.pending := rfl
@[simp] theorem onCh_chans : (s.onCh i f).chans = s.chans.modify i f := rfl
@[simp] theorem onCh_chans_length : (s.onCh i f).chans.length = s.chans.length := List.length_modify ..
@[simp] theorem onCh_read_obj? (n : Nat) : (s.onCh i f).obj? n = s.obj? n := rfl
@[simp] theorem onCh_read_mb (k : Nat) : (s.onCh i f).mb k = s.mb k := rfl
@[simp] theorem onCh_read_mbCfg (k : Nat) : (s.onCh i f).mbCfg k = s.mbCfg k := rfl
@[simp] theorem onCh_read_cls (k : Nat) : (s.onCh i f).cls k = s.cls k := rfl
@[simp] theorem onCh_read_inService (k : Nat) : (s.onCh i f).inService k = s.inService k := rfl
@[simp] theorem onCh_read_today : (s.onCh i f).today = s.today := rfl
@[simp] theorem onCh_read_now : (s.onCh i f).now = s.now := rfl
@[simp] theorem onCh_read_quotaRoom (k : Nat) : (s.onCh i f).quotaRoom k = s.quotaRoom k := rfl
@[simp] theorem onCh_read_hasRoom (k : Nat) : (s.onCh i f).hasRoom k = s.hasRoom k := rfl
@[simp] theorem onCh_read_freeRoom : (s.onCh i f).freeRoom = s.freeRoom := rfl
@[simp] theorem onCh_read_chainLen (o : Option Nat) : (s.onCh i f).chainLen o = s.chainLen o := rfl
@[simp] theorem onCh_read_silentTail (n : Nat) : (s.onCh i f).silentTail n = s.silentTail n := rfl
@[simp] theorem onCh_read_originOf (k : Nat) : (s.onCh i f).originOf k = s.originOf k := rfl
@[simp] theorem onCh_read_find (ext : Nat) : (s.onCh i f).find ext = s.find ext := rfl
@[simp] theorem onCh_read_storeLow : (s.onCh i f).storeLow = s.storeLow := rfl
@[simp] theorem onCh_read_lampsRun : (s.onCh i f).lampsRun = s.lampsRun := rfl
@[simp] theorem onCh_read_silent (seg : Segment) : (s.onCh i f).silent seg = s.silent seg := rfl
@[simp] theorem onCh_read_membersWithRoom (l : Nat) : (s.onCh i f).membersWithRoom l = s.membersWithRoom l := rfl
@[simp] theorem onCh_read_presentNodes : (s.onCh i f).presentNodes = s.presentNodes := rfl
@[simp] theorem onCh_read_slotSounds (k : Nat) (g : GreetSlot) : (s.onCh i f).slotSounds k g = s.slotSounds k g := rfl
@[simp] theorem onCh_read_envelope (e : Entry) : (s.onCh i f).envelope e = s.envelope e := rfl
@[simp] theorem onCh_read_chooseGreeting (k : Nat) (r : CallReason) : (s.onCh i f).chooseGreeting k r = s.chooseGreeting k r := rfl
@[simp] theorem onCh_read_desiredOf (k : Nat) : (s.onCh i f).desiredOf k = s.desiredOf k := rfl
@[simp] theorem onCh_read_depositBlocks (k : Nat) : (s.onCh i f).depositBlocks k = s.depositBlocks k := rfl
@[simp] theorem onCh_read_qEntry? (p : Nat) : (s.onCh i f).qEntry? p = s.qEntry? p := rfl
@[simp] theorem onCh_read_outSlot (j : Nat) : (s.onCh i f).outSlot j = s.outSlot j := rfl
@[simp] theorem onCh_read_inSlot (j : Nat) : (s.onCh i f).inSlot j = s.inSlot j := rfl
@[simp] theorem onCh_read_freePositions : (s.onCh i f).freePositions = s.freePositions := rfl
@[simp] theorem onCh_read_stampedEntry (k : Nat) (e : Entry) : (s.onCh i f).stampedEntry k e = s.stampedEntry k e := rfl

/-! ### The store, the Lamp Unit and the Directory -/

@[simp] theorem onStore_onCh (g : Store → Store) : (s.onCh i f).onStore g = (s.onStore g).onCh i f := rfl
@[simp] theorem onMailboxes_onCh (g : List Mailbox → List Mailbox) : (s.onCh i f).onMailboxes g = (s.onMailboxes g).onCh i f := rfl
@[simp] theorem onMb_onCh_comm (k : Nat) (g : Mailbox → Mailbox) : (s.onCh i f).onMb k g = (s.onMb k g).onCh i f := rfl
@[simp] theorem onLamp_onCh (g : LampUnit → LampUnit) : (s.onCh i f).onLamp g = (s.onLamp g).onCh i f := rfl
@[simp] theorem onLampRec_onCh (k : Nat) (g : LampRec → LampRec) : (s.onCh i f).onLampRec k g = (s.onLampRec k g).onCh i f := rfl
@[simp] theorem onDeliv_onCh (g : Delivery → Delivery) : (s.onCh i f).onDeliv g = (s.onDeliv g).onCh i f := rfl
@[simp] theorem onLink_onCh (g : LinkCtl → LinkCtl) : (s.onCh i f).onLink g = (s.onLink g).onCh i f := rfl
@[simp] theorem onWriter_onCh (g : IndexWriter → IndexWriter) : (s.onCh i f).onWriter g = (s.onWriter g).onCh i f := rfl
@[simp] theorem onAudio_onCh (g : List (Nat × Segment) → List (Nat × Segment)) : (s.onCh i f).onAudio g = (s.onAudio g).onCh i f := rfl
@[simp] theorem send_onCh (r : OutRecord) : (s.onCh i f).send r = (s.send r).onCh i f := rfl
@[simp] theorem drive_onCh (x : LinkOut) : (s.onCh i f).drive x = (s.drive x).onCh i f := rfl
@[simp] theorem setAlarms_onCh (a : List Alarm) : (s.onCh i f).setAlarms a = (s.setAlarms a).onCh i f := rfl
@[simp] theorem markObject_onCh (n : Nat) : (s.onCh i f).markObject n = (s.markObject n).onCh i f := rfl
@[simp] theorem markMailbox_onCh (k : Nat) : (s.onCh i f).markMailbox k = (s.markMailbox k).onCh i f := rfl
@[simp] theorem markQueue_onCh (p : Nat) : (s.onCh i f).markQueue p = (s.markQueue p).onCh i f := rfl
@[simp] theorem addPending_onCh (k n : Nat) : (s.onCh i f).addPending k n = (s.addPending k n).onCh i f := rfl
@[simp] theorem returnRes_onCh (k n : Nat) : (s.onCh i f).returnRes k n = (s.returnRes k n).onCh i f := rfl
@[simp] theorem returnGrant_onCh (k n : Nat) : (s.onCh i f).returnGrant k n = (s.returnGrant k n).onCh i f := rfl
@[simp] theorem beginScan_onCh : (s.onCh i f).beginScan = (s.beginScan).onCh i f := rfl
@[simp] theorem referred_onCh_comm (n : Nat) (x : Obj) : (s.onCh i f).referred n x = (s.referred n x).onCh i f := rfl
@[simp] theorem onEntry_onCh (k num : Nat) (g : Entry → Entry) : (s.onCh i f).onEntry k num g = (s.onEntry k num g).onCh i f := rfl

@[simp] theorem latch_onCh (a : Alarm) : (s.onCh i f).latch a = (s.latch a).onCh i f := by
  by_cases h : a ∈ s.alarms <;> simp [State.latch, h]

@[simp] theorem evalLow_onCh : (s.onCh i f).evalLow = s.evalLow.onCh i f := by
  by_cases h : s.storeLow = true <;> simp [State.evalLow, h]

@[simp] theorem onObj_onCh (n : Nat) (g : Obj → Obj) : (s.onCh i f).onObj n g = (s.onObj n g).onCh i f := by
  simp only [State.onObj, onCh_read_obj?]
  split <;> rfl

@[simp] theorem freeObj_onCh (n : Nat) : (s.onCh i f).freeObj n = (s.freeObj n).onCh i f := by
  simp only [State.freeObj, onCh_read_obj?]
  split
  · rfl
  · simp

@[simp] theorem dropRef_onCh (n : Nat) : (s.onCh i f).dropRef n = (s.dropRef n).onCh i f := by
  simp only [State.dropRef, onCh_read_obj?]
  split
  · rfl
  · split <;> simp

@[simp] theorem dropRefOpt_onCh (o : Option Nat) : (s.onCh i f).dropRefOpt o = (s.dropRefOpt o).onCh i f := by
  cases o with
  | none => rfl
  | some n => exact dropRef_onCh s i f n

@[simp] theorem addRef_onCh (n : Nat) :
    (s.onCh i f).addRef n = (s.addRef n).map fun t => t.onCh i f := by
  simp only [State.addRef, onCh_read_obj?]
  split
  · rfl
  · split
    · simp
    · rfl

@[simp] theorem discardObj_onCh (n : Nat) : (s.onCh i f).discardObj n = (s.discardObj n).onCh i f := by
  simp only [State.discardObj, onCh_read_obj?]
  split
  · rfl
  · simp

@[simp] theorem letGo_onCh (n : Nat) : (s.onCh i f).letGo n = (s.letGo n).onCh i f := by
  simp only [State.letGo, onCh_read_obj?]
  split
  · rfl
  · split <;> simp

@[simp] theorem closeObj_onCh (n trim holders : Nat) : (s.onCh i f).closeObj n trim holders =
    ((s.closeObj n trim holders).1, (s.closeObj n trim holders).2.onCh i f) := by
  simp only [State.closeObj, onCh_read_obj?]
  split
  · rfl
  · split
    · simp
    · split <;> simp

@[simp] theorem append_onCh (n : Nat) (seg : Segment) :
    (s.onCh i f).append n seg = (s.append n seg).map fun t => t.onCh i f := by
  simp only [State.append, onCh_read_obj?, onCh_store, onCh_read_silent]
  split
  · rfl
  · split
    · split
      · rfl
      · split
        · rfl
        · simp
    · split
      · rfl
      · simp

/-- The node with object `n` made a broadcast copy (R13). -/
def State.converted (s : State) (n : Nat) (o : Obj) : State :=
  (s.onStore fun st => { st with
    objects := tblSet n { o with use := .shared, owner := none } st.objects
    sharedUse := st.sharedUse + o.chain.length }).markObject n

theorem convert_eq {s : State} {n : Nat} {o : Obj} (ho : s.obj? n = some o) : s.convert n =
    if o.complete = true ∧ o.use = .message ∧ o.refs = 1 ∧
      s.store.sharedUse + o.chain.length ≤ s.cfg.budget then some (s.converted n o) else none := by
  simp only [State.convert, ho, State.converted, Bool.and_eq_true, beq_iff_eq, decide_eq_true_eq, and_assoc]

@[simp] theorem convert_onCh (n : Nat) :
    (s.onCh i f).convert n = (s.convert n).map fun t => t.onCh i f := by
  cases ho : s.obj? n with
  | none => simp [State.convert, ho]
  | some o =>
    rw [convert_eq ho, convert_eq (s := s.onCh i f) ho]
    split_ifs with h h' h'
    · rfl
    · exact absurd h h'
    · exact absurd h' h
    · rfl

@[simp] theorem openObj_onCh (use : Use) (owner : Option Nat) (n : Nat) :
    (s.onCh i f).openObj use owner n = ((s.openObj use owner n).1, (s.openObj use owner n).2.onCh i f) := by
  by_cases h : Config.maxObjects < lowestFree 1 s.store.objects <;> simp [State.openObj, h]

theorem raisePending_onCh (k : Nat) (a : Admission) (t : State) :
    raisePending k (a, t.onCh i f) = ((raisePending k (a, t)).1, (raisePending k (a, t)).2.onCh i f) := by
  cases a <;> rfl

@[simp] theorem admitDeposit_onCh (k : Nat) :
    (s.onCh i f).admitDeposit k = ((s.admitDeposit k).1, (s.admitDeposit k).2.onCh i f) := by
  by_cases h : min ((s.cls k).maxSeconds * 16) (8 * s.depositBlocks k) < (s.cls k).minRoom * 16
  · rw [admitDeposit_of_small s h, admitDeposit_of_small (s.onCh i f) h]
  · rw [admitDeposit_of_room s (Nat.not_lt.1 h), admitDeposit_of_room (s.onCh i f) (Nat.not_lt.1 h),
      onCh_read_depositBlocks, openObj_onCh, raisePending_onCh]

@[simp] theorem admitSend_onCh (k : Nat) :
    (s.onCh i f).admitSend k = ((s.admitSend k).1, (s.admitSend k).2.onCh i f) := by
  simp only [State.admitSend, onCh_read_cls, onCh_read_freeRoom, openObj_onCh]
  split <;> rfl

@[simp] theorem otherSlots_onCh (k : Nat) (g : GreetSlot) : (s.onCh i f).otherSlots k g = s.otherSlots k g := rfl

@[simp] theorem admitGreeting_onCh (k : Nat) (g : GreetSlot) :
    (s.onCh i f).admitGreeting k g = ((s.admitGreeting k g).1, (s.admitGreeting k g).2.onCh i f) := by
  simp only [State.admitGreeting, onCh_read_cls, onCh_read_freeRoom, otherSlots_onCh, openObj_onCh]
  split <;> rfl

@[simp] theorem lampDispatch1_onCh : (s.onCh i f).lampDispatch1 = s.lampDispatch1.onCh i f := by
  cases hr : s.lampsRun with
  | false => simp [State.lampDispatch1, hr]
  | true =>
    by_cases h : s.lamp.outstanding.length < Config.lampOutstandingMax
    · cases hf : s.lamp.queue.find? fun c => !s.lamp.isOut c.ext <;> simp [State.lampDispatch1, hr, h, hf]
    · simp [State.lampDispatch1, hr, h]

@[simp] theorem lampDispatch_onCh : (s.onCh i f).lampDispatch = s.lampDispatch.onCh i f := by
  simp [State.lampDispatch]

@[simp] theorem setScanFlag_onCh (k : Nat) : (s.onCh i f).setScanFlag k = (s.setScanFlag k).onCh i f := by
  by_cases h : (s.lampsRun && !s.cfg.scanContinuous && s.inScanRange k && !s.lamp.scanRunning) = true
  · rw [State.setScanFlag, State.setScanFlag, if_pos h]
    exact if_pos h
  · rw [State.setScanFlag, State.setScanFlag, if_neg h]
    exact if_neg h

theorem queueLamp_onCh (c : LampCmd) : (s.onCh i f).queueLamp c = (s.queueLamp c).map fun t => t.onCh i f := by
  by_cases hq : s.lamp.isQueued c.ext = true
  · simp [State.queueLamp, hq]
  · by_cases hl : s.lamp.queue.length < Config.lampQueueMax <;> simp [State.queueLamp, hq, hl]

@[simp] theorem offerLamp_onCh (c : LampCmd) : (s.onCh i f).offerLamp c = (s.offerLamp c).onCh i f := by
  simp only [State.offerLamp, queueLamp_onCh]
  cases s.queueLamp c <;> simp

@[simp] theorem onCh_read_lampRec (k : Nat) : (s.onCh i f).lampRec k = s.lampRec k := rfl

@[simp] theorem tellLamp_onCh (k : Nat) : (s.onCh i f).tellLamp k = (s.tellLamp k).onCh i f := by
  by_cases hl : (s.mb k).lock.isSome = true
  · simp [State.tellLamp, hl]
  · by_cases hd : s.desiredOf k = (s.lampRec k).desired <;> simp [State.tellLamp, hl, hd]

@[simp] theorem tellIfChanged_onCh (k n : Nat) :
    (s.onCh i f).tellIfChanged k n = (s.tellIfChanged k n).onCh i f := by
  by_cases h : (s.mb k).newCount = n <;> simp [State.tellIfChanged, h]

@[simp] theorem commit_onCh (k : Nat) (e : Entry) (reserved : Bool) (grant : Nat) :
    (s.onCh i f).commit k e reserved grant = (s.commit k e reserved grant).onCh i f := by
  cases h : s.inService k <;> simp [State.commit, h]

@[simp] theorem forward_onCh (o t k : Nat) (urgent : Bool) : (s.onCh i f).forward o t k urgent =
    ((s.forward o t k urgent).1, (s.forward o t k urgent).2.onCh i f) := by
  cases hin : s.inService t with
  | false => simp [State.forward, hin]
  | true =>
    cases hroom : s.hasRoom t with
    | false => simp [State.forward, hin, hroom]
    | true =>
      by_cases hq : s.quotaRoom t < s.chainLen (some o)
      · simp [State.forward, hin, hroom, hq]
      · cases ha : s.addRef o <;> simp [State.forward, hin, hroom, hq, ha]

theorem serveMember_onCh (e : Entry) (o n k : Nat) (t : State) :
    State.serveMember e o (n, t.onCh i f) k =
      ((State.serveMember e o (n, t) k).1, (State.serveMember e o (n, t) k).2.onCh i f) := by
  simp only [State.serveMember, addRef_onCh]
  cases t.addRef o <;> simp

@[simp] theorem broadcast_onCh (o l k : Nat) (urgent : Bool) : (s.onCh i f).broadcast o l k urgent =
    ((s.broadcast o l k urgent).1, (s.broadcast o l k urgent).2.onCh i f) := by
  simp only [State.broadcast, onCh_read_membersWithRoom, onCh_read_originOf, onCh_cfg]
  generalize Entry.ofObject .shared urgent (s.originOf k) none o s.cfg.node = e
  suffices h : ∀ (ks : List Nat) (n : Nat) (t : State),
      ks.foldl (State.serveMember e o) (n, t.onCh i f) =
        ((ks.foldl (State.serveMember e o) (n, t)).1, (ks.foldl (State.serveMember e o) (n, t)).2.onCh i f) from
    h _ 0 s
  intro ks
  induction ks with
  | nil => exact fun n t => rfl
  | cons k ks ih =>
    intro n t
    rw [List.foldl_cons, serveMember_onCh, ih]
    rfl

@[simp] theorem removeQuiet_onCh (k num : Nat) :
    (s.onCh i f).removeQuiet k num = (s.removeQuiet k num).onCh i f := by
  simp only [State.removeQuiet, onCh_read_mb, onCh_read_chainLen]
  split <;> simp

@[simp] theorem removeEntry_onCh (k num : Nat) :
    (s.onCh i f).removeEntry k num = (s.removeEntry k num).onCh i f := by
  simp [State.removeEntry]

@[simp] theorem setEntryState_onCh (k num : Nat) (st : EntryState) :
    (s.onCh i f).setEntryState k num st = (s.setEntryState k num st).onCh i f := by
  simp [State.setEntryState]

@[simp] theorem reportHeard_onCh (k num : Nat) :
    (s.onCh i f).reportHeard k num = (s.reportHeard k num).onCh i f := by
  simp only [State.reportHeard, onCh_read_mb]
  split
  · rfl
  · rename_i e _
    by_cases h : e.state = .new <;> simp [h]

@[simp] theorem saveEntry_onCh (k num : Nat) :
    (s.onCh i f).saveEntry k num = (s.saveEntry k num).onCh i f := by
  simp only [State.saveEntry, onCh_read_mb]
  split
  · rfl
  · rename_i e _
    by_cases h : e.state = .saved <;> simp [h]

@[simp] theorem eraseMark_onCh (k num : Nat) :
    (s.onCh i f).eraseMark k num = (s.eraseMark k num).onCh i f := by
  simp only [State.eraseMark, onCh_read_mb]
  split <;> rfl

@[simp] theorem sessionEnd_onCh (k j : Nat) : (s.onCh i f).sessionEnd k j = (s.sessionEnd k j).onCh i f := by
  by_cases hl : (s.mb k).lock = some j
  · have h : ∀ (l : List Nat) (t : State), l.foldl (fun t n => t.removeEntry k n) (t.onCh i f) =
        (l.foldl (fun t n => t.removeEntry k n) t).onCh i f := by
      intro l
      induction l with
      | nil => exact fun t => rfl
      | cons n l ih => exact fun t => by rw [List.foldl_cons, removeEntry_onCh, ih]; rfl
    simp [State.sessionEnd, hl, h]
    rfl
  · simp [State.sessionEnd, hl]

@[simp] theorem emptySlot_onCh (k : Nat) (g : GreetSlot) :
    (s.onCh i f).emptySlot k g = (s.emptySlot k g).onCh i f := by
  simp [State.emptySlot]

@[simp] theorem acceptSlot_onCh (k : Nat) (g : GreetSlot) (n : Nat) (d : Option Nat) :
    (s.onCh i f).acceptSlot k g n d = (s.acceptSlot k g n d).onCh i f := by
  simp [State.acceptSlot]

@[simp] theorem setEndDay_onCh (k : Nat) (d : Option Nat) :
    (s.onCh i f).setEndDay k d = (s.setEndDay k d).onCh i f := by
  by_cases h : (s.mb k).endDay = d <;> simp [State.setEndDay, h]

@[simp] theorem reserve_onCh (k : Nat) :
    (s.onCh i f).reserve k = ((s.reserve k).1, (s.reserve k).2.onCh i f) := by
  cases hin : s.inService k with
  | false => simp [State.reserve, hin]
  | true => cases hroom : s.hasRoom k <;> simp [State.reserve, hin, hroom]

end

/-! ### Channels after the operations of the other blocks -/

section
variable {s t : State}

/-- A channel is read from the table of channels alone. -/
theorem State.ch_congr (h : t.chans = s.chans) (i : Nat) : t.ch i = s.ch i := by
  rw [State.ch, State.ch, h]

theorem StoreOnly.ch (h : StoreOnly s t) (i : Nat) : t.ch i = s.ch i := State.ch_congr h.chans i
theorem LampOnly.ch (h : LampOnly s t) (i : Nat) : t.ch i = s.ch i := State.ch_congr h.chans i

variable (s) (i : Nat)

@[simp] theorem dropRef_ch (n : Nat) : (s.dropRef n).ch i = s.ch i := (dropRef_only s n).ch i
@[simp] theorem dropRefOpt_ch (o : Option Nat) : (s.dropRefOpt o).ch i = s.ch i := (dropRefOpt_only s o).ch i
@[simp] theorem discardObj_ch (n : Nat) : (s.discardObj n).ch i = s.ch i := (discardObj_only s n).ch i
theorem addRef_ch {n : Nat} (h : s.addRef n = some t) : t.ch i = s.ch i := (addRef_only s h).ch i
@[simp] theorem onMb_ch (k : Nat) (g : Mailbox → Mailbox) : (s.onMb k g).ch i = s.ch i := rfl
@[simp] theorem markMailbox_ch (k : Nat) : (s.markMailbox k).ch i = s.ch i := rfl
@[simp] theorem send_ch (r : OutRecord) : (s.send r).ch i = s.ch i := rfl

theorem commit_chans (k : Nat) (e : Entry) (reserved : Bool) (grant : Nat) :
    (s.commit k e reserved grant).chans = s.chans := by
  cases hin : s.inService k with
  | false => rw [commit_of_out s hin]
  | true => exact (commit_only s hin).chans

@[simp] theorem commit_ch (k : Nat) (e : Entry) (reserved : Bool) (grant : Nat) :
    (s.commit k e reserved grant).ch i = s.ch i := State.ch_congr (commit_chans s k e reserved grant) i

end

end Sys2Proof.Machine

/-! PROOF. How sessions end: a RELEASE, the session limit, the final prompt and the clearing timer (R66, R70,
R71, R82, R83, R101, R102). -/

namespace Sys2Proof.Machine

section
variable {s : State} {i : Nat}

/-! ### What a channel gives up (R19, R20, R66) -/

/-- The node after the reference of a playback has been dropped, where there was one (R55, R89). -/
def State.PlayingDropped (s : State) (i : Nat) (u : State) : Prop :=
  ((s.ch i).playing = none ∧ u = s) ∨ ∃ o, (s.ch i).playing = some o ∧ u = s.dropRef o

theorem dropPlaying_of {u : State} (h : s.PlayingDropped i u) :
    s.dropPlaying i = u.onCh i fun c => { c with playing := none } := by
  rcases h with ⟨hp, rfl⟩ | ⟨o, hp, rfl⟩ <;> rw [State.dropPlaying, hp] <;> rfl

theorem State.PlayingDropped.ch {u : State} (h : s.PlayingDropped i u) (j : Nat) : u.ch j = s.ch j := by
  rcases h with ⟨-, rfl⟩ | ⟨o, -, rfl⟩
  · rfl
  · exact dropRef_ch s j o

/-- The node after a recording has been given up, where there was one: an OPEN one discarded, a COMPLETE one
losing its reference (R19, R20). -/
def State.RecordingDropped (s : State) (i : Nat) (a b : State) : Prop :=
  ((s.ch i).recording = none ∧ b = a) ∨ ∃ n x, (s.ch i).recording = some n ∧ a.obj? n = some x ∧
    b = if x.complete = true then a.dropRef n else a.discardObj n

theorem dropRecording_of {b : State} (h : s.RecordingDropped i s b) :
    s.dropRecording i = b.onCh i fun c => { c with recording := none, grant := 0 } := by
  rcases h with ⟨hr, rfl⟩ | ⟨n, x, hr, hx, rfl⟩ <;> simp only [State.dropRecording, hr]
  simp only [State.letGo, hx]

theorem State.RecordingDropped.ch {a b : State} (h : s.RecordingDropped i a b) (j : Nat) : b.ch j = a.ch j := by
  rcases h with ⟨-, rfl⟩ | ⟨n, x, -, -, rfl⟩
  · rfl
  · split
    · exact dropRef_ch a j n
    · exact discardObj_ch a j n

theorem dropPlaying_none (h : (s.ch i).playing = none) : s.dropPlaying i = s :=
  (dropPlaying_of (.inl ⟨h, rfl⟩)).trans (s.onCh_self (by cases hc : s.ch i; simp_all))

/-- A channel that holds nothing enters IDLE by that alone (R66). -/
theorem toIdle_of_free (hp : (s.ch i).playing = none) (hr : (s.ch i).recording = none) :
    s.toIdle i = s.onCh i fun _ => Channel.idle := by
  rw [State.toIdle, dropPlaying_none hp, dropRecording_of (.inl ⟨hr, rfl⟩), State.onCh_onCh]

/-- A channel about to hold nothing enters IDLE. -/
theorem toIdle_onCh {f : Channel → Channel} (hi : i < s.chans.length) (hp : (f (s.ch i)).playing = none)
    (hr : (f (s.ch i)).recording = none) :
    (s.onCh i f).toIdle i = s.onCh i fun _ => Channel.idle := by
  rw [toIdle_of_free, State.onCh_onCh]
  · rwa [State.ch_onCh_same s f hi]
  · rwa [State.ch_onCh_same s f hi]

/-! ### The ends of a deposit (R77, R82, R83) -/

theorem served_of {k : Nat} (h : (s.ch i).mailbox = some k) : s.served i = k := by
  simp [State.served, h]

/-- A deposit that is sent: the commit, and the channel hands its recording on (R82). -/
theorem sendDeposit_eq {n k : Nat} (urgent : Bool) (hr : (s.ch i).recording = some n)
    (hk : (s.ch i).mailbox = some k) : s.sendDeposit i urgent =
      (s.commit k (Entry.ofObject .voice urgent (s.ch i).origin (s.ch i).identity n s.cfg.node) true
        (s.ch i).grant).onCh i fun c => { c with
          recording := none, grant := 0, reservation := false, urgent := urgent } := by
  simp only [State.sendDeposit, hr, served_of hk]

theorem giveBack_eq {k : Nat} (grant : Nat) (hk : (s.ch i).mailbox = some k) : s.giveBack i grant =
    (s.onMb k fun m => { m with reserved := m.reserved - 1, pending := m.pending - grant }).onCh i
      fun c => { c with reservation := false, recording := none, grant := 0 } := by
  rw [State.giveBack, served_of hk]
  rfl

theorem leaveTone_eq {n k : Nat} (hr : (s.ch i).recording = some n) (hk : (s.ch i).mailbox = some k) :
    s.leaveTone i = ((s.discardObj n).onMb k fun m => { m with
      reserved := m.reserved - 1, pending := m.pending - (s.ch i).grant }).onCh i fun c => { c with
        reservation := false, recording := none, grant := 0 } := by
  simp only [State.leaveTone, hr]
  rw [giveBack_eq]
  rwa [discardObj_ch]

/-- The node after the partly captured segment of a recording: appended, unless none came or the earmark was
spent (R82). -/
def State.Padded (s : State) (g : Option Segment) (n : Nat) (u : State) : Prop :=
  (u = s ∧ ∀ seg, g = some seg → s.append n seg = none) ∨ ∃ seg, g = some seg ∧ s.append n seg = some u

theorem State.Padded.eq {g : Option Segment} {n : Nat} {u : State} (h : s.Padded g n u) :
    (g.bind (s.append n)).getD s = u := by
  rcases h with ⟨rfl, h⟩ | ⟨seg, rfl, h⟩
  · cases g with
    | none => rfl
    | some seg => simp [h seg rfl]
  · simp [h]

theorem append_only_chans {n : Nat} {seg : Segment} {u : State} (h : s.append n seg = some u) :
    u.chans = s.chans ∧ u.cfg = s.cfg := by
  unfold State.append at h
  split at h
  · cases h
  · rename_i o ho
    split at h
    · split at h
      · cases h
      · split at h
        · cases h
        · cases h
          simp
    · split at h
      · cases h
      · cases h
        simp [onObj_of_obj? s _ ho]

theorem State.Padded.chans {g : Option Segment} {n : Nat} {u : State} (h : s.Padded g n u) :
    u.chans = s.chans ∧ u.cfg = s.cfg := by
  rcases h with ⟨rfl, -⟩ | ⟨seg, -, h⟩
  · exact ⟨rfl, rfl⟩
  · exact append_only_chans h

theorem closeObj_ch (n trim holders j : Nat) : ((s.closeObj n trim holders).2).ch j = s.ch j :=
  (closeObj_only s n trim holders).ch j

/-- A recording that is long enough is closed with its silent tail and sent (R82). -/
theorem padAndSend_sent {g : Option Segment} {n k : Nat} {u v : State} (hr : (s.ch i).recording = some n)
    (hk : (s.ch i).mailbox = some k) (hu : s.Padded g n u)
    (hc : u.closeObj n (u.silentTail n) 1 = (true, v)) : s.padAndSend i g =
      (v.commit k (Entry.ofObject .voice false (s.ch i).origin (s.ch i).identity n s.cfg.node) true
        (s.ch i).grant).onCh i fun c => { c with
          recording := none, grant := 0, reservation := false, urgent := false } := by
  have honly := closeObj_only u n (u.silentTail n) 1
  rw [hc] at honly
  have hch : v.ch i = s.ch i := (honly.ch i).trans (State.ch_congr hu.chans.1 i)
  have hcfg : v.cfg = s.cfg := honly.cfg.trans hu.chans.2
  simp only [State.padAndSend, hr, hu.eq, hc]
  rw [sendDeposit_eq (n := n) (k := k) false (hch ▸ hr) (hch ▸ hk), hch, hcfg]

/-- One that is too short returns its reservation (R82). -/
theorem padAndSend_short {g : Option Segment} {n k : Nat} {u v : State} (hr : (s.ch i).recording = some n)
    (hk : (s.ch i).mailbox = some k) (hu : s.Padded g n u)
    (hc : u.closeObj n (u.silentTail n) 1 = (false, v)) : s.padAndSend i g =
      (v.onMb k fun m => { m with
        reserved := m.reserved - 1, pending := m.pending - (s.ch i).grant }).onCh i fun c => { c with
          reservation := false, recording := none, grant := 0 } := by
  have honly := closeObj_only u n (u.silentTail n) 1
  rw [hc] at honly
  have hch : v.ch i = s.ch i := (honly.ch i).trans (State.ch_congr hu.chans.1 i)
  simp only [State.padAndSend, hr, hu.eq, hc]
  rw [giveBack_eq _ (hch ▸ hk), hch]

/-! ### The end of a retrieval session (R101, R102) -/

theorem State.RecordingDropped.onCh {a b : State} (f : Channel → Channel) (h : s.RecordingDropped i a b) :
    s.RecordingDropped i (a.onCh i f) (b.onCh i f) := by
  rcases h with ⟨hr, rfl⟩ | ⟨n, x, hr, hx, rfl⟩
  · exact .inl ⟨hr, rfl⟩
  · refine .inr ⟨n, x, hr, hx, ?_⟩
    split <;> simp

theorem dropRecording_from {a b : State} (h : s.RecordingDropped i a b)
    (ha : (a.ch i).recording = (s.ch i).recording) :
    a.dropRecording i = b.onCh i fun c => { c with recording := none, grant := 0 } := by
  refine dropRecording_of ?_
  rwa [State.RecordingDropped, ha]

/-- A session that ends: what is left of playback and recording has been given up as `b`, and the Directory
ends the session (R101). -/
def State.sessionOver (b : State) (i k : Nat) : State :=
  (b.onCh i fun c => { c with
    playing := none, recording := none, grant := 0, pendingEnd := none, target := none, endDigits := []
    address := [] }).sessionEnd k i

/-- The rest of a session's end, once the playback has been given up (R101). -/
theorem endSession_eq {k : Nat} {a b : State} (hi : i < a.chans.length) (hk : (a.ch i).mailbox = some k)
    (hb : s.RecordingDropped i a b) (hr : (a.ch i).recording = (s.ch i).recording)
    (hp : (a.ch i).playing = none) :
    ((a.dropRecording i).onCh i fun c => { c with
      pendingEnd := none, target := none, endDigits := [], address := [] }).sessionEnd
        ((a.dropRecording i).served i) i = b.sessionOver i k := by
  have hlen : i < b.chans.length := by
    rcases hb with ⟨-, rfl⟩ | ⟨n, x, -, -, rfl⟩
    · exact hi
    · split <;> simpa using hi
  have hch := hb.ch i
  rw [dropRecording_from hb hr]
  have hserved : (b.onCh i fun c => { c with recording := none, grant := 0 }).served i = k := by
    rw [State.served, State.ch_onCh_same b _ hlen, hch]
    simp [hk]
  rw [hserved, State.onCh_onCh, State.sessionOver]
  refine congrArg (fun t : State => t.sessionEnd k i) (b.onCh_congr ?_)
  rw [hch]
  simp only [hp]

/-- The playback as a session's end finds it given up (R55, R89, R101). -/
theorem endRetrieval_eq {k : Nat} {a b : State} {release : Bool}
    (ha : (if (s.ch i).state = .playing then s.endPlayback i release else s.dropPlaying i) = a)
    (hi : i < a.chans.length) (hk : (a.ch i).mailbox = some k) (hb : s.RecordingDropped i a b)
    (hr : (a.ch i).recording = (s.ch i).recording) (hp : (a.ch i).playing = none) :
    s.endRetrieval i release =
      if release then (b.sessionOver i k).toIdle i else (b.sessionOver i k).clearWith i [.farewell] := by
  simp only [State.endRetrieval, ha]
  rw [endSession_eq hi hk hb hr hp]

end

/-! ### The Directory's requests leave the channels alone -/

section
variable (s : State)

@[simp] theorem removeQuiet_chans (k num : Nat) : (s.removeQuiet k num).chans = s.chans := by
  unfold State.removeQuiet
  split
  · rfl
  · exact dropRefOpt_chans _ _

@[simp] theorem tellIfChanged_chans (k n : Nat) : (s.tellIfChanged k n).chans = s.chans :=
  (tellIfChanged_only s k n).chans

@[simp] theorem removeEntry_chans (k num : Nat) : (s.removeEntry k num).chans = s.chans := by
  simp [State.removeEntry]

@[simp] theorem sessionEnd_chans (k i : Nat) : (s.sessionEnd k i).chans = s.chans := by
  unfold State.sessionEnd
  split
  · refine (tellLamp_only _ k).chans.trans ?_
    generalize ((s.mb k).entries.map (·.number)).filter (fun n => n ∈ (s.mb k).erasePending) = l
    suffices h : ∀ t : State, (l.foldl (fun t n => t.removeEntry k n) t).chans = t.chans from h s
    induction l with
    | nil => exact fun t => rfl
    | cons n l ih => exact fun t => (ih _).trans (removeEntry_chans t k n)
  · rfl

@[simp] theorem setEntryState_chans (k num : Nat) (st : EntryState) :
    (s.setEntryState k num st).chans = s.chans := by
  rw [State.setEntryState, tellIfChanged_chans]
  rfl

@[simp] theorem reportHeard_chans (k num : Nat) : (s.reportHeard k num).chans = s.chans := by
  unfold State.reportHeard
  split
  · rfl
  · split
    · exact setEntryState_chans s k num _
    · rfl

@[simp] theorem askHeard_chans (k i num : Nat) : (s.askHeard k i num).2.chans = s.chans := by
  unfold State.askHeard State.entryRequest
  split
  · split
    · rfl
    · exact reportHeard_chans s k num
  · rfl

@[simp] theorem sessionEnd_ch (k j i : Nat) : (s.sessionEnd k j).ch i = s.ch i :=
  State.ch_congr (sessionEnd_chans s k j) i

/-! ### What an act on one channel leaves of the others -/

/-- The other channels stand as they did. -/
def OthersKept (s : State) (i : Nat) (t : State) : Prop :=
  t.chans.length = s.chans.length ∧ ∀ j, j ≠ i → t.ch j = s.ch j

variable {s} {i : Nat} {t : State}

theorem OthersKept.refl : OthersKept s i s := ⟨rfl, fun _ _ => rfl⟩
theorem OthersKept.of_chans {u : State} (h : OthersKept s i t) (hc : u.chans = t.chans) :
    OthersKept s i u :=
  ⟨(congrArg List.length hc).trans h.1, fun j hj => (State.ch_congr hc j).trans (h.2 j hj)⟩
theorem OthersKept.onCh {f : Channel → Channel} (h : OthersKept s i t) : OthersKept s i (t.onCh i f) :=
  ⟨(onCh_chans_length t i f).trans h.1, fun j hj => (State.ch_onCh_ne t f hj).trans (h.2 j hj)⟩

theorem OthersKept.letGo (h : OthersKept s i t) (n : Nat) : OthersKept s i (t.letGo n) := by
  unfold State.letGo
  split
  · exact h
  · split
    · exact h.of_chans (dropRef_chans t n)
    · exact h.of_chans (discardObj_chans t n)

theorem OthersKept.dropPlaying (h : OthersKept s i t) : OthersKept s i (t.dropPlaying i) :=
  (h.of_chans (dropRefOpt_chans t _)).onCh

theorem OthersKept.dropRecording (h : OthersKept s i t) : OthersKept s i (t.dropRecording i) := by
  refine OthersKept.onCh ?_
  split
  · exact h
  · exact h.letGo _

theorem OthersKept.toIdle (h : OthersKept s i t) : OthersKept s i (t.toIdle i) :=
  h.dropPlaying.dropRecording.onCh

theorem OthersKept.giveBack (h : OthersKept s i t) (n : Nat) : OthersKept s i (t.giveBack i n) :=
  (h.of_chans (u := t.returnRes (t.served i) n) rfl).onCh

theorem OthersKept.sendDeposit (h : OthersKept s i t) (urgent : Bool) :
    OthersKept s i (t.sendDeposit i urgent) := by
  unfold State.sendDeposit
  dsimp only
  split
  · exact h
  · exact (h.of_chans (commit_chans ..)).onCh

theorem OthersKept.leaveTone (h : OthersKept s i t) : OthersKept s i (t.leaveTone i) := by
  refine OthersKept.giveBack ?_ _
  split
  · exact h
  · exact h.of_chans (discardObj_chans t _)

theorem OthersKept.padAndSend (h : OthersKept s i t) (g : Option Segment) :
    OthersKept s i (t.padAndSend i g) := by
  unfold State.padAndSend
  split
  · exact h
  · rename_i n hn
    dsimp only
    have happended : OthersKept s i ((g.bind (t.append n)).getD t) := by
      cases hg : g.bind (t.append n) with
      | none => exact h
      | some u =>
        obtain ⟨seg, -, hu⟩ := Option.bind_eq_some_iff.1 hg
        exact h.of_chans (append_only_chans hu).1
    generalize (g.bind (t.append n)).getD t = u at happended ⊢
    have hclosed := happended.of_chans (closeObj_only u n (u.silentTail n) 1).chans
    split <;> rename_i e <;> rw [e] at hclosed
    · exact hclosed.giveBack _
    · exact hclosed.sendDeposit _

theorem OthersKept.depositEnd (h : OthersKept s i t) (g : Option Segment) :
    OthersKept s i (t.depositEnd i g) := by
  unfold State.depositEnd
  split
  · exact h.dropPlaying
  · exact h.leaveTone
  · exact h.padAndSend g
  · exact h.sendDeposit _
  · exact h.sendDeposit _
  · exact h.giveBack _
  · exact h

theorem OthersKept.endPlayback (h : OthersKept s i t) (release : Bool) :
    OthersKept s i (t.endPlayback i release) := by
  unfold State.endPlayback
  dsimp only
  split
  · exact h.dropPlaying
  · split
    · exact h.dropPlaying
    · exact h.dropPlaying.of_chans (askHeard_chans ..)

/-- A channel that enters IDLE is IDLE (R66). -/
theorem toIdle_ch (hi : i < s.chans.length) : (s.toIdle i).ch i = Channel.idle :=
  State.ch_onCh_same _ _ ((OthersKept.refl.dropPlaying.dropRecording (s := s) (i := i)).1.symm ▸ hi)

end

section
variable {s : State} {i : Nat}

theorem sessionOver_toIdle {b : State} {k : Nat} (hi : i < b.chans.length) :
    (b.sessionOver i k).toIdle i = (b.sessionOver i k).onCh i fun _ => Channel.idle := by
  refine toIdle_of_free ?_ ?_ <;> rw [State.sessionOver, sessionEnd_ch, State.ch_onCh_same b _ hi]

/-- Whatever a busy channel was doing, a RELEASE ends with its entry to IDLE (R83, R102). -/
theorem releaseChannel_eq (g : Option Segment) (h : (s.ch i).state ≠ .idle) :
    ∃ t, OthersKept s i t ∧ s.releaseChannel i g = t.toIdle i := by
  unfold State.releaseChannel
  split
  · rename_i hs; exact absurd hs h
  · exact ⟨s, .refl, rfl⟩
  · exact ⟨s, .refl, rfl⟩
  · exact ⟨s, .refl, rfl⟩
  · split
    · exact ⟨_, OthersKept.refl.depositEnd g, rfl⟩
    · refine ⟨_, ?_, rfl⟩
      have hgiven : OthersKept s i ((if (s.ch i).state = .playing then s.endPlayback i true
          else s.dropPlaying i).dropRecording i) := by
        refine OthersKept.dropRecording ?_
        split
        · exact OthersKept.refl.endPlayback true
        · exact OthersKept.refl.dropPlaying
      exact (hgiven.onCh).of_chans (sessionEnd_chans ..)

end

/-! ### The end of an act that was taken -/

section
variable (s : State) {ch : Nat} {g : Option Segment}

theorem settle_chans : s.settle.chans = s.chans := by
  rcases settle_parts s with ⟨e, -⟩ | ⟨-, e⟩ <;> rw [e, nextMoment_eq] <;> exact beginWrite_chans s

theorem settle_mailboxes : s.settle.mailboxes = s.mailboxes := by
  rcases settle_parts s with ⟨e, -⟩ | ⟨-, e⟩ <;> rw [e, nextMoment_eq] <;> exact beginWrite_mailboxes s

theorem exec_release_of (hch : ch ≤ 15) (hg : wfGathered g = true) (h : (s.ch ch).state ≠ .idle) :
    exec (.release ch g) s = .next (s.releaseChannel ch g).settle := by
  change execRelease ch g s = _
  simp [execRelease, (wfChannel_iff ch).2 hch, hg, Channel.busy_of_state h, act]

theorem exec_release_idle (hch : ch ≤ 15) (h : (s.ch ch).state = .idle) :
    exec (.release ch g) s = .next s := by
  change execRelease ch g s = _
  simp only [execRelease, (wfChannel_iff ch).2 hch, Channel.busy_eq_false h]
  simp [Machine.discard]

theorem exec_sessionTimerExpiry_of (hg : wfGathered g = true) (h : (s.ch ch).sessionTimer.isSome = true) :
    exec (.sessionTimerExpiry ch g) s =
      .next ((s.onCh ch fun c => { c with sessionTimer := none }).sessionLimit ch g).settle := by
  change execSessionTimerExpiry ch g s = _
  simp [execSessionTimerExpiry, hg, h, act]

theorem exec_finalPromptEnd_of (h : (s.ch ch).state = .ending) :
    exec (.finalPromptEnd ch) s = .next (s.toClearing ch).settle := by
  change execFinalPromptEnd ch s = _
  simp [execFinalPromptEnd, h, act]

theorem exec_clearingTimerExpiry_of (h : (s.ch ch).state = .clearing)
    (ht : (s.ch ch).clearingTimer.isSome = true) :
    exec (.clearingTimerExpiry ch) s = .next (s.toIdle ch).settle := by
  change execClearingTimerExpiry ch s = _
  simp [execClearingTimerExpiry, h, ht, act]

end

/-! ### The session limit (R70, R75, R83, R101) -/

section
variable {s : State} {i n : Nat}

theorem State.Padded.onCh {g : Option Segment} {u : State} (f : Channel → Channel) (h : s.Padded g n u) :
    (s.onCh i f).Padded g n (u.onCh i f) := by
  rcases h with ⟨rfl, h⟩ | ⟨seg, hg, h⟩
  · exact .inl ⟨rfl, fun seg hg => by simp [h seg hg]⟩
  · exact .inr ⟨seg, hg, by simp [h]⟩

theorem sessionLimit_deposit (g : Option Segment) (h : (s.ch i).state.deposit = true) :
    s.sessionLimit i g = (s.depositEnd i g).clearWith i [.farewell] := by
  unfold State.sessionLimit
  split <;> rename_i hs <;> simp_all [ChanState.deposit]

theorem sessionLimit_retrieval (g : Option Segment) (h : (s.ch i).state.deposit = false)
    (h1 : (s.ch i).state ≠ .idle) (h2 : (s.ch i).state ≠ .transferring) (h3 : (s.ch i).state ≠ .ending)
    (h4 : (s.ch i).state ≠ .clearing) : s.sessionLimit i g = s.endRetrieval i false := by
  unfold State.sessionLimit
  split <;> rename_i hs
  · exact absurd hs h1
  · exact absurd hs h3
  · exact absurd hs h4
  · exact absurd hs h2
  · simp [h]

/-- Of the channels, the end of a playback changes what the channel plays (R42, R89). -/
theorem endPlayback_chans (release : Bool) : (s.endPlayback i release).chans =
    (s.onCh i fun c => { c with playing := none }).chans := by
  have hdrop : (s.dropPlaying i).chans = (s.onCh i fun c => { c with playing := none }).chans := by
    rw [State.dropPlaying, onCh_chans, onCh_chans, dropRefOpt_chans]
  unfold State.endPlayback
  dsimp only
  split
  · exact hdrop
  · split
    · exact hdrop
    · rw [askHeard_chans]
      exact hdrop

/-- A session's end, from what its playback and its recording come to (R101). -/
theorem endRetrieval_of {k : Nat} {a b : State} {release : Bool} (hi : i < s.chans.length)
    (hk : (s.ch i).mailbox = some k)
    (ha : ((s.ch i).state = .playing ∧ a = s.endPlayback i release) ∨
      ((s.ch i).state ≠ .playing ∧ s.PlayingDropped i a))
    (hb : s.RecordingDropped i a b) : s.endRetrieval i release =
      if release then (b.sessionOver i k).toIdle i else (b.sessionOver i k).clearWith i [.farewell] := by
  rcases ha with ⟨hs, rfl⟩ | ⟨hs, ha⟩
  · have hch : (s.endPlayback i release).ch i = { s.ch i with playing := none } :=
      (State.ch_congr (endPlayback_chans release) i).trans (State.ch_onCh_same s _ hi)
    refine endRetrieval_eq (by rw [if_pos hs]) ?_ (by rw [hch]; exact hk) hb (by rw [hch]) (by rw [hch])
    rw [endPlayback_chans, onCh_chans_length]
    exact hi
  · have halen : i < a.chans.length := by rcases ha with ⟨-, rfl⟩ | ⟨o, -, rfl⟩ <;> simpa using hi
    have hch : (a.onCh i fun c => { c with playing := none }).ch i = { s.ch i with playing := none } := by
      rw [State.ch_onCh_same a _ halen, ha.ch]
    rw [endRetrieval_eq (by rw [if_neg hs, dropPlaying_of ha]) (by simpa using halen) (by rw [hch]; exact hk)
      (hb.onCh _) (by rw [hch]) (by rw [hch]), State.sessionOver, State.onCh_onCh]
    rfl

end

end Sys2Proof.Machine

namespace Sys2Proof.Proofs

open Sys2Proof Sys2Proof.Machine

/-- Settles O38: what each state gives up comes before the entry to IDLE, which clears the record. -/
theorem releaseReturnsTheChannel : Obligations.ReleaseReturnsTheChannel := by
  intro s ch hch
  have hlt : ∀ {st}, (s.ch ch).state = st → st ≠ .idle → ch < s.chans.length := fun hs hne =>
    s.ch_lt_of_state (hs ▸ hne)
  refine ⟨fun g hg hs => ?_, fun g hg hp hr hs => ?_, fun g n k hg hs hr hp hk => ?_,
    fun g o hg hs hp hr => ?_, fun g n k hg hs hr hp hk => ?_, fun g k hg hs hr hp hk => ?_,
    fun g n k u v hg hs hr hp hk hu => ?_, fun g k a b hg hk hd h1 h2 h3 h4 ha hb => ?_,
    fun g hg hs => exec_release_idle s hch hs⟩
  · obtain ⟨t, hkept, ht⟩ := releaseChannel_eq g hs
    have hi : ch < t.chans.length := hkept.1.symm ▸ s.ch_lt_of_state hs
    refine ⟨_, exec_release_of s hch hg hs, ?_⟩
    rw [ht]
    have hchans := settle_chans (t.toIdle ch)
    exact ⟨(State.ch_congr hchans ch).trans (toIdle_ch hi),
      fun j hj => (State.ch_congr hchans j).trans (hkept.toIdle.2 j hj)⟩
  · have hrel : s.releaseChannel ch g = s.toIdle ch := by
      rcases hs with hs | hs | hs <;> simp only [State.releaseChannel, hs]
    rw [exec_release_of s hch hg (by rcases hs with hs | hs | hs <;> simp [hs]), hrel,
      toIdle_of_free hp hr]
  · have hrel : s.releaseChannel ch g = (s.sendDeposit ch false).toIdle ch := by
      rcases hs with hs | hs <;> simp [State.releaseChannel, hs, ChanState.deposit, State.depositEnd]
    have hne : (s.ch ch).state ≠ .idle := by rcases hs with hs | hs <;> simp [hs]
    rw [exec_release_of s hch hg hne, hrel, sendDeposit_eq false hr hk, toIdle_onCh]
    · rw [commit_chans]
      exact s.ch_lt_of_state hne
    · rw [commit_ch]
      exact hp
    · rfl
  · have hrel : s.releaseChannel ch g = (s.dropPlaying ch).toIdle ch := by
      simp [State.releaseChannel, hs, ChanState.deposit, State.depositEnd]
    rw [exec_release_of s hch hg (by simp [hs]), hrel, dropPlaying_of (.inr ⟨o, hp, rfl⟩), toIdle_onCh]
    · rw [dropRef_chans]
      exact hlt hs (by decide)
    · rfl
    · rw [dropRef_ch]
      exact hr
  · have hrel : s.releaseChannel ch g = (s.leaveTone ch).toIdle ch := by
      simp [State.releaseChannel, hs, ChanState.deposit, State.depositEnd]
    rw [exec_release_of s hch hg (by simp [hs]), hrel, leaveTone_eq hr hk, toIdle_onCh]
    · change ch < (s.discardObj n).chans.length
      rw [discardObj_chans]
      exact hlt hs (by decide)
    · exact (congrArg (·.playing) (discardObj_ch s ch n)).trans hp
    · rfl
  · have hrel : s.releaseChannel ch g = (s.giveBack ch 0).toIdle ch := by
      simp [State.releaseChannel, hs, ChanState.deposit, State.depositEnd]
    rw [exec_release_of s hch hg (by simp [hs]), hrel, giveBack_eq 0 hk, toIdle_onCh]
    · rfl
    · exact hlt hs (by decide)
    · exact hp
    · rfl
  · have hrel : s.releaseChannel ch g = (s.padAndSend ch g).toIdle ch := by
      simp [State.releaseChannel, hs, ChanState.deposit, State.depositEnd]
    have hvchans : ∀ b, u.closeObj n (u.silentTail n) 1 = (b, v) → v.chans = s.chans := fun b hc => by
      have honly := closeObj_only u n (u.silentTail n) 1
      rw [hc] at honly
      exact honly.chans.trans (State.Padded.chans hu).1
    rw [exec_release_of s hch hg (by simp [hs]), hrel]
    refine ⟨fun hc => ?_, fun hc => ?_⟩
    · rw [padAndSend_sent hr hk hu hc, toIdle_onCh]
      · rw [commit_chans, hvchans _ hc]
        exact hlt hs (by decide)
      · rw [commit_ch, State.ch_congr (hvchans _ hc)]
        exact hp
      · rfl
    · rw [padAndSend_short hr hk hu hc, toIdle_onCh]
      · exact (hvchans _ hc).symm ▸ hlt hs (by decide)
      · exact (congrArg (·.playing) (State.ch_congr (hvchans _ hc) ch)).trans hp
      · rfl
  · have hlen := s.ch_lt_of_state h1
    have hrel : s.releaseChannel ch g = s.endRetrieval ch true := by
      unfold State.releaseChannel
      split <;> first | contradiction | simp [hd]
    have hach : a.ch ch = s.ch ch := State.PlayingDropped.ch ha ch
    have halen : ch < a.chans.length := by rcases ha with ⟨-, rfl⟩ | ⟨o, -, rfl⟩ <;> simpa using hlen
    have hblen : ch < b.chans.length := by
      rcases hb with ⟨-, rfl⟩ | ⟨n, x, -, -, rfl⟩
      · exact halen
      · split <;> simpa using halen
    have hgiven : (if (s.ch ch).state = .playing then s.endPlayback ch true else s.dropPlaying ch) =
        a.onCh ch fun c => { c with playing := none } := by
      rw [← dropPlaying_of ha]
      split <;> simp [State.endPlayback]
    have ha' := State.ch_onCh_same a (fun c => { c with playing := none }) halen
    rw [exec_release_of s hch hg h1, hrel, endRetrieval_eq hgiven (by simpa using halen)
      (by rw [ha', hach]; exact hk) (State.RecordingDropped.onCh _ hb) (by rw [ha', hach]) (by rw [ha'])]
    simp only [if_true]
    rw [sessionOver_toIdle (by simpa using hblen), State.sessionOver, State.onCh_onCh]

/-- Settles O39: the expired timer is a change of the channel, which the end of its session goes by. -/
theorem callsEndAndClear : Obligations.CallsEndAndClear := by
  refine ⟨fun s ch g hg ht => ?_, fun s ch => ⟨fun hs => ?_, fun hs ht hp hr => ?_⟩⟩
  · have hlt : ∀ {st}, (s.ch ch).state = st → st ≠ .idle → ch < s.chans.length := fun hs hne =>
      s.ch_lt_of_state (hs ▸ hne)
    have hoff : ∀ {st}, (s.ch ch).state = st → st ≠ .idle →
        (s.onCh ch fun c => { c with sessionTimer := none }).ch ch =
          { s.ch ch with sessionTimer := none } := fun hs hne => State.ch_onCh_same s _ (hlt hs hne)
    rw [exec_sessionTimerExpiry_of s hg ht]
    refine ⟨fun hs => ?_, fun u hs hu => ?_, fun n k hs hr hk => ?_, fun k t hk hcase => ?_,
      fun n k u v hs hr hk hu => ?_, fun k u a b hk hd h1 h2 h3 h4 hu ha hb => ?_, fun hs => ?_⟩
    · have h := hoff hs (by decide)
      simp only [State.sessionLimit, h, hs]
      rw [State.toClearing, send_onCh, State.onCh_onCh]
      rfl
    · have h := hoff hs (by decide)
      have hdrop : (s.onCh ch fun c => { c with sessionTimer := none }).PlayingDropped ch
          (u.onCh ch fun c => { c with sessionTimer := none }) := by
        rcases hu with ⟨hp, rfl⟩ | ⟨o, hp, rfl⟩
        · exact .inl ⟨by rw [h]; exact hp, rfl⟩
        · exact .inr ⟨o, by rw [h]; exact hp, by simp⟩
      rw [sessionLimit_deposit g (by rw [h]; simp [hs, ChanState.deposit])]
      simp only [State.depositEnd, h, hs]
      rw [dropPlaying_of hdrop, State.clearWith, State.onCh_onCh, State.onCh_onCh]
      rfl
    · have h : (s.onCh ch fun c => { c with sessionTimer := none }).ch ch =
          { s.ch ch with sessionTimer := none } := by
        rcases hs with hs | hs <;> exact hoff hs (by decide)
      have hend : (s.onCh ch fun c => { c with sessionTimer := none }).depositEnd ch g =
          (s.onCh ch fun c => { c with sessionTimer := none }).sendDeposit ch false := by
        rcases hs with hs | hs <;> simp only [State.depositEnd, h, hs]
      rw [sessionLimit_deposit g (by rw [h]; rcases hs with hs | hs <;> simp [hs, ChanState.deposit]), hend,
        sendDeposit_eq (n := n) (k := k) false (by rw [h]; exact hr) (by rw [h]; exact hk), h, commit_onCh,
        State.clearWith, State.onCh_onCh, State.onCh_onCh]
      rfl
    · rcases hcase with ⟨hs, n, hr, rfl⟩ | ⟨hs, hr, rfl⟩
      · have h := hoff hs (by decide)
        rw [sessionLimit_deposit g (by rw [h]; simp [hs, ChanState.deposit])]
        simp only [State.depositEnd, h, hs]
        rw [leaveTone_eq (n := n) (k := k) (by rw [h]; exact hr) (by rw [h]; exact hk), h, discardObj_onCh,
          onMb_onCh, State.clearWith, State.onCh_onCh, State.onCh_onCh]
        rfl
      · have h := hoff hs (by decide)
        rw [sessionLimit_deposit g (by rw [h]; simp [hs, ChanState.deposit])]
        simp only [State.depositEnd, h, hs]
        rw [giveBack_eq (k := k) 0 (by rw [h]; exact hk), onMb_onCh, State.clearWith, State.onCh_onCh,
          State.onCh_onCh]
        rfl
    · have h := hoff hs (by decide)
      have hu' : (s.onCh ch fun c => { c with sessionTimer := none }).Padded g n
          (u.onCh ch fun c => { c with sessionTimer := none }) := State.Padded.onCh _ hu
      rw [sessionLimit_deposit g (by rw [h]; simp [hs, ChanState.deposit])]
      simp only [State.depositEnd, h, hs]
      refine ⟨fun hc => ?_, fun hc => ?_⟩
      · rw [padAndSend_sent (n := n) (k := k) (by rw [h]; exact hr) (by rw [h]; exact hk) hu'
          (v := v.onCh ch fun c => { c with sessionTimer := none }) (by simp [hc]), h, commit_onCh,
          State.clearWith, State.onCh_onCh, State.onCh_onCh]
        rfl
      · rw [padAndSend_short (n := n) (k := k) (by rw [h]; exact hr) (by rw [h]; exact hk) hu'
          (v := v.onCh ch fun c => { c with sessionTimer := none }) (by simp [hc]), h, onMb_onCh,
          State.clearWith, State.onCh_onCh, State.onCh_onCh]
        rfl
    · have h := hoff rfl h1
      have hlen : ch < u.chans.length := by rw [hu, onCh_chans_length]; exact s.ch_lt_of_state h1
      rw [← hu] at h ⊢
      rw [sessionLimit_retrieval g (by rw [h]; exact hd) (by rw [h]; exact h1) (by rw [h]; exact h2)
        (by rw [h]; exact h3) (by rw [h]; exact h4)]
      have hplayed : ((u.ch ch).state = .playing ∧ a = u.endPlayback ch false) ∨
          ((u.ch ch).state ≠ .playing ∧ u.PlayingDropped ch a) := by
        rw [State.PlayingDropped, h]
        rcases ha with ha | ⟨hs, hp, ha⟩ | ⟨o, hs, hp, ha⟩
        · exact .inl ha
        · exact .inr ⟨hs, .inl ⟨hp, ha⟩⟩
        · exact .inr ⟨hs, .inr ⟨o, hp, ha⟩⟩
      have hgiven : u.RecordingDropped ch a b := by
        rw [State.RecordingDropped, h]
        exact hb
      rw [endRetrieval_of hlen (by rw [h]; exact hk) hplayed hgiven, State.sessionOver, State.clearWith]
      rfl
    · have h : (s.onCh ch fun c => { c with sessionTimer := none }).ch ch =
          { s.ch ch with sessionTimer := none } := by
        rcases hs with hs | hs <;> exact hoff hs (by decide)
      rcases hs with hs | hs <;> simp only [State.sessionLimit, h, hs]
  · rw [exec_finalPromptEnd_of s hs, State.toClearing]
    rfl
  · rw [exec_clearingTimerExpiry_of s hs ht, toIdle_of_free hp hr]

end Sys2Proof.Proofs

/-! PROOF. What a digit does: it waits, is discarded or is taken by the channel's state (R67, R68). -/

namespace Sys2Proof.Machine

section
variable {s : State} {i : Nat}

/-! ### The end of an act on a channel (R67) -/

/-- What a change of a channel keeps reads as before, on a channel that does not exist, too. -/
theorem read_onCh {α : Type} (p : Channel → α) {f : Channel → Channel} (hf : ∀ c, p (f c) = p c := by exact fun _ => rfl) :
    p ((s.onCh i f).ch i) = p (s.ch i) := by
  by_cases hi : i < s.chans.length
  · rw [State.ch_onCh_same s f hi, hf]
  · simp [State.ch, State.onCh, hi]

theorem served_onCh {f : Channel → Channel}
    (hf : ∀ c, (f c).mailbox = c.mailbox := by exact fun _ => rfl) :
    (s.onCh i f).served i = s.served i :=
  congrArg (·.getD 0) (read_onCh (·.mailbox) hf)

/-- A channel led into a state that takes no digits takes none, whether it exists or not. -/
theorem takesDigits_onCh {f : Channel → Channel}
    (hf : ∀ c, (f c).state.takesDigits = false := by exact fun _ => rfl) :
    ((s.onCh i f).ch i).state.takesDigits = false := by
  by_cases hi : i < s.chans.length
  · rw [State.ch_onCh_same s f hi, hf]
  · simp [State.ch, State.onCh, hi, Channel.idle, ChanState.takesDigits]

/-- An act that ends in a state that takes no digits. -/
theorem chanAct_still (h : (s.ch i).state.takesDigits = false) : chanAct s i = .next s.settle := by
  rw [chanAct, State.takeDigits_still s h]
  rfl

/-- An act that changed a channel on which no digit waits. -/
theorem chanAct_onCh {f : Channel → Channel} (h : (s.ch i).typeAhead = [])
    (hf : ∀ c, (f c).typeAhead = c.typeAhead := by exact fun _ => rfl) : chanAct (s.onCh i f) i = .next (s.onCh i f).settle :=
  chanAct_nil rfl ((typeAhead_onCh s hf).trans h)

/-! ### A digit arrives (R67) -/

variable {key : Key} (hi : i ≤ 15) (hkey : wfKey key = true)
include hi hkey

theorem exec_digit_of (hidle : (s.ch i).state ≠ .idle) (hclear : (s.ch i).state ≠ .clearing) :
    exec (.digit i key) s = chanAct (s.onCh i fun c => { c with
      typeAhead := if c.typeAhead.length < 8 then c.typeAhead ++ [key] else c.typeAhead }) i := by
  change execDigit i key s = _
  simp [execDigit, (wfChannel_iff i).2 hi, hkey, Channel.deaf, hidle, hclear]
  rfl

theorem exec_digit_deaf (h : (s.ch i).state = .idle ∨ (s.ch i).state = .clearing) :
    exec (.digit i key) s = .next s := by
  change execDigit i key s = _
  have hdeaf : (s.ch i).deaf = true := by simpa [Channel.deaf] using h
  simp [execDigit, (wfChannel_iff i).2 hi, hkey, hdeaf, Machine.discard]

/-- With no digit waiting, a state that takes digits takes the one that arrives, and the act ends with it. -/
theorem exec_digit_taken (h : (s.ch i).typeAhead = []) (hs : (s.ch i).state.takesDigits = true) :
    exec (.digit i key) s = .next (s.onKey i key).settle := by
  have hne : ∀ st : ChanState, st.takesDigits = false → (s.ch i).state ≠ st := fun st hst e => by
    rw [e, hst] at hs
    cases hs
  have hlen := s.ch_lt_of_state (hne .idle rfl)
  rw [exec_digit_of hi hkey (hne .idle rfl) (hne .clearing rfl)]
  have hch := State.ch_onCh_same s (fun c => { c with
      typeAhead := if c.typeAhead.length < 8 then c.typeAhead ++ [key] else c.typeAhead }) hlen
  rw [chanAct, State.takeDigits_one _ (key := key) (by rw [hch]; simp [h]) (by rw [hch]; exact hs),
    State.onCh_onCh, s.onCh_self (by cases hc : s.ch i; simp_all)]
  rfl

end

section
variable {s : State} {i k : Nat}

/-! ### Keys with and without a meaning (R68, R69) -/

theorem onKey_message {key : Key} (hs : (s.ch i).state = .message) : s.onKey i key = s.messageKey i key := by
  simp only [State.onKey, hs]

theorem keyTaken_served : (s.keyTaken i).served i = s.served i := served_onCh fun _ => rfl

theorem noMeaning_of_off (h : (s.ch i).digitTimer = none) : s.noMeaning i = s :=
  s.onCh_self (by cases hc : s.ch i; simp_all)

/-! ### Menus (R69, R100) -/

/-- A change of a channel that does not exist changes nothing. -/
theorem onCh_of_length_le (h : s.chans.length ≤ i) (f : Channel → Channel) : s.onCh i f = s := by
  simp only [State.onCh, State.onChans]
  rw [List.modify_eq_self h]

/-- The prompt of a menu, but for a slot's, which says what the slot holds. -/
def ChanState.menuSays : ChanState → Option Prompt
  | .options => some .options
  | .main => some .mainMenu
  | .message => some .messageMenu
  | .addressing => some .enterExtension
  | .listNumber => some .enterList
  | .sendOptions => some .sendMenu
  | .greetings => some .greetingsMenu
  | .endDay => some .enterEndDay
  | .review => some .reviewMenu
  | _ => none

theorem menuSounds_of {p : Prompt} (h : (s.ch i).state.menuSays = some p) : s.menuSounds i = [.prompt p] := by
  unfold State.menuSounds
  cases hs : (s.ch i).state <;> rw [hs] at h <;> cases h <;> rfl

theorem enterMenu_eq {st : ChanState} {ss : List Sound}
    (h : i < s.chans.length → (s.onCh i fun c => { c with state := st, silentRepeats := 0 }).menuSounds i = ss) :
    s.enterMenu i st = s.onCh i fun c => { c with
      state := st, silentRepeats := 0, sound := ss, digitTimer := none, interDigitTimer := none } := by
  rcases Nat.lt_or_ge i s.chans.length with hi | hi
  · rw [State.enterMenu, State.playMenu, h hi, State.onCh_onCh]
  · rw [State.enterMenu, State.playMenu, onCh_of_length_le hi, onCh_of_length_le hi, onCh_of_length_le hi]

theorem enterMenu_of {st : ChanState} {p : Prompt} (h : st.menuSays = some p) :
    s.enterMenu i st = s.onCh i fun c => { c with
      state := st, silentRepeats := 0, sound := [.prompt p], digitTimer := none, interDigitTimer := none } :=
  enterMenu_eq fun hi => menuSounds_of (by rw [State.ch_onCh_same s _ hi]; exact h)

theorem enterMenu_slot {g : GreetSlot} (hk : (s.ch i).mailbox = some k) (hg : (s.ch i).slot = some g) :
    s.enterMenu i .slot = s.onCh i fun c => { c with
      state := .slot, silentRepeats := 0, sound := s.slotSounds k g, digitTimer := none
      interDigitTimer := none } :=
  enterMenu_eq fun hi => by simp [State.menuSounds, State.served, State.ch_onCh_same s _ hi, hk, hg]

/-! ### The end day of the ABSENCE greeting (R61, R62) -/

theorem setEndDay_ch (d : Option Nat) : (s.setEndDay k d).ch i = s.ch i := by
  by_cases h : (s.mb k).endDay = d <;> simp [State.setEndDay, h]

/-- A resulting end day is written where the slot is occupied, and held as pending otherwise (R62). -/
theorem applyEnd_enterMenu {g : GreetSlot} (hk : (s.ch i).mailbox = some k) (hg : (s.ch i).slot = some g)
    (hl : (s.mb k).lock = some i) (d : Option Nat) :
    ((s.mb k).absence.isSome = true → (s.applyEnd i d).enterMenu i .slot =
      (s.setEndDay k d).onCh i fun c => { c with
        state := .slot, silentRepeats := 0, sound := (s.setEndDay k d).slotSounds k g, digitTimer := none
        interDigitTimer := none }) ∧
    ((s.mb k).absence = none → (s.applyEnd i d).enterMenu i .slot = s.onCh i fun c => { c with
      pendingEnd := d, state := .slot, silentRepeats := 0, sound := s.slotSounds k g, digitTimer := none
      interDigitTimer := none }) := by
  refine ⟨fun h => ?_, fun h => ?_⟩
  · have hreq : s.slotRequest k i (fun t => t.setEndDay k d) = (true, s.setEndDay k d) := by
      simp [State.slotRequest, hl]
    rw [State.applyEnd, served_of hk, if_pos h, State.askEndDay, hreq]
    exact enterMenu_slot (by rw [setEndDay_ch]; exact hk) (by rw [setEndDay_ch]; exact hg)
  · rw [State.applyEnd, served_of hk, if_neg (by simp [h]), enterMenu_slot ((read_onCh (·.mailbox)).trans hk)
      ((read_onCh (·.slot)).trans hg), onCh_read_slotSounds, State.onCh_onCh]

theorem digitsValue_four {a b c e : Nat} : digitsValue [a, b, c, e] = 100 * (10 * a + b) + (10 * c + e) := by
  simp only [digitsValue, List.foldl]
  omega

/-- A fourth digit that makes a valid date, on a clock that is set (R61). -/
theorem endDayKey_fourth {a b c e today : Nat} (hi : i < s.chans.length)
    (hdigits : (s.ch i).endDigits = [a, b, c]) (hvalid : validDate (10 * a + b) (10 * c + e) = true)
    (htoday : s.today = some today) (hc : c ≤ 9) (he : e ≤ 9) :
    s.endDayKey i (.num e) = ((s.onCh i fun c => { c with
      silentRepeats := 0, digitTimer := none, sound := [], endDigits := [] }).applyEnd i
        (nextOccurrence today (10 * a + b) (10 * c + e))).enterMenu i .slot := by
  have hdiv : (100 * (10 * a + b) + (10 * c + e)) / 100 = 10 * a + b := by omega
  have hmod : (100 * (10 * a + b) + (10 * c + e)) % 100 = 10 * c + e := by omega
  have htoday' : ∀ f, (s.onCh i f).today = some today := fun f => htoday
  simp only [State.endDayKey, State.keyTaken, State.onCh_onCh, State.ch_onCh_same s _ hi, hdigits,
    State.endDate, List.cons_append, List.nil_append, digitsValue_four, hdiv, hmod, hvalid, htoday']
  rfl

/-! ### The current entry (R42-R44, R88, R91, R92) -/

theorem currentEntry_of {num : Nat} {e : Entry} (hk : (s.ch i).mailbox = some k)
    (hcur : (s.ch i).current = some num) (hgone : (s.ch i).currentGone = false)
    (he : (s.mb k).entry? num = some e) : s.currentEntry i = some e := by
  simp [State.currentEntry, hcur, hgone, served_of hk, he]

/-- A request of the channel that holds the lock, for an entry of the list, is taken (R41). -/
theorem entryRequest_taken {num : Nat} {e : Entry} (f : State → State) (hl : (s.mb k).lock = some i)
    (he : (s.mb k).entry? num = some e) : s.entryRequest k i num f = (.taken, f s) := by
  simp [State.entryRequest, hl, he]

/-- A request for a slot by the channel that holds the lock is taken (R41, R52). -/
theorem slotRequest_taken (f : State → State) (hl : (s.mb k).lock = some i) :
    s.slotRequest k i f = (true, f s) := by
  simp [State.slotRequest, hl]

/-- A key on the current entry, from the menu, acts on the entry (R90-R92). -/
theorem messageKey_of_message {n : Nat} (hs : (s.ch i).state = .message) (h4 : 4 ≤ n) (h6 : n ≠ 6) (h9 : n ≤ 9) :
    s.messageKey i (.num n) = (s.keyTaken i).entryKey i n := by
  have htaken : s.messageTaken i = s.keyTaken i := by simp [State.messageTaken, hs]
  unfold State.messageKey
  split
  · rename_i e; cases e
  · rename_i e; cases e
  · rename_i e; cases e; exact absurd rfl h6
  · rename_i e; cases e; simp [h4, h9, htaken]

/-! ### An entry presented (R87, R89) -/

/-- What becomes of the channel of a presented entry, but for what it plays (R87, R89). -/
def Channel.presenting (c : Channel) (e : Entry) (playing : Option Nat) (sounds : List Sound) : Channel :=
  { c with
    state := .playing, current := some e.number, currentGone := false
    presented := joinSet c.presented e.number, digitTimer := none, interDigitTimer := none
    silentRepeats := 0, playing := playing, sound := sounds }

theorem present_notice {e : Entry} (h : e.kind = .notice) : s.present i e =
    s.onCh i fun c => c.presenting e c.playing (s.envelope e ++ e.noticeSounds) := by
  simp only [State.present, if_pos h, State.onCh_onCh]
  rfl

theorem present_object {e : Entry} {o : Nat} {t : State} (h : e.kind ≠ .notice) (ho : e.object = some o)
    (ht : s.addRef o = some t) : s.present i e =
      t.onCh i fun c => c.presenting e (some o) (s.envelope e ++ [.object o]) := by
  simp only [State.present, if_neg h, ho, Option.bind_some, addRef_onCh, ht, Option.map_some,
    State.onCh_onCh, Option.getD_some]
  rfl

theorem present_refused {e : Entry} (h : e.kind ≠ .notice) (ho : e.object.bind s.addRef = none) :
    s.present i e = s.onCh i fun c => c.presenting e c.playing (s.envelope e ++ [.prompt .unavailable]) := by
  have hbind : (e.object.bind fun o => (s.addRef o).map fun t => t.onCh i fun c => { c with
      current := some e.number, currentGone := false, presented := joinSet c.presented e.number
      digitTimer := none, interDigitTimer := none, silentRepeats := 0 }) = none := by
    cases he : e.object with
    | none => rfl
    | some o => simpa [he] using ho
  have haddRef : (s.onCh i fun c => { c with
      current := some e.number, currentGone := false, presented := joinSet c.presented e.number
      digitTimer := none, interDigitTimer := none, silentRepeats := 0 }).addRef = _ :=
    funext fun o => addRef_onCh s i _ o
  simp only [State.present, if_neg h, haddRef, hbind, State.onCh_onCh]
  rfl

/-! ### The presentation order (R87) -/

/-- The first of a list by a rank of 0, 1 or 2, of those that are left. -/
theorem first_by_rank {l : List Entry} {rank : Entry → Nat} {left : Entry → Bool} {e : Entry}
    (h : ((l.find? fun x => left x && rank x == 0).or
      ((l.find? fun x => left x && rank x == 1).or (l.find? fun x => left x && rank x == 2))) = some e)
    : ∃ a b, l = a ++ e :: b ∧ left e = true ∧ (∀ f ∈ a, left f = true → rank e < rank f) ∧
      ∀ f ∈ b, left f = true → rank e ≤ rank f := by
  have hfound : ∀ n, (l.find? fun x => left x && rank x == n) = some e →
      (∀ f ∈ l, left f = true → n ≤ rank f) →
      ∃ a b, l = a ++ e :: b ∧ left e = true ∧ (∀ f ∈ a, left f = true → rank e < rank f) ∧
        ∀ f ∈ b, left f = true → rank e ≤ rank f := by
    intro n hn hlow
    obtain ⟨he, a, b, hl, ha⟩ := List.find?_eq_some_iff_append.1 hn
    simp only [Bool.and_eq_true, beq_iff_eq] at he
    refine ⟨a, b, hl, he.1, fun f hf hleft => ?_, fun f hf hleft => ?_⟩
    · have hne : rank f ≠ n := by simpa [hleft] using ha f hf
      have := hlow f (by simp [hl, hf]) hleft
      omega
    · exact he.2 ▸ hlow f (by simp [hl, hf]) hleft
  have hnone : ∀ n, (l.find? fun x => left x && rank x == n) = none →
      ∀ f ∈ l, left f = true → rank f ≠ n := fun n hn f hf hleft => by
    simpa [hleft] using List.find?_eq_none.1 hn f hf
  rcases Option.or_eq_some_iff.1 h with h0 | ⟨h0, h⟩
  · exact hfound 0 h0 fun _ _ _ => Nat.zero_le _
  · have hlow1 : ∀ f ∈ l, left f = true → 1 ≤ rank f := fun f hf hleft => by
      have := hnone 0 h0 f hf hleft
      omega
    rcases Option.or_eq_some_iff.1 h with h1 | ⟨h1, h2⟩
    · exact hfound 1 h1 hlow1
    · refine hfound 2 h2 fun f hf hleft => ?_
      have := hnone 1 h1 f hf hleft
      have := hlow1 f hf hleft
      omega

/-- The place of an entry in the presentation order: NEW and urgent, NEW, the rest (R87). -/
def Entry.rank (e : Entry) : Nat := if e.state = .new then (if e.urgent = true then 0 else 1) else 2

/-- An entry is neither marked for erasure nor yet presented (R87). -/
def State.isLeft (s : State) (i k : Nat) (e : Entry) : Bool :=
  decide (e.number ∉ (s.mb k).erasePending) && decide (e.number ∉ (s.ch i).presented)

theorem mem_order {m : Mailbox} {e : Entry} :
    e ∈ m.order ↔ e ∈ m.entries ∧ e.number ∉ m.erasePending := by
  by_cases hs : e.state = .new <;> cases hu : e.urgent <;>
    simp [Mailbox.order, hs, hu]

theorem nextEntry_eq (hk : (s.ch i).mailbox = some k) : s.nextEntry i =
    ((s.mb k).entries.find? fun x => s.isLeft i k x && x.rank == 0).or
      (((s.mb k).entries.find? fun x => s.isLeft i k x && x.rank == 1).or
        ((s.mb k).entries.find? fun x => s.isLeft i k x && x.rank == 2)) := by
  have hrank : ∀ x : Entry, (x.state == .new && x.urgent) = (x.rank == 0) ∧
      (x.state == .new && !x.urgent) = (x.rank == 1) ∧ (x.state != .new) = (x.rank == 2) := by
    intro x
    unfold Entry.rank
    by_cases hs : x.state = .new <;> cases hu : x.urgent <;> simp [hs]
  simp only [State.nextEntry, served_of hk, Mailbox.order, List.find?_append, List.find?_filter,
    List.filter_filter, fun x => (hrank x).1, fun x => (hrank x).2.1, fun x => (hrank x).2.2, Option.or_assoc]
  have hcomm : ∀ n, (fun a : Entry => decide ((a.rank == n && decide (a.number ∉ (s.mb k).erasePending)) = true ∧
      decide (a.number ∉ (s.ch i).presented) = true)) = fun x => s.isLeft i k x && x.rank == n := fun n => by
    funext x
    rw [Bool.decide_and, Bool.decide_eq_true, Bool.decide_eq_true, State.isLeft]
    ac_rfl
  simp only [hcomm]

end

end Sys2Proof.Machine

namespace Sys2Proof.Proofs

open Sys2Proof Sys2Proof.Machine

/-- Settles O37: a digit that a state takes acts as that state's key, on the node with the digit taken. -/
theorem digitsWaitOrAreTaken : Obligations.DigitsWaitOrAreTaken := by
  refine ⟨fun s ch key hch hkey => ⟨fun h1 h2 hs => ?_, exec_digit_deaf hch hkey⟩,
    fun s ch k hch hta hk => ⟨fun e u hs hop hu => ?_, fun d h1 h9 hs htimer => ?_, fun d h9 hs => ?_,
      fun num e hs hcur hgone hl he => ?_, fun e o x hs hnext hkind ho hx hc hr => ?_⟩,
    fun s ch k g hch hta hk hslot hl => ⟨fun n hs hr => ?_, fun hs hp hsome => ?_,
      fun key d hs hkey => ?_⟩,
    fun s ch k rank left hk hrank hleft => ?_⟩
  · rw [exec_digit_of hch hkey h1 h2]
    exact chanAct_still ((read_onCh (·.state.takesDigits)).trans hs)
  · rw [exec_digit_taken hch (by decide) hta (by simp [hs, ChanState.takesDigits])]
    have hdrop : (s.keyTaken ch).PlayingDropped ch (u.keyTaken ch) := by
      have hp : ((s.keyTaken ch).ch ch).playing = (s.ch ch).playing := read_onCh (·.playing) fun _ => rfl
      rcases hu with ⟨hn, rfl⟩ | ⟨o, ho, rfl⟩
      · exact .inl ⟨hp.trans hn, rfl⟩
      · exact .inr ⟨o, hp.trans ho, by simp [State.keyTaken]⟩
    have hkey : s.onKey ch (.num 0) = (((s.keyTaken ch).dropPlaying ch).send (.transfer ch e)).onCh ch fun c =>
        { c with state := .transferring } := by
      simp only [State.onKey, hs, State.greetingKey, served_of hk, hop]
    rw [hkey, dropPlaying_of hdrop, State.keyTaken, State.onCh_onCh, send_onCh, State.onCh_onCh]
    rfl
  · rw [exec_digit_taken hch (by simp [wfKey, h9]) hta (by simp [hs, ChanState.takesDigits])]
    have hkey : s.onKey ch (.num d) = s.noMeaning ch := by
      simp only [State.onKey, hs]
      unfold State.greetingKey
      split
      · rename_i e _; cases e; omega
      · rename_i e; cases e
      · rfl
    rw [hkey, noMeaning_of_off htimer]
  · rw [exec_digit_taken hch (by simp [wfKey, h9]) hta (by simp [hs, ChanState.takesDigits])]
    simp only [State.onKey, hs, State.recordingKey]
  · have hcurrent : (s.keyTaken ch).currentEntry ch = some e :=
      currentEntry_of ((read_onCh (·.mailbox)).trans hk)
        ((read_onCh (·.current)).trans hcur)
        ((read_onCh (·.currentGone)).trans hgone) he
    have hserved : (s.keyTaken ch).served ch = k := keyTaken_served.trans (served_of hk)
    have hnum : e.number = num := (entries_parted_first he).choose_spec.choose_spec.2.1
    have htaken : ∀ f : State → State, (s.keyTaken ch).entryRequest k ch num f =
        (.taken, f (s.keyTaken ch)) := fun f => entryRequest_taken f hl he
    refine ⟨?_, ?_⟩
    · rw [exec_digit_taken hch (by decide) hta (by simp [hs, ChanState.takesDigits]), onKey_message hs,
        messageKey_of_message hs (by decide) (by decide) (by decide)]
      simp only [State.entryKey, hcurrent, hserved, State.askSave, hnum, htaken]
      rw [State.keyTaken, saveEntry_onCh, State.promptThen, State.prompting, State.onCh_onCh]
    · rw [exec_digit_taken hch (by decide) hta (by simp [hs, ChanState.takesDigits]), onKey_message hs,
        messageKey_of_message hs (by decide) (by decide) (by decide)]
      simp only [State.entryKey, hcurrent, hserved, State.askErase, hnum, htaken]
      rw [State.keyTaken, eraseMark_onCh, State.promptThen, State.prompting, State.onCh_onCh,
        State.eraseMark, he]
      rfl
  · have hkey : s.onKey ch (.num 1) = (s.keyTaken ch).listen ch := by
      rcases hs with hs | hs <;> simp only [State.onKey, hs, State.mainKey]
    have hnext' : (s.keyTaken ch).nextEntry ch = some e := by
      rw [State.nextEntry, keyTaken_served,
        show ((s.keyTaken ch).ch ch).presented = (s.ch ch).presented from read_onCh (·.presented)]
      exact hnext
    rw [exec_digit_taken hch (by decide) hta (by rcases hs with hs | hs <;> simp [hs, ChanState.takesDigits]),
      hkey]
    simp only [State.listen, hnext']
    rw [present_object (s := s.keyTaken ch) (t := (s.keyTaken ch).referred o x) hkind ho
      (addRef_eq hx hc hr), State.keyTaken, referred_onCh_comm, State.onCh_onCh]
    rfl
  · have hrec : ((s.keyTaken ch).ch ch).recording = some n := (read_onCh (·.recording)).trans hr
    have hend : ((s.keyTaken ch).ch ch).pendingEnd = (s.ch ch).pendingEnd := read_onCh (·.pendingEnd)
    have hgreet : (s.keyTaken ch).slotOf ch = g := by
      rw [State.slotOf, show ((s.keyTaken ch).ch ch).slot = some g from (read_onCh (·.slot)).trans hslot]
      rfl
    rw [exec_digit_taken hch (by decide) hta (by simp [hs, ChanState.takesDigits])]
    simp only [State.onKey, hs, State.reviewKey, State.acceptGreeting, hrec, hend, hgreet, keyTaken_served,
      served_of hk, State.askAccept, slotRequest_taken (s := s.keyTaken ch) _ hl]
    rw [State.keyTaken, acceptSlot_onCh, State.forgetRecording, State.promptThen, State.prompting,
      State.onCh_onCh, State.onCh_onCh, State.onCh_onCh]
  · have hplay : (s.keyTaken ch).dropPlaying ch = s.keyTaken ch :=
      dropPlaying_none ((read_onCh (·.playing)).trans hp)
    have hgreet : (s.keyTaken ch).slotOf ch = g := by
      rw [State.slotOf, show ((s.keyTaken ch).ch ch).slot = some g from (read_onCh (·.slot)).trans hslot]
      rfl
    rw [exec_digit_taken hch (by decide) hta (by simp [hs, ChanState.takesDigits])]
    have hsome' : (((s.keyTaken ch).mb k).slotObj g).isSome = true := hsome
    simp only [State.onKey, hs, State.slotKey, State.slotTaken, hplay, State.deleteSlot, hgreet,
      keyTaken_served, served_of hk, State.askEmpty, slotRequest_taken (s := s.keyTaken ch) _ hl, hsome',
      if_true]
    rw [State.keyTaken, emptySlot_onCh, State.promptThen, State.prompting, State.onCh_onCh]
  · have hlen : ch < s.chans.length := s.ch_lt_of_state (by simp [hs])
    have hexec : exec (.digit ch key) s = .next (((s.onCh ch fun c => { c with
        silentRepeats := 0, digitTimer := none, sound := [], endDigits := [] }).applyEnd ch d).enterMenu ch
          .slot).settle := by
      rcases hkey with ⟨rfl, hnil, rfl⟩ | ⟨a, b, c, e, today, rfl, he, hdigits, hvalid, htoday, -, -, hc, rfl⟩
      · rw [exec_digit_taken hch (by decide) hta (by simp [hs, ChanState.takesDigits])]
        simp only [State.onKey, hs, State.endDayKey, hnil, List.isEmpty_nil, if_true, State.keyTaken]
        rw [s.onCh_congr (g := fun c => { c with
          silentRepeats := 0, digitTimer := none, sound := [], endDigits := [] }) (by simp [hnil])]
      · rw [exec_digit_taken hch (by simp [wfKey, he]) hta (by simp [hs, ChanState.takesDigits])]
        simp only [State.onKey, hs]
        rw [endDayKey_fourth hlen hdigits hvalid htoday hc he]
    have happlied := applyEnd_enterMenu (s := s.onCh ch fun c => { c with
      silentRepeats := 0, digitTimer := none, sound := [], endDigits := [] }) (g := g)
      ((read_onCh (·.mailbox)).trans hk) ((read_onCh (·.slot)).trans hslot) hl d
    refine ⟨fun habs => ?_, fun habs => ?_⟩
    · rw [hexec, happlied.1 habs, setEndDay_onCh, onCh_read_slotSounds, State.onCh_onCh]
    · rw [hexec, happlied.2 habs, onCh_read_slotSounds, State.onCh_onCh]
  · refine ⟨?_, fun e he => ?_⟩
    · have hall : s.nextEntry ch = none ↔ ∀ e ∈ (s.mb k).order, e.number ∈ (s.ch ch).presented := by
        simp [State.nextEntry, served_of hk]
      rw [hall]
      refine ⟨fun h e he hle => ?_, fun h e he => ?_⟩
      · have hparts := (hleft e).1 hle
        exact hparts.2 (h e (mem_order.2 ⟨he, hparts.1⟩))
      · obtain ⟨hmem, hmark⟩ := mem_order.1 he
        by_contra hnot
        exact h e hmem ((hleft e).2 ⟨hmark, hnot⟩)
    · rw [nextEntry_eq hk] at he
      obtain ⟨a, b, hl, hle, ha, hb⟩ := first_by_rank he
      have hrank' : ∀ x, x.rank = rank x := fun x => (hrank x).symm
      have hleft' : ∀ x, s.isLeft ch k x = true ↔ left x := fun x => by
        rw [hleft, State.isLeft, Bool.and_eq_true, decide_eq_true_eq, decide_eq_true_eq]
      simp only [hrank', hleft'] at hle ha hb
      exact ⟨a, b, hl, hle, ha, hb⟩

end Sys2Proof.Proofs

/-! PROOF. Menu timers, the entry of an address or a list number, and recordings for sending (R69, R81, R93-R98,
R100). -/

namespace Sys2Proof.Machine

section
variable {s : State} {i : Nat}

/-! ### Timers and menu prompts (R69, R81, R101) -/

theorem exec_menuPromptEnd_of (h : (s.ch i).menuPrompt = true) : exec (.menuPromptEnd i) s =
    .next (s.onCh i fun c => { c with sound := [], digitTimer := some 6000 }).settle := by
  change execMenuPromptEnd i s = _
  simp only [execMenuPromptEnd, if_pos h]
  rfl

theorem exec_digitTimerExpiry_of (hm : (s.ch i).state.menu = true) (ht : (s.ch i).digitTimer.isSome = true) :
    exec (.digitTimerExpiry i) s = chanAct ((s.onCh i fun c => { c with digitTimer := none }).menuTimeout i) i := by
  change execDigitTimerExpiry i s = _
  simp [execDigitTimerExpiry, hm, ht]

theorem letGo_mailboxes (n : Nat) : (s.letGo n).mailboxes = s.mailboxes := by
  unfold State.letGo
  split
  · rfl
  · split
    · exact (dropRef_only s n).mailboxes
    · exact (discardObj_only s n).mailboxes

theorem letGo_chans (n : Nat) : (s.letGo n).chans = s.chans := by
  unfold State.letGo
  split
  · rfl
  · split
    · exact dropRef_chans s n
    · exact discardObj_chans s n

/-- Of the Directory, giving up a recording changes nothing. -/
theorem dropRecording_mailboxes : (s.dropRecording i).mailboxes = s.mailboxes := by
  unfold State.dropRecording
  split
  · rfl
  · exact letGo_mailboxes _

theorem dropRecording_chans : (s.dropRecording i).chans =
    (s.onCh i fun c => { c with recording := none, grant := 0 }).chans := by
  unfold State.dropRecording
  split
  · rfl
  · rw [onCh_chans, onCh_chans, letGo_chans]

theorem dropPlaying_mailboxes : (s.dropPlaying i).mailboxes = s.mailboxes :=
  (dropRefOpt_only s (s.ch i).playing).mailboxes

theorem dropPlaying_chans : (s.dropPlaying i).chans = (s.onCh i fun c => { c with playing := none }).chans := by
  rw [State.dropPlaying, onCh_chans, onCh_chans, dropRefOpt_chans]

theorem sessionEnd_mb {k : Nat} (hk : k < s.mailboxes.length) (hl : (s.mb k).lock = some i) :
    ((s.sessionEnd k i).mb k).lock = none ∧ ((s.sessionEnd k i).mb k).erasePending = [] := by
  have hlen : ∀ (l : List Nat) (t : State), (l.foldl (fun t n => t.removeEntry k n) t).mailboxes.length =
      t.mailboxes.length := by
    intro l
    induction l with
    | nil => exact fun t => rfl
    | cons n l ih => exact fun t => (ih _).trans (removeEntry_mailboxes_length t n)
  rw [State.sessionEnd, if_pos hl]
  dsimp only
  rw [State.mb_congr (tellLamp_mailboxes _ _), State.mb_onMb_same _ _ (by rw [hlen]; exact hk)]
  exact ⟨rfl, rfl⟩

/-- A retrieval session that ends by another cause than a RELEASE, in a state that plays no entry, clears with
the farewell, and its lock and its erase marks are gone (R46, R101). -/
theorem endRetrieval_clears {k : Nat} (hi : i < s.chans.length) (hs : (s.ch i).state ≠ .playing)
    (hk : (s.ch i).mailbox = some k) (hl : (s.mb k).lock = some i) (hlen : k < s.mailboxes.length) :
    ((s.endRetrieval i false).ch i).state = .ending ∧
      ((s.endRetrieval i false).ch i).sound = [.prompt .farewell] ∧
      ((s.endRetrieval i false).mb k).lock = none ∧ ((s.endRetrieval i false).mb k).erasePending = [] := by
  simp only [State.endRetrieval, if_neg hs]
  generalize ht : (s.dropPlaying i).dropRecording i = t
  have hchans : t.chans.length = s.chans.length := by
    rw [← ht, dropRecording_chans, onCh_chans_length, dropPlaying_chans, onCh_chans_length]
  have hmbs : t.mailboxes = s.mailboxes := by rw [← ht, dropRecording_mailboxes, dropPlaying_mailboxes]
  have hch : (t.ch i).mailbox = some k := by
    rw [← ht, State.ch_congr dropRecording_chans, read_onCh (·.mailbox), State.ch_congr dropPlaying_chans,
      read_onCh (·.mailbox)]
    exact hk
  rw [served_of hch]
  generalize hv : (t.onCh i fun c => { c with
    pendingEnd := none, target := none, endDigits := [], address := [] }) = v
  have hvlen : i < v.chans.length := by rw [← hv, onCh_chans_length, hchans]; exact hi
  have hvmb : v.mailboxes = s.mailboxes := by rw [← hv]; exact hmbs
  have hdone := sessionEnd_mb (s := v) (i := i) (k := k) (by rw [hvmb]; exact hlen)
    (by rw [State.mb_congr hvmb]; exact hl)
  have hclear := State.ch_onCh_same (v.sessionEnd k i) (fun c => { c with
    state := .ending, sound := [.prompt .farewell], digitTimer := none, interDigitTimer := none })
    (by rw [sessionEnd_chans]; exact hvlen)
  simp only [Bool.false_eq_true, if_false]
  exact ⟨congrArg (·.state) hclear, congrArg (·.sound) hclear, hdone.1, hdone.2⟩

/-- A silent repeat plays the menu again at the first two expiries and ends the session at the third (R69). -/
theorem silentRepeat_again (hi : i < s.chans.length) (h : (s.ch i).silentRepeats < 2) {p : Prompt}
    (hp : (s.ch i).state.menuSays = some p) : s.silentRepeat i = s.onCh i fun c => { c with
      silentRepeats := c.silentRepeats + 1, sound := [.prompt p], digitTimer := none
      interDigitTimer := none } := by
  have hch := State.ch_onCh_same s (fun c => { c with silentRepeats := c.silentRepeats + 1 }) hi
  rw [State.silentRepeat]
  simp only [hch]
  rw [if_neg (by omega), State.playMenu, menuSounds_of (p := p) (by rw [hch]; exact hp), State.onCh_onCh]

theorem silentRepeat_third (hi : i < s.chans.length) (h : 2 ≤ (s.ch i).silentRepeats) : s.silentRepeat i =
    (s.onCh i fun c => { c with silentRepeats := c.silentRepeats + 1 }).endRetrieval i false := by
  have hch := State.ch_onCh_same s (fun c => { c with silentRepeats := c.silentRepeats + 1 }) hi
  rw [State.silentRepeat]
  simp only [hch]
  rw [if_pos (by omega)]

/-! ### A recording for sending (R10, R96) -/

theorem promptThen_still {p : Prompt} {a : After} :
    ((s.promptThen i p a).ch i).state.takesDigits = false := takesDigits_onCh

/-- The blocks that a recording for sending asks for (R10). -/
def State.sendBlocks (s : State) (k : Nat) : Nat :=
  min (((s.cls k).maxSeconds * 16 + 7) / 8) (s.store.free.length - s.store.earmark)

theorem admitSend_of_small {k : Nat} (h : 8 * s.sendBlocks k < (s.cls k).minRoom * 16) :
    s.admitSend k = (.noRoom, s) := if_pos h

theorem admitSend_of_room {k : Nat} (h : (s.cls k).minRoom * 16 ≤ 8 * s.sendBlocks k) :
    s.admitSend k = s.openObj .message (some k) (s.sendBlocks k) := if_neg (Nat.not_lt.2 h)

/-- A recording for sending is granted, or refused by one of the two answers (R10, R96). -/
theorem startSend_still (t : SendTarget) : ((s.startSend i t).ch i).state.takesDigits = false := by
  unfold State.startSend
  split
  · exact takesDigits_onCh
  · exact promptThen_still

/-! ### Invalid entries (R93, R96) -/

theorem addressInvalid_eq (hi : i < s.chans.length) (p : Prompt) (again : After) :
    s.addressInvalid i p again =
      (s.onCh i fun c => { c with address := [], invalid := c.invalid + 1 }).promptThen i p
        (if 2 ≤ (s.ch i).invalid then .returnState else again) := by
  rw [State.addressInvalid, State.ch_onCh_same s _ hi]
  have h : 3 ≤ (s.ch i).invalid + 1 ↔ 2 ≤ (s.ch i).invalid := by omega
  simp only [h]

theorem addressInvalid_still {p : Prompt} {again : After} :
    ((s.addressInvalid i p again).ch i).state.takesDigits = false := promptThen_still

theorem forwardTo_still (ext : Nat) : ((s.forwardTo i ext).ch i).state.takesDigits = false := by
  unfold State.forwardTo
  dsimp only
  repeat' split
  all_goals exact promptThen_still

theorem sendTo_still (ext : Nat) : ((s.sendTo i ext).ch i).state.takesDigits = false := by
  unfold State.sendTo
  split
  · exact startSend_still _
  · exact startSend_still _
  · exact addressInvalid_still
  · exact addressInvalid_still

theorem addressEnd_still : ((s.addressEnd i).ch i).state.takesDigits = false := by
  unfold State.addressEnd
  dsimp only
  split
  · split
    · exact forwardTo_still _
    · exact sendTo_still _
  · exact addressInvalid_still

theorem listEnd_still : ((s.listEnd i).ch i).state.takesDigits = false := by
  unfold State.listEnd
  dsimp only
  split
  · exact startSend_still _
  · exact addressInvalid_still

theorem validAddress_iff (ds : List Nat) :
    validAddress ds = true ↔ (ds.length = 4 ∨ ds.length = 5) ∧ ds.head? ≠ some 0 := by
  simp [validAddress]

theorem validList_iff (ds : List Nat) :
    validList ds = true ↔ (ds.length = 1 ∨ ds.length = 2) ∧ digitsValue ds < 32 := by
  simp [validList]

theorem addressEnd_of_invalid (hi : i < s.chans.length) (h : ((s.ch i).address.length ≠ 4 ∧
    (s.ch i).address.length ≠ 5) ∨ (s.ch i).address.head? = some 0) : s.addressEnd i =
      (s.onCh i fun c => { c with address := [], invalid := c.invalid + 1 }).promptThen i .extensionNotValid
        (if 2 ≤ (s.ch i).invalid then .returnState else .addressing) := by
  have hv : ¬ validAddress (s.ch i).address = true := by
    rw [validAddress_iff]
    rintro ⟨hlen, hhead⟩
    rcases h with ⟨h4, h5⟩ | h0
    · exact hlen.elim h4 h5
    · exact hhead h0
  rw [← addressInvalid_eq hi]
  simp only [State.addressEnd, if_neg hv]

theorem listEnd_of_invalid (hi : i < s.chans.length) (h : ((s.ch i).address.length ≠ 1 ∧
    (s.ch i).address.length ≠ 2) ∨ 32 ≤ digitsValue (s.ch i).address) : s.listEnd i =
      (s.onCh i fun c => { c with address := [], invalid := c.invalid + 1 }).promptThen i .listNotValid
        (if 2 ≤ (s.ch i).invalid then .returnState else .listNumber) := by
  have hv : ¬ validList (s.ch i).address = true := by
    rw [validList_iff]
    rintro ⟨hlen, hval⟩
    rcases h with ⟨h1, h2⟩ | h32
    · exact hlen.elim h1 h2
    · omega
  rw [← addressInvalid_eq hi]
  simp only [State.listEnd, if_neg hv]

/-! ### The entry of an addressing step ends (R93) -/

/-- The node as the end of an entry finds it: the inter-digit timer has expired, or # or the last digit has
been taken. -/
def State.EntryEnded (s : State) (i : Nat) (x : Instr) (u : State) : Prop :=
  (x = .interDigitTimerExpiry i ∧ (s.ch i).interDigitTimer.isSome = true ∧
      u = s.onCh i fun c => { c with interDigitTimer := none }) ∨
    (i ≤ 15 ∧ x = .digit i .hash ∧ u = s.onCh i fun c => { c with
      silentRepeats := 0, digitTimer := none, sound := [], interDigitTimer := none }) ∨
    (∃ d, i ≤ 15 ∧ d ≤ 9 ∧ x = .digit i (.num d) ∧
      (s.ch i).address.length = (if (s.ch i).state = .addressing then 4 else 1) ∧
      u = s.onCh i fun c => { c with
        silentRepeats := 0, digitTimer := none, sound := [], address := c.address ++ [d]
        interDigitTimer := none })

/-- What the end of an entry leaves of the channel. -/
theorem State.EntryEnded.onCh {x : Instr} {u : State} (h : s.EntryEnded i x u) :
    ∃ f : Channel → Channel, u = s.onCh i f ∧ ∀ c, (f c).mailbox = c.mailbox ∧ (f c).invalid = c.invalid ∧
      (f c).returnState = c.returnState ∧ (f c).current = c.current ∧ (f c).currentGone = c.currentGone := by
  rcases h with ⟨-, -, rfl⟩ | ⟨-, -, rfl⟩ | ⟨d, -, -, -, -, rfl⟩ <;>
    exact ⟨_, rfl, fun c => ⟨rfl, rfl, rfl, rfl, rfl⟩⟩

theorem exec_entryEnded_address {x : Instr} {u : State} (hta : (s.ch i).typeAhead = [])
    (h : s.EntryEnded i x u) (hs : (s.ch i).state = .addressing) : exec x s = .next (u.addressEnd i).settle := by
  have hi : i < s.chans.length := s.ch_lt_of_state (by simp [hs])
  rcases h with ⟨rfl, ht, rfl⟩ | ⟨hch, rfl, rfl⟩ | ⟨d, hch, hd, rfl, hlen, rfl⟩
  · change execInterDigitTimerExpiry i s = _
    simp only [execInterDigitTimerExpiry, if_pos ht, hs]
    exact chanAct_still addressEnd_still
  · rw [exec_digit_taken hch (by decide) hta (by simp [hs, ChanState.takesDigits])]
    simp only [State.onKey, hs, State.addressKey, State.keyTaken, State.stopInterDigit, State.onCh_onCh]
  · rw [exec_digit_taken hch (by simp [wfKey, hd]) hta (by simp [hs, ChanState.takesDigits])]
    have hfull : 5 ≤ ((s.ch i).address ++ [d]).length := by simp [hlen, hs]
    simp only [State.onKey, hs, State.addressKey, State.joinAddress, State.keyTaken, State.stopInterDigit,
      State.onCh_onCh, State.ch_onCh_same s _ hi, if_pos hfull]

theorem exec_entryEnded_list {x : Instr} {u : State} (hta : (s.ch i).typeAhead = [])
    (h : s.EntryEnded i x u) (hs : (s.ch i).state = .listNumber) : exec x s = .next (u.listEnd i).settle := by
  have hi : i < s.chans.length := s.ch_lt_of_state (by simp [hs])
  rcases h with ⟨rfl, ht, rfl⟩ | ⟨hch, rfl, rfl⟩ | ⟨d, hch, hd, rfl, hlen, rfl⟩
  · change execInterDigitTimerExpiry i s = _
    simp only [execInterDigitTimerExpiry, if_pos ht, hs]
    exact chanAct_still listEnd_still
  · rw [exec_digit_taken hch (by decide) hta (by simp [hs, ChanState.takesDigits])]
    simp only [State.onKey, hs, State.listKey, State.keyTaken, State.stopInterDigit, State.onCh_onCh]
  · rw [exec_digit_taken hch (by simp [wfKey, hd]) hta (by simp [hs, ChanState.takesDigits])]
    have hfull : 2 ≤ ((s.ch i).address ++ [d]).length := by simp [hlen, hs]
    simp only [State.onKey, hs, State.listKey, State.joinAddress, State.keyTaken, State.stopInterDigit,
      State.onCh_onCh, State.ch_onCh_same s _ hi, if_pos hfull]

/-! ### The return state (R93) -/

/-- The menu of the return state, MAIN unless it is MESSAGE. -/
theorem goReturn_eq : s.goReturn i = s.onCh i fun c => { c with
    target := none, address := [], silentRepeats := 0, digitTimer := none, interDigitTimer := none
    state := if c.returnState = some .message then .message else .main
    sound := [.prompt (if c.returnState = some .message then .messageMenu else .mainMenu)] } := by
  have hret : ((s.onCh i fun c => { c with target := none, address := [] }).ch i).returnState =
      (s.ch i).returnState := read_onCh _
  by_cases hr : (s.ch i).returnState = some .message
  · simp only [State.goReturn, hret, hr]
    rw [enterMenu_of (p := .messageMenu) rfl, State.onCh_onCh]
    refine s.onCh_congr ?_
    simp [hr]
  · have hgo : s.goReturn i = (s.onCh i fun c => { c with target := none, address := [] }).enterMenu i .main := by
      rw [State.goReturn]
      simp only [hret]
    rw [hgo, enterMenu_of (p := .mainMenu) rfl, State.onCh_onCh]
    refine s.onCh_congr ?_
    simp [hr]

end

end Sys2Proof.Machine

namespace Sys2Proof.Proofs

open Sys2Proof Sys2Proof.Machine

/-- Settles O40: the timers first, then how an entry ends, whichever of its three ends it meets, and the menus of
a recording for sending and of the greetings. -/
theorem menuAndEntryTimersRun : Obligations.MenuAndEntryTimersRun := by
  refine ⟨fun s ch => ⟨exec_menuPromptEnd_of, fun hs ht hta => ⟨fun hrep => ?_, fun k hrep hk hl hlen => ?_⟩,
      fun n k hs ht hr hk => ?_⟩,
    fun s u ch i say hta hsay hu => ⟨fun hs => ?_, fun hs => ?_⟩,
    fun s ch d hta hch hd hs => ?_, fun s ch hta hch hs => ?_,
    fun s ch k b t hk hb => ⟨fun u hu => ?_, fun hroom hentry => ?_⟩,
    fun s u ch k n x t say hta hk hch hsay hs hr htg ho hc hu => ?_,
    fun s ch k hta hk hch hs => ?_, rfl, fun ds d => ?_⟩
  · have hi : ch < s.chans.length := s.ch_lt_of_state (by simp [hs])
    have hoff := State.ch_onCh_same s (fun c => { c with digitTimer := none }) hi
    rw [exec_digitTimerExpiry_of (by simp [hs, ChanState.menu]) ht]
    simp only [State.menuTimeout, hoff, hs]
    rw [silentRepeat_again (by simpa using hi) (by rw [hoff]; exact hrep) (p := .mainMenu)
      (by rw [hoff, hs]; rfl), State.onCh_onCh]
    exact chanAct_onCh hta
  · have hi : ch < s.chans.length := s.ch_lt_of_state (by simp [hs])
    have hoff := State.ch_onCh_same s (fun c => { c with digitTimer := none }) hi
    have hch := State.ch_onCh_same s (fun c =>
      { c with digitTimer := none, silentRepeats := c.silentRepeats + 1 }) hi
    have hclear := endRetrieval_clears (s := s.onCh ch fun c =>
      { c with digitTimer := none, silentRepeats := c.silentRepeats + 1 }) (by simpa using hi)
      (by rw [hch, hs]; decide) (by rw [hch]; exact hk) hl hlen
    have hexec : exec (.digitTimerExpiry ch) s = .next (((s.onCh ch fun c =>
        { c with digitTimer := none, silentRepeats := c.silentRepeats + 1 }).endRetrieval ch false).settle) := by
      rw [exec_digitTimerExpiry_of (by simp [hs, ChanState.menu]) ht]
      simp only [State.menuTimeout, hoff, hs]
      rw [silentRepeat_third (by simpa using hi) (by rw [hoff]; exact hrep), State.onCh_onCh]
      exact chanAct_still (by rw [hclear.1]; rfl)
    refine ⟨_, hexec, ?_⟩
    rw [State.ch_congr (settle_chans _), State.mb_congr (settle_mailboxes _)]
    exact hclear
  · have hi : ch < s.chans.length := s.ch_lt_of_state (by simp [hs])
    have hoff := State.ch_onCh_same s (fun c => { c with digitTimer := none }) hi
    rw [exec_digitTimerExpiry_of (by simp [hs, ChanState.menu]) ht]
    simp only [State.menuTimeout, hoff, hs]
    rw [State.sentAndClear, sendDeposit_eq (n := n) (k := k) false (by rw [hoff]; exact hr)
      (by rw [hoff]; exact hk), hoff, commit_onCh, State.clearWith, State.onCh_onCh, State.onCh_onCh]
    exact chanAct_still takesDigits_onCh
  · obtain ⟨f, rfl, hf⟩ := State.EntryEnded.onCh hu
    have hi : ch < s.chans.length := s.ch_lt_of_state (by simp [hs])
    have hinv : ((s.onCh ch f).ch ch).invalid = (s.ch ch).invalid := read_onCh _ fun c => (hf c).2.1
    have hexec := exec_entryEnded_list hta hu hs
    refine ⟨fun l a b hl h32 => ?_, fun hbad => ?_⟩
    · have hval : digitsValue ((s.onCh ch f).ch ch).address = l := by
        rcases hl with hl | ⟨hl, rfl⟩ <;> simp [hl, digitsValue]
        omega
      have hv : validList ((s.onCh ch f).ch ch).address = true :=
        (validList_iff _).2 ⟨by rcases hl with hl | ⟨hl, -⟩ <;> simp [hl], hval ▸ h32⟩
      rw [hexec]
      simp only [State.listEnd, if_pos hv, hval]
    · rw [hexec, listEnd_of_invalid (by simpa using hi) hbad, hinv, hsay]
      rfl
  · obtain ⟨f, rfl, hf⟩ := State.EntryEnded.onCh hu
    have hi : ch < s.chans.length := s.ch_lt_of_state (by simp [hs])
    have hinv : ((s.onCh ch f).ch ch).invalid = (s.ch ch).invalid := read_onCh _ fun c => (hf c).2.1
    have hret : ((s.onCh ch f).ch ch).returnState = (s.ch ch).returnState := read_onCh _ fun c => (hf c).2.2.1
    have hexec := exec_entryEnded_address hta hu hs
    refine ⟨fun hbad => ?_, fun ext hext hlen hhead => ?_⟩
    · rw [hexec, addressEnd_of_invalid (by simpa using hi) hbad, hinv, hsay]
      rfl
    have hv : validAddress ((s.onCh ch f).ch ch).address = true := (validAddress_iff _).2 ⟨hlen, hhead⟩
    refine ⟨fun hr => ?_, fun k num e o hr hk hcur hgone he ho => ?_⟩
    · have hend : (s.onCh ch f).addressEnd ch = (s.onCh ch f).sendTo ch ext := by
        simp only [State.addressEnd, if_pos hv, hret, if_neg hr, hext]
      rw [hexec, hend]
      refine ⟨fun t hfind => ?_, fun hfind => ?_, fun p hp => ?_⟩
      · simp only [State.sendTo, onCh_read_find, hfind]
      · simp only [State.sendTo, onCh_read_find, hfind]
      · have hbad : (s.onCh ch f).sendTo ch ext = (s.onCh ch f).addressInvalid ch p .addressing := by
          rcases hp with ⟨⟨t, hfind⟩, rfl⟩ | ⟨hfind, rfl⟩ <;>
            simp only [State.sendTo, onCh_read_find, hfind]
        rw [hbad, addressInvalid_eq (by simpa using hi), hinv, hsay]
        rfl
    · have hk' : ((s.onCh ch f).ch ch).mailbox = some k := (read_onCh _ fun c => (hf c).1).trans hk
      have hcurrent : (s.onCh ch f).currentEntry ch = some e :=
        currentEntry_of hk' ((read_onCh _ fun c => (hf c).2.2.2.1).trans hcur)
          ((read_onCh _ fun c => (hf c).2.2.2.2).trans hgone) he
      have hend : (s.onCh ch f).addressEnd ch = (s.onCh ch f).forwardTo ch ext := by
        simp only [State.addressEnd, if_pos hv, hret, if_pos hr, hext]
      rw [hexec, hend]
      refine ⟨fun t a w hfind hfwd => ?_, fun a w hfind hoff => ?_, fun p hp => ?_⟩
      · rw [hsay]
        cases a <;> simp only [State.forwardTo, hcurrent, ho, onCh_read_find, hfind, served_of hk', hfwd] <;> rfl
      · rw [hsay]
        cases a <;> simp only [State.forwardTo, hcurrent, ho, onCh_read_find, hfind, served_of hk', hoff] <;> rfl
      · rw [hsay]
        rcases hp with ⟨⟨t, hfind⟩, rfl⟩ | ⟨hfind, rfl⟩ <;>
          simp only [State.forwardTo, hcurrent, ho, onCh_read_find, hfind] <;> rfl
  · have hi : ch < s.chans.length := by rcases hs with ⟨hs, -⟩ | ⟨hs, -⟩ <;> exact s.ch_lt_of_state (by simp [hs])
    have hkey : s.onKey ch (.num d) = s.joinAddress ch d := by
      rcases hs with ⟨hs, hlen⟩ | ⟨hs, hnil⟩
      · have hshort : ¬ 5 ≤ ((s.ch ch).address ++ [d]).length := by simp; omega
        simp only [State.onKey, hs, State.addressKey, State.joinAddress, State.keyTaken, State.onCh_onCh,
          State.ch_onCh_same s _ hi, if_neg hshort]
      · have hshort : ¬ 2 ≤ ((s.ch ch).address ++ [d]).length := by simp [hnil]
        simp only [State.onKey, hs, State.listKey, State.joinAddress, State.keyTaken, State.onCh_onCh,
          State.ch_onCh_same s _ hi, if_neg hshort]
    rw [exec_digit_taken hch (by simp [wfKey, hd]) hta
      (by rcases hs with ⟨hs, -⟩ | ⟨hs, -⟩ <;> simp [hs, ChanState.takesDigits]), hkey, State.joinAddress,
      State.keyTaken, State.onCh_onCh]
    rfl
  · have hkey : s.onKey ch .star = ((s.keyTaken ch).stopInterDigit ch).goReturn ch := by
      rcases hs with hs | hs <;> simp only [State.onKey, hs, State.addressKey, State.listKey]
    rw [exec_digit_taken hch (by decide) hta (by rcases hs with hs | hs <;> simp [hs, ChanState.takesDigits]),
      hkey, goReturn_eq, State.keyTaken,
      State.stopInterDigit, State.onCh_onCh, State.onCh_onCh]
  · have hb' : b = s.sendBlocks k := hb
    have hans : s.admitSend k = (.noRoom, u) ∨ s.admitSend k = (.noEntry, u) := by
      rcases hu with ⟨hsmall, rfl⟩ | ⟨hroom, hfull, rfl⟩
      · exact .inl (admitSend_of_small (hb' ▸ hsmall))
      · exact .inr ((admitSend_of_room (hb' ▸ hroom)).trans (openObj_of_full s hfull))
    rcases hans with h | h <;> simp only [State.startSend, served_of hk, h] <;> rfl
  · have hb' : b = s.sendBlocks k := hb
    have hans : s.admitSend k = (.granted (lowestFree 1 s.store.objects) b,
        s.opened (lowestFree 1 s.store.objects) .message (some k) b) := by
      rw [admitSend_of_room (hb' ▸ hroom), openObj_of_entry s hentry, hb']
    refine ⟨_, _, hans, rfl, ?_, ?_, ?_, ?_, ?_, ?_⟩
    · simp [State.opened, Obj.opened]
    · simp [State.opened]
    · simp [State.opened]
    · simp [State.opened]
    · simp [State.opened]
    · simp only [State.startSend, served_of hk, hans]
  · have hu' : u = s.keyTaken ch := hu
    have htakes : (s.ch ch).state.takesDigits = true := by simp [hs, ChanState.takesDigits]
    have hrec : (u.ch ch).recording = some n := hu ▸ (read_onCh (·.recording)).trans hr
    have hdrop : u.dropRecording ch = (u.dropRef n).onCh ch fun c => { c with recording := none, grant := 0 } :=
      dropRecording_of (.inr ⟨n, x, hrec, by rw [hu]; exact ho, by simp [hc]⟩)
    have hkey : ∀ key, s.onKey ch key = s.sendOptionsKey ch key := fun key => by simp only [State.onKey, hs]
    refine ⟨fun d b v hdb hv => ?_, ?_, ?_, fun key hkw h0 h1 h2 h3 => ?_⟩
    · have hsend : exec (.digit ch (.num d)) s = .next (u.sendRecording ch b).settle := by
        rcases hdb with ⟨rfl, rfl⟩ | ⟨rfl, rfl⟩ <;>
          rw [exec_digit_taken hch (by decide) hta htakes, hkey, hu'] <;> rfl
      have hvrec : (v.ch ch).recording = some n := hv ▸ (read_onCh (·.recording)).trans hrec
      have hvtg : (v.ch ch).target = some t := by
        rw [hv, hu, State.onCh_onCh]
        exact (read_onCh (·.target)).trans htg
      have huk : u.served ch = k := by rw [hu', keyTaken_served, served_of hk]
      refine ⟨fun ext k' a w ht hf => ?_, fun ext a w ht hf => ?_, fun l ht => ?_⟩
      · rw [hsend, hsay]
        cases a <;> simp only [State.sendRecording, ← hv, hvrec, hvtg, ht, huk, hf] <;>
          rw [State.forgetRecording, State.promptThen, State.prompting, State.onCh_onCh] <;> rfl
      · rw [hsend, hsay]
        cases a <;> simp only [State.sendRecording, ← hv, hvrec, hvtg, ht, huk, hf] <;>
          rw [State.forgetRecording, State.promptThen, State.prompting, State.onCh_onCh] <;> rfl
      · rw [hsend]
        simp only [State.sendRecording, ← hv, hvrec, hvtg, ht]
    · have htarget : ((u.dropRecording ch).ch ch).target = some t := by
        rw [hdrop, read_onCh (·.target), dropRef_ch, hu]
        exact (read_onCh (·.target)).trans htg
      rw [exec_digit_taken hch (by decide) hta htakes, hkey, ← hdrop]
      simp only [State.sendOptionsKey, ← hu', htarget]
    · rw [exec_digit_taken hch (by decide) hta htakes, hkey, hsay]
      simp only [State.sendOptionsKey, ← hu', hdrop, State.promptThen, State.prompting, State.onCh_onCh]
    · rw [exec_digit_taken hch hkw hta htakes, hkey]
      unfold State.sendOptionsKey
      split
      · exact absurd rfl h1
      · exact absurd rfl h2
      · exact absurd rfl h3
      · exact absurd rfl h0
      · rfl
  · have htakes : (s.ch ch).state.takesDigits = true := by simp [hs, ChanState.takesDigits]
    have hkey : ∀ key, s.onKey ch key = s.greetingsKey ch key := fun key => by simp only [State.onKey, hs]
    refine ⟨fun d g hdg => ?_, ?_, ?_, fun key hkw h1 h2 h3 h4 h5 => ?_⟩
    · have hchoose : exec (.digit ch (.num d)) s = .next (s.chooseSlot ch g).settle := by
        rcases hdg with ⟨rfl, rfl⟩ | ⟨rfl, rfl⟩ | ⟨rfl, rfl⟩ <;>
          rw [exec_digit_taken hch (by decide) hta htakes, hkey] <;> rfl
      have hg : g ≠ .absence := by rcases hdg with ⟨-, rfl⟩ | ⟨-, rfl⟩ | ⟨-, rfl⟩ <;> decide
      have hi : ch < s.chans.length := s.ch_lt_of_state (by simp [hs])
      rw [hchoose, State.chooseSlot]
      simp only [if_neg hg, State.keyTaken, State.onCh_onCh]
      rw [enterMenu_slot (k := k) (g := g) ((read_onCh (·.mailbox)).trans hk)
        (by rw [State.ch_onCh_same s _ hi]), onCh_read_slotSounds, State.onCh_onCh]
    · rw [exec_digit_taken hch (by decide) hta htakes, hkey]
      simp only [State.greetingsKey, State.chooseSlot, if_true, State.enterEndDay]
      rw [enterMenu_of (p := .enterEndDay) rfl, State.keyTaken, State.onCh_onCh, State.onCh_onCh,
        State.onCh_onCh]
    · rw [exec_digit_taken hch (by decide) hta htakes, hkey]
      simp only [State.greetingsKey, State.leaveSlot]
      rw [enterMenu_of (p := .mainMenu) rfl, State.keyTaken, State.onCh_onCh, State.onCh_onCh]
    · rw [exec_digit_taken hch hkw hta htakes, hkey]
      unfold State.greetingsKey
      split
      · exact absurd rfl h1
      · exact absurd rfl h2
      · exact absurd rfl h3
      · exact absurd rfl h4
      · exact absurd rfl h5
      · rfl
  · simp only [digitsValue, List.foldl_append, List.foldl_cons, List.foldl_nil]
    omega

end Sys2Proof.Proofs

/-! PROOF. Recordings: the tone, the captured segments and their end (R56, R57, R77-R82, R97). -/

namespace Sys2Proof.Machine

section
variable {s v : State} {i n k trim : Nat} {spent : Bool}

theorem settle_store : s.settle.store = s.store := by
  rcases settle_parts s with ⟨e, -⟩ | ⟨-, e⟩ <;> rw [e, nextMoment_eq] <;> exact beginWrite_store s

theorem settle_audio : s.settle.audio = s.audio := by
  rcases settle_parts s with ⟨e, -⟩ | ⟨-, e⟩ <;> rw [e, nextMoment_eq] <;> exact beginWrite_audio s

/-- A close leaves the channels as they are. -/
theorem closed_ch {b : Bool} {holders : Nat} (h : s.closeObj n trim holders = (b, v)) (j : Nat) :
    v.ch j = s.ch j := by
  have honly := (closeObj_only s n trim holders).ch j
  rwa [h] at honly

/-! ### A recording that ends (R57, R79, R97) -/

theorem closeDeposit_kept (hr : (s.ch i).recording = some n) (h : s.closeObj n trim 1 = (true, v)) :
    s.closeDeposit i trim spent =
      if spent = true then v.onCh i fun c => { c with state := .timeUp, sound := [.prompt .timeIsUp] }
      else v.onCh i fun c => { c with
        state := .options, silentRepeats := 0, sound := [.prompt .options], digitTimer := none
        interDigitTimer := none } := by
  simp only [State.closeDeposit, hr, h]
  rw [enterMenu_of (p := .options) rfl]

theorem closeDeposit_short (hr : (s.ch i).recording = some n) (hk : (s.ch i).mailbox = some k)
    (h : s.closeObj n trim 1 = (false, v)) : s.closeDeposit i trim spent =
      (v.onMb k fun m => { m with
        reserved := m.reserved - 1, pending := m.pending - (s.ch i).grant }).onCh i fun c => { c with
          state := .ending, sound := [.prompt .tooShort, .prompt .farewell], recording := none
          grant := 0, reservation := false, digitTimer := none, interDigitTimer := none } := by
  have hch := closed_ch h i
  simp only [State.closeDeposit, hr, h]
  rw [giveBack_eq _ (hch ▸ hk), hch, State.clearWith, State.onCh_onCh]
  rfl

theorem closeSend_kept (hr : (s.ch i).recording = some n) (h : s.closeObj n trim 1 = (true, v)) :
    s.closeSend i trim spent =
      if spent = true then v.onCh i fun c => { c with state := .sendTimeUp, sound := [.prompt .timeIsUp] }
      else v.onCh i fun c => { c with
        state := .sendOptions, silentRepeats := 0, sound := [.prompt .sendMenu], digitTimer := none
        interDigitTimer := none } := by
  simp only [State.closeSend, hr, h]
  rw [enterMenu_of (p := .sendMenu) rfl]

theorem closeSend_short (hr : (s.ch i).recording = some n) (h : s.closeObj n trim 1 = (false, v)) :
    s.closeSend i trim spent = v.onCh i fun c => { c with
      state := .prompting .returnState, sound := [.prompt .tooShort], recording := none
      grant := 0, digitTimer := none, interDigitTimer := none } := by
  simp only [State.closeSend, hr, h]
  rw [State.forgetRecording, State.promptThen, State.prompting, State.onCh_onCh]

theorem closeGreet_kept (hr : (s.ch i).recording = some n) (h : s.closeObj n 0 1 = (true, v)) :
    s.closeGreet i spent =
      if spent = true then v.onCh i fun c => { c with state := .greetTimeUp, sound := [.prompt .timeIsUp] }
      else v.onCh i fun c => { c with
        state := .review, silentRepeats := 0, sound := [.object n], digitTimer := none } := by
  simp only [State.closeGreet, hr, h]
  have hreview : v.startReview i = v.onCh i fun c => { c with
      state := .review, silentRepeats := 0, sound := [.object n], digitTimer := none } :=
    v.onCh_congr (by rw [closed_ch h i]; simp only [hr])
  rw [hreview]

theorem closeGreet_short (hr : (s.ch i).recording = some n) (h : s.closeObj n 0 1 = (false, v)) :
    s.closeGreet i spent = v.onCh i fun c => { c with
      state := .prompting .slot, sound := [.prompt .tooShort], recording := none
      grant := 0, digitTimer := none, interDigitTimer := none } := by
  simp only [State.closeGreet, hr, h]
  rw [State.forgetRecording, State.promptThen, State.prompting, State.onCh_onCh]

/-! ### A captured segment (R78, R97, R57) -/

/-- What a captured segment comes to: the earmark is spent, or the silence ends the recording. -/
def State.CaptureEnds (s : State) (n : Nat) (seg : Segment) (t : State) (trim : Nat) (spent : Bool) : Prop :=
  (s.append n seg = none ∧ t = s ∧ trim = 0 ∧ spent = true) ∨
    (s.append n seg = some t ∧ 112 ≤ t.silentTail n ∧ trim = 112 ∧ spent = false)

variable {seg : Segment} {t : State}

theorem State.CaptureEnds.ch (h : s.CaptureEnds n seg t trim spent) (j : Nat) : t.ch j = s.ch j := by
  rcases h with ⟨-, rfl, -, -⟩ | ⟨h, -, -, -⟩
  · rfl
  · exact State.ch_congr (append_only_chans h).1 j

theorem exec_segmentCaptured_deposit (hw : wfSegment seg = true) (hs : (s.ch i).state = .recording) :
    exec (.segmentCaptured i seg) s = chanAct (s.depositSegment i seg) i := by
  change execSegmentCaptured i seg s = _
  simp [execSegmentCaptured, hw, hs]

theorem exec_segmentCaptured_send (hw : wfSegment seg = true) (hs : (s.ch i).state = .sendCapture) :
    exec (.segmentCaptured i seg) s = chanAct (s.sendSegment i seg) i := by
  change execSegmentCaptured i seg s = _
  simp [execSegmentCaptured, hw, hs]

theorem exec_segmentCaptured_greet (hw : wfSegment seg = true) (hs : (s.ch i).state = .greetCapture) :
    exec (.segmentCaptured i seg) s = chanAct (s.greetSegment i seg) i := by
  change execSegmentCaptured i seg s = _
  simp [execSegmentCaptured, hw, hs]

theorem depositSegment_of_ends (hr : (s.ch i).recording = some n) (h : s.CaptureEnds n seg t trim spent) :
    s.depositSegment i seg = t.closeDeposit i trim spent := by
  rcases h with ⟨ha, rfl, rfl, rfl⟩ | ⟨ha, htail, rfl, rfl⟩
  · simp only [State.depositSegment, hr, ha]
  · simp only [State.depositSegment, hr, ha]
    exact if_pos htail

theorem sendSegment_of_ends (hr : (s.ch i).recording = some n) (h : s.CaptureEnds n seg t trim spent) :
    s.sendSegment i seg = t.closeSend i trim spent := by
  rcases h with ⟨ha, rfl, rfl, rfl⟩ | ⟨ha, htail, rfl, rfl⟩
  · simp only [State.sendSegment, hr, ha]
  · simp only [State.sendSegment, hr, ha]
    exact if_pos htail

theorem greetSegment_of_spent (hr : (s.ch i).recording = some n) (h : s.CaptureEnds n seg t trim true) :
    s.greetSegment i seg = t.closeGreet i true ∧ trim = 0 := by
  rcases h with ⟨ha, rfl, rfl, -⟩ | ⟨-, -, -, h⟩
  · exact ⟨by simp only [State.greetSegment, hr, ha], rfl⟩
  · cases h

/-- A segment that is appended and ends nothing. -/
theorem segment_appended (hr : (s.ch i).recording = some n) (ha : s.append n seg = some t) :
    s.greetSegment i seg = t ∧
      (t.silentTail n < 112 → s.depositSegment i seg = t ∧ s.sendSegment i seg = t) := by
  refine ⟨by simp only [State.greetSegment, hr, ha], fun htail => ⟨?_, ?_⟩⟩
  · simp only [State.depositSegment, hr, ha]
    exact if_neg (Nat.not_le.2 htail)
  · simp only [State.sendSegment, hr, ha]
    exact if_neg (Nat.not_le.2 htail)

/-- The grant goes back, the reservation stays, and the prompt to record plays again (R80). -/
theorem recordAgain_eq (hk : (s.ch i).mailbox = some k) : s.recordAgain i =
    (s.onMb k fun m => { m with pending := m.pending - (s.ch i).grant }).onCh i fun c => { c with
      state := .recordPrompt, sound := [.prompt .recordAfterTone], recording := none, grant := 0
      digitTimer := none } := by
  rw [State.recordAgain, served_of hk, State.forgetRecording, State.onCh_onCh]
  rfl

/-! ### The way to the tone (R76, R77, R80) -/

theorem hasRoom_of_mb {u : State} (hcfg : u.cfg = s.cfg) (hmb : u.mailboxes = s.mailboxes) :
    u.hasRoom k = s.hasRoom k := by
  have hcls : u.cls k = s.cls k := by simp only [State.cls, State.mbCfg, hcfg]
  rw [State.hasRoom, State.hasRoom, hcls, State.mb_congr hmb]

theorem admitTone_granted {b : Nat} {t : State} (hk : (s.ch i).mailbox = some k)
    (h : s.admitDeposit k = (.granted n b, t)) : s.admitTone i = t.onCh i fun c => { c with
      state := .tone, sound := [.tone], recording := some n, grant := b } := by
  simp only [State.admitTone, served_of hk, h]

theorem admitTone_full {t : State} (hk : (s.ch i).mailbox = some k) (h : s.admitDeposit k = (.full, t)) :
    s.admitTone i = (t.onMb k fun m => { m with reserved := m.reserved - 1 }).onCh i fun c => { c with
      reservation := false, state := .ending, sound := [.prompt .mailboxFull]
      digitTimer := none, interDigitTimer := none } := by
  simp only [State.admitTone, served_of hk, h]
  rw [State.clearWith, State.onCh_onCh]
  rfl

theorem exec_recordPromptEnd_of (hs : (s.ch i).state = .recordPrompt) :
    exec (.recordPromptEnd i) s = chanAct (s.admitTone i) i := by
  change execRecordPromptEnd i s = _
  simp only [execRecordPromptEnd, if_pos hs]

/-- A place is free while the entries and the reservations are fewer than the class allows (R33). -/
theorem hasRoom_iff : s.hasRoom k = true ↔
    (s.mb k).entries.length + (s.mb k).reserved < (s.cls k).maxEntries := by
  simp [State.hasRoom]

end

end Sys2Proof.Machine

namespace Sys2Proof.Proofs

open Sys2Proof Sys2Proof.Machine

/-- Settles O41: a segment either joins the recording or ends it as a key does, and each end of a recording is one
of its close. -/
theorem captureAppendsSegments : Obligations.CaptureAppendsSegments := by
  refine ⟨fun s ch hta => ⟨fun hs => ?_, fun hs => ?_, fun hs => ?_,
      fun seg n t hw hr ha hs => ?_, fun seg n o hw hr hs ho hfull he hmin => ?_,
      fun seg n t v trim spent hw hr hends => ?_⟩,
    fun s v ch k n hch hta hk hr => ⟨fun hs => ?_, fun hs => ?_, fun hs => ?_, fun hs => ?_⟩⟩
  · change execToneEnd ch s = _
    simp only [execToneEnd, hs]
    exact chanAct_onCh hta
  · change execToneEnd ch s = _
    simp only [execToneEnd, hs]
    exact chanAct_onCh hta
  · change execToneEnd ch s = _
    simp only [execToneEnd, hs]
    exact chanAct_onCh hta
  · have htta : (t.ch ch).typeAhead = [] := (congrArg (·.typeAhead)
      (State.ch_congr (append_only_chans ha).1 ch)).trans hta
    obtain ⟨hgreet, hgo⟩ := segment_appended hr ha
    rcases hs with hs | ⟨hs | hs, htail⟩
    · rw [exec_segmentCaptured_greet hw hs]
      exact chanAct_nil hgreet htta
    · rw [exec_segmentCaptured_deposit hw hs]
      exact chanAct_nil (hgo htail).1 htta
    · rw [exec_segmentCaptured_send hw hs]
      exact chanAct_nil (hgo htail).2 htta
  · have hi : ch < s.chans.length := s.ch_lt_of_state (by simp [hs])
    have hends : s.CaptureEnds n seg s 0 true := .inl ⟨append_spent seg ho hfull he, rfl, rfl, rfl⟩
    have hkept : s.closeObj n 0 1 = (true, s.keepClosed n o 0 1) :=
      closeObj_kept ho (by simpa using hmin) (Nat.le_refl 1)
    have hexec : exec (.segmentCaptured ch seg) s = .next ((s.keepClosed n o 0 1).onCh ch fun c => { c with
        state := .timeUp, sound := [.prompt .timeIsUp] }).settle := by
      rw [exec_segmentCaptured_deposit hw hs, depositSegment_of_ends hr hends, closeDeposit_kept hr hkept,
        if_pos rfl]
      exact chanAct_still takesDigits_onCh
    have hlen : ch < (s.keepClosed n o 0 1).chans.length := by
      rw [State.keepClosed, evalLow_chans]
      exact hi
    refine ⟨_, hexec, ?_⟩
    rw [State.ch_congr (settle_chans _), State.ch_onCh_same _ _ hlen, closed_ch hkept,
      State.obj?_congr (congrArg Store.objects (settle_store (s := _))), settle_audio]
    refine ⟨rfl, rfl, hr, ?_, ?_⟩
    · exact evalLow_audio _
    · simp [State.keepClosed, tblGet_tblSet_same, Obj.closed, blocksOf]
  · have hch := State.CaptureEnds.ch hends ch
    refine ⟨fun k hs hk => ?_, fun hs => ?_, fun hs hspent => ?_⟩
    · rw [exec_segmentCaptured_deposit hw hs, depositSegment_of_ends hr hends]
      refine ⟨fun hc => ⟨fun hsp => ?_, fun hsp => ?_⟩, fun hc => ?_⟩
      · rw [closeDeposit_kept (hch ▸ hr) hc, if_pos hsp]
        exact chanAct_still takesDigits_onCh
      · rw [closeDeposit_kept (hch ▸ hr) hc, if_neg (by simp [hsp])]
        exact chanAct_onCh (by rw [closed_ch hc, hch]; exact hta)
      · rw [closeDeposit_short (hch ▸ hr) (hch ▸ hk) hc, hch]
        exact chanAct_still takesDigits_onCh
    · rw [exec_segmentCaptured_send hw hs, sendSegment_of_ends hr hends]
      refine ⟨fun hc => ⟨fun hsp => ?_, fun hsp => ?_⟩, fun hc => ?_⟩
      · rw [closeSend_kept (hch ▸ hr) hc, if_pos hsp]
        exact chanAct_still takesDigits_onCh
      · rw [closeSend_kept (hch ▸ hr) hc, if_neg (by simp [hsp])]
        exact chanAct_onCh (by rw [closed_ch hc, hch]; exact hta)
      · rw [closeSend_short (hch ▸ hr) hc]
        exact chanAct_still takesDigits_onCh
    · obtain ⟨hgreet, htrim⟩ := greetSegment_of_spent hr (hspent ▸ hends)
      rw [exec_segmentCaptured_greet hw hs, hgreet, htrim]
      refine ⟨fun hc => ?_, fun hc => ?_⟩
      · rw [closeGreet_kept (hch ▸ hr) hc, if_pos rfl]
        exact chanAct_still takesDigits_onCh
      · rw [closeGreet_short (hch ▸ hr) hc]
        exact chanAct_still takesDigits_onCh
  · have htakes : (s.ch ch).state.takesDigits = true := by simp [hs, ChanState.takesDigits]
    have hkey : ∀ key, s.onKey ch key = s.recordingKey ch key := fun key => by simp only [State.onKey, hs]
    refine ⟨fun hc => ?_, fun hc => ?_, ?_⟩
    · rw [exec_digit_taken hch (by decide) hta htakes, hkey]
      simp only [State.recordingKey]
      rw [closeDeposit_kept hr hc, if_neg (by decide)]
    · rw [exec_digit_taken hch (by decide) hta htakes, hkey]
      simp only [State.recordingKey]
      rw [closeDeposit_short hr hk hc]
    · rw [exec_digit_taken hch (by decide) hta htakes, hkey]
      simp only [State.recordingKey, State.cancelDeposit, hr]
      rw [recordAgain_eq (k := k) (by rw [discardObj_ch]; exact hk), discardObj_ch]
  · have htakes : (s.ch ch).state.takesDigits = true := by simp [hs, ChanState.takesDigits]
    have hkey : ∀ key, s.onKey ch key = s.sendCaptureKey ch key := fun key => by simp only [State.onKey, hs]
    refine ⟨fun hc => ?_, fun hc => ?_, fun o ho hopen => ?_⟩
    · rw [exec_digit_taken hch (by decide) hta htakes, hkey]
      simp only [State.sendCaptureKey]
      rw [closeSend_kept hr hc, if_neg (by decide)]
    · rw [exec_digit_taken hch (by decide) hta htakes, hkey]
      simp only [State.sendCaptureKey]
      rw [closeSend_short hr hc]
    · rw [exec_digit_taken hch (by decide) hta htakes, hkey]
      simp only [State.sendCaptureKey]
      rw [dropRecording_of (.inr ⟨n, o, hr, ho, rfl⟩), if_neg (by simp [hopen]), State.promptThen,
        State.prompting, State.onCh_onCh]
  · have htakes : (s.ch ch).state.takesDigits = true := by simp [hs, ChanState.takesDigits]
    have hkey : ∀ key, s.onKey ch key = s.greetCaptureKey ch key := fun key => by simp only [State.onKey, hs]
    refine ⟨fun hc => ?_, fun hc => ?_, fun o g ho hopen hg => ?_⟩
    · rw [exec_digit_taken hch (by decide) hta htakes, hkey]
      simp only [State.greetCaptureKey]
      rw [closeGreet_kept hr hc, if_neg (by decide)]
    · rw [exec_digit_taken hch (by decide) hta htakes, hkey]
      simp only [State.greetCaptureKey]
      rw [closeGreet_short hr hc]
    · rw [exec_digit_taken hch (by decide) hta htakes, hkey]
      simp only [State.greetCaptureKey]
      rw [dropRecording_of (.inr ⟨n, o, hr, ho, rfl⟩), if_neg (by simp [hopen]),
        enterMenu_slot (k := k) (g := g) ((read_onCh (·.mailbox)).trans (by rw [discardObj_ch]; exact hk))
          ((read_onCh (·.slot)).trans (by rw [discardObj_ch]; exact hg)), State.onCh_onCh]
      have hsounds : (s.discardObj n).slotSounds k g = s.slotSounds k g := by
        simp only [State.slotSounds, State.mb_congr (discardObj_only s n).mailboxes]
      rw [onCh_read_slotSounds, hsounds]
  · have htakes : (s.ch ch).state.takesDigits = true := by simp [hs, ChanState.takesDigits]
    have hkey : ∀ key, s.onKey ch key = s.optionsKey ch key := fun key => by simp only [State.onKey, hs]
    have hi : ch < s.chans.length := s.ch_lt_of_state (by simp [hs])
    have htaken : (s.keyTaken ch).ch ch = { s.ch ch with silentRepeats := 0, digitTimer := none, sound := [] } :=
      State.ch_onCh_same s _ hi
    refine ⟨fun d urgent hd => ?_, ?_, ?_, fun key hw h0 h1 h2 h3 => ?_⟩
    · have hsent : exec (.digit ch (.num d)) s = .next ((s.keyTaken ch).sentAndClear ch urgent).settle := by
        rcases hd with ⟨rfl, rfl⟩ | ⟨rfl, rfl⟩ <;>
          rw [exec_digit_taken hch (by decide) hta htakes, hkey] <;> rfl
      rw [hsent, State.sentAndClear, sendDeposit_eq (n := n) (k := k) urgent (by rw [htaken]; exact hr)
        (by rw [htaken]; exact hk), htaken, State.keyTaken, commit_onCh, State.clearWith, State.onCh_onCh,
        State.onCh_onCh]
      rfl
    · rw [exec_digit_taken hch (by decide) hta htakes, hkey]
      simp only [State.optionsKey, htaken, hr]
      rw [recordAgain_eq (k := k) (by rw [dropRef_ch, htaken]; exact hk), dropRef_ch, htaken, State.keyTaken,
        dropRef_onCh, onMb_onCh, State.onCh_onCh]
    · rw [exec_digit_taken hch (by decide) hta htakes, hkey]
      simp only [State.optionsKey, htaken, hr]
      rw [giveBack_eq (k := k) _ (by rw [dropRef_ch, htaken]; exact hk), State.keyTaken, dropRef_onCh,
        onMb_onCh, State.clearWith, State.onCh_onCh, State.onCh_onCh]
      rfl
    · rw [exec_digit_taken hch hw hta htakes, hkey]
      unfold State.optionsKey
      split
      · exact absurd rfl h1
      · exact absurd rfl h2
      · exact absurd rfl h3
      · exact absurd rfl h0
      · rw [State.playMenu, menuSounds_of (p := .options) (by rw [hs]; rfl)]

/-- Settles O42: what the greeting held goes first, and the list, the class and the admission are as they were. -/
theorem greetingLeadsToTheTone : Obligations.GreetingLeadsToTheTone := by
  refine fun s ch k hta hk => ⟨fun u hs hu => ?_, fun hs => ⟨fun n b t h => ?_, fun h => ?_⟩⟩
  · have hdrop : s.dropPlaying ch = u := by
      rcases hu with ⟨hp, rfl⟩ | ⟨o, hp, rfl⟩
      · exact dropPlaying_none hp
      · exact dropPlaying_of (.inr ⟨o, hp, rfl⟩)
    have hchans : u.chans = (s.onCh ch fun c => { c with playing := none }).chans :=
      hdrop ▸ dropPlaying_chans
    have hread : ∀ {α : Type} (p : Channel → α), (∀ c : Channel, p { c with playing := none } = p c) →
        p (u.ch ch) = p (s.ch ch) := fun p hp => (congrArg p (State.ch_congr hchans ch)).trans (read_onCh p hp)
    have hcfg : u.cfg = s.cfg := hdrop ▸ (dropRefOpt_only s (s.ch ch).playing).cfg
    have hmb : u.mailboxes = s.mailboxes := hdrop ▸ dropPlaying_mailboxes
    have hmbx : (u.ch ch).mailbox = some k := (hread (·.mailbox) fun _ => rfl).trans hk
    have huk : u.served ch = k := served_of hmbx
    have hcls : u.cls k = s.cls k := by simp only [State.cls, State.mbCfg, hcfg]
    have hutta : (u.ch ch).typeAhead = [] := (hread (·.typeAhead) fun _ => rfl).trans hta
    have hexec : exec (.greetingEnd ch) s = chanAct (if (s.ch ch).absenceChosen && (s.cls k).absenceBlocks then
        u.clearWith ch [.notAccepting] else u.goToTone ch) ch := by
      change execGreetingEnd ch s = _
      simp only [execGreetingEnd, if_pos hs, State.greetingEnded, hdrop, huk, hcls,
        hread (·.absenceChosen) fun _ => rfl]
    refine ⟨fun habs hblock => ?_, fun hgo hin => ?_⟩
    · rw [hexec, habs, hblock]
      exact chanAct_still takesDigits_onCh
    · have hno : ¬ ((s.ch ch).absenceChosen && (s.cls k).absenceBlocks) = true := by
        rcases hgo with h | h <;> simp [h]
      have huin : u.inService k = true := by
        simpa only [State.inService, State.mbCfg, hcfg] using hin
      rw [hexec, if_neg hno, State.goToTone, huk]
      refine ⟨fun hfull => ?_, fun n b t hroom hadm => ?_⟩
      · have hno : u.hasRoom k = false := by
          rw [hasRoom_of_mb hcfg hmb, ← Bool.not_eq_true, hasRoom_iff]
          exact Nat.not_lt.2 hfull
        have hres : u.reserve k = (.full, u) := by simp [State.reserve, huin, hno]
        simp only [hres]
        exact chanAct_still takesDigits_onCh
      · have hyes : u.hasRoom k = true := by rwa [hasRoom_of_mb hcfg hmb, hasRoom_iff]
        have hres : u.reserve k = (.granted, u.onMb k fun m => { m with reserved := m.reserved + 1 }) := by
          simp [State.reserve, huin, hyes]
        simp only [hres]
        have htone := fun h => admitTone_granted (i := ch) h hadm
        rw [htone ((read_onCh (s := u.onMb k _) (·.mailbox)).trans hmbx)]
        exact chanAct_still takesDigits_onCh
  · rw [exec_recordPromptEnd_of hs, admitTone_granted hk h]
    exact chanAct_still takesDigits_onCh
  · rw [exec_recordPromptEnd_of hs, admitTone_full hk h]
    exact chanAct_still takesDigits_onCh

end Sys2Proof.Proofs

/-! PROOF. Prompts that lead on, entries presented, the end of a playback and the keys of the message menu
(R42, R56-R58, R68, R79, R86-R93, R96-R100, R183). -/

namespace Sys2Proof.Machine

section
variable {s : State} {i : Nat}

/-! ### An entry presented leaves the waiting digits (R67, R87) -/

theorem present_typeAhead (e : Entry) : ((s.present i e).ch i).typeAhead = (s.ch i).typeAhead := by
  by_cases hkind : e.kind = .notice
  · rw [present_notice hkind]
    exact read_onCh (·.typeAhead)
  · cases hadd : e.object.bind s.addRef with
    | none =>
      rw [present_refused hkind hadd]
      exact read_onCh (·.typeAhead)
    | some t =>
      obtain ⟨o, ho, ht⟩ := Option.bind_eq_some_iff.1 hadd
      rw [present_object hkind ho ht]
      exact (read_onCh (·.typeAhead)).trans (congrArg (·.typeAhead) (addRef_ch s i ht))

theorem presentNext_of_none (h : s.nextEntry i = none) : s.presentNext i = s.onCh i fun c => { c with
    current := none, currentGone := false, state := .prompting .main, sound := [.prompt .noMore]
    digitTimer := none, interDigitTimer := none } := by
  simp only [State.presentNext, h]
  rw [State.promptThen, State.prompting, State.onCh_onCh]

theorem presentNext_of_some {e : Entry} (h : s.nextEntry i = some e) : s.presentNext i = s.present i e := by
  simp only [State.presentNext, h]

theorem chanAct_presentNext (h : (s.ch i).typeAhead = []) :
    chanAct (s.presentNext i) i = .next (s.presentNext i).settle := by
  refine chanAct_nil rfl ?_
  cases hn : s.nextEntry i with
  | none =>
    rw [presentNext_of_none hn]
    exact (read_onCh (·.typeAhead)).trans h
  | some e => rw [presentNext_of_some hn, present_typeAhead, h]

/-! ### The ends of prompts (R68) -/

theorem exec_promptEnd_prompting {a : After} (h : (s.ch i).state = .prompting a) :
    exec (.promptEnd i) s = chanAct (s.goAfter i a) i := by
  change execPromptEnd i s = _
  simp only [execPromptEnd, h]

theorem exec_promptEnd_other (h1 : (s.ch i).state ≠ .sendPrompt) (h2 : (s.ch i).state ≠ .greetPrompt)
    (h3 : ∀ a, (s.ch i).state ≠ .prompting a) : exec (.promptEnd i) s =
      if 2 ≤ (s.ch i).sound.length then act (s.onCh i fun c => { c with sound := c.sound.tail })
      else if (s.ch i).contentRefused then chanAct (s.presentNext i) i else .next s := by
  change execPromptEnd i s = _
  unfold execPromptEnd
  split
  · exact absurd ‹_› h1
  · exact absurd ‹_› h2
  · exact absurd ‹_› (h3 _)
  · rfl

theorem contentRefused_iff : (s.ch i).contentRefused = true ↔ (s.ch i).state = .playing ∧
    (s.ch i).playing = none ∧ (s.ch i).sound.getLast? = some (.prompt .unavailable) := by
  simp [Channel.contentRefused, and_assoc]

/-- A channel that plays puts what it plays on the highway, part by part (R183). -/
theorem slotAudio_of_sound (h : (s.ch i).sound ≠ []) :
    s.slotAudio i = (s.ch i).sound.flatMap s.soundAudio := by
  unfold State.slotAudio
  split
  · exact absurd ‹_› h
  · rename_i e
    rw [e]

/-! ### The end of a playback (R42, R55, R89) -/

theorem exec_playbackEnd_of (hs : (s.ch i).state = .playing) (hr : ¬ (s.ch i).contentRefused = true) :
    exec (.playbackEnd i) s = chanAct ((s.endPlayback i false).enterMenu i .message) i := by
  change execPlaybackEnd i s = _
  rw [execPlaybackEnd, if_neg hr, if_pos hs]

/-- The end of a playback by its end or a key offers the message menu (R89). -/
theorem exec_playbackEnd_menu (hta : (s.ch i).typeAhead = []) (hs : (s.ch i).state = .playing)
    (hr : ¬ (s.ch i).contentRefused = true) : exec (.playbackEnd i) s =
      .next ((s.endPlayback i false).onCh i fun c => { c with
        state := .message, silentRepeats := 0, sound := [.prompt .messageMenu], digitTimer := none
        interDigitTimer := none }).settle := by
  have hkept : ((s.endPlayback i false).ch i).typeAhead = (s.ch i).typeAhead :=
    (congrArg (·.typeAhead) (State.ch_congr (endPlayback_chans false) i)).trans (read_onCh (·.typeAhead))
  rw [exec_playbackEnd_of hs hr, enterMenu_of (p := .messageMenu) rfl]
  exact chanAct_onCh (hkept.trans hta)

/-- The end of a gone entry's playback drops the reference, and that is all (R88). -/
theorem endPlayback_gone (hgone : (s.ch i).currentGone = true) : s.endPlayback i false = s.dropPlaying i := by
  have hkept : ((s.dropPlaying i).ch i).currentGone = (s.ch i).currentGone :=
    (congrArg (·.currentGone) (State.ch_congr dropPlaying_chans i)).trans (read_onCh (·.currentGone))
  simp only [State.endPlayback, hkept, hgone, Bool.or_true, Bool.true_or, if_true]

/-- An entry that is still there is reported to the Directory (R42). -/
theorem endPlayback_heard {num k : Nat} {e : Entry} (hgone : (s.ch i).currentGone = false)
    (hr : ¬ (s.ch i).contentRefused = true) (hcur : (s.ch i).current = some num)
    (hk : (s.ch i).mailbox = some k) (hl : (s.mb k).lock = some i) (he : (s.mb k).entry? num = some e) :
    s.endPlayback i false =
      if e.state = .new then (s.dropPlaying i).setEntryState k num .heard else s.dropPlaying i := by
  have hread : ∀ {α : Type} (p : Channel → α), (∀ c : Channel, p { c with playing := none } = p c) →
      p ((s.dropPlaying i).ch i) = p (s.ch i) := fun p hp =>
    (congrArg p (State.ch_congr dropPlaying_chans i)).trans (read_onCh p hp)
  have hmb : (s.dropPlaying i).mb k = s.mb k := State.mb_congr dropPlaying_mailboxes k
  have hserved : (s.dropPlaying i).served i = k := served_of ((hread (·.mailbox) fun _ => rfl).trans hk)
  simp only [State.endPlayback, hread (·.currentGone) fun _ => rfl, hread (·.current) fun _ => rfl, hgone, hr,
    hcur, hserved, Bool.or_self, Bool.false_eq_true, if_false]
  rw [State.askHeard, entryRequest_taken _ (by rw [hmb]; exact hl) (by rw [hmb]; exact he), State.reportHeard,
    hmb, he]

/-- A reported end makes a NEW entry HEARD as of today and leaves any other (R42). -/
theorem endPlayback_mb {num k : Nat} {e : Entry} (hlen : k < s.mailboxes.length)
    (hr : ¬ (s.ch i).contentRefused = true) (hcur : (s.ch i).current = some num)
    (hk : (s.ch i).mailbox = some k) (hl : (s.mb k).lock = some i) (he : (s.mb k).entry? num = some e) :
    ((s.endPlayback i false).mb k).entries =
        (if (s.ch i).currentGone = false ∧ e.state = .new then datedEntries s k num .heard
          else (s.mb k).entries) ∧
      (s.endPlayback i false).store = (s.dropPlaying i).store := by
  have hmb : (s.dropPlaying i).mb k = s.mb k := State.mb_congr dropPlaying_mailboxes k
  cases hgone : (s.ch i).currentGone with
  | true =>
    rw [endPlayback_gone hgone, hmb, if_neg (by simp)]
    exact ⟨rfl, rfl⟩
  | false =>
    rw [endPlayback_heard hgone hr hcur hk hl he]
    by_cases hnew : e.state = .new
    · rw [if_pos hnew, if_pos ⟨rfl, hnew⟩, setEntryState_mb_same _ _ _ (by rw [dropPlaying_mailboxes]; exact hlen)]
      refine ⟨?_, setEntryState_store _ _ _⟩
      simp only [datedEntries, hmb]
      have htoday : (s.dropPlaying i).today = s.today := by
        simp only [State.today]
        rw [show (s.dropPlaying i).house = s.house from (dropRefOpt_only s (s.ch i).playing).house]
      rw [htoday]
    · rw [if_neg hnew, if_neg (by simp [hnew]), hmb]
      exact ⟨rfl, rfl⟩

/-! ### Whatever state a menu's step starts in (R68, R90) -/

/-- Channel `i` in state `x`, otherwise as it stands. -/
def State.restated (s : State) (i : Nat) (x : ChanState) : State := s.onCh i fun c => { c with state := x }

section
variable (x : ChanState)

theorem keyTaken_restated : (s.restated i x).keyTaken i = (s.keyTaken i).restated i x := by
  rw [State.restated, State.restated, State.keyTaken, State.keyTaken, State.onCh_onCh, State.onCh_onCh]

theorem promptThen_restated (p : Prompt) (a : After) :
    (s.restated i x).promptThen i p a = s.promptThen i p a := by
  rw [State.promptThen, State.prompting, State.restated, State.onCh_onCh]
  rfl

theorem enterMenu_restated {st : ChanState} {p : Prompt} (h : st.menuSays = some p) :
    (s.restated i x).enterMenu i st = s.enterMenu i st := by
  rw [enterMenu_of h, enterMenu_of h, State.restated, State.onCh_onCh]

theorem served_restated : (s.restated i x).served i = s.served i := served_onCh fun _ => rfl

theorem currentEntry_restated : (s.restated i x).currentEntry i = s.currentEntry i := by
  have hgone : ((s.restated i x).ch i).currentGone = (s.ch i).currentGone := read_onCh (·.currentGone)
  have hcur : ((s.restated i x).ch i).current = (s.ch i).current := read_onCh (·.current)
  simp only [State.currentEntry, hgone, hcur, served_restated]
  rfl

theorem present_restated (e : Entry) : (s.restated i x).present i e = s.present i e := by
  by_cases hkind : e.kind = .notice
  · rw [present_notice hkind, present_notice hkind, State.restated, State.onCh_onCh]
    rfl
  · cases hadd : e.object.bind s.addRef with
    | none =>
      have hadd' : e.object.bind (s.restated i x).addRef = none := by
        cases ho : e.object with
        | none => rfl
        | some o => simpa [State.restated, ho] using hadd
      rw [present_refused hkind hadd, present_refused hkind hadd', State.restated, State.onCh_onCh]
      rfl
    | some t =>
      obtain ⟨o, ho, ht⟩ := Option.bind_eq_some_iff.1 hadd
      rw [present_object hkind ho ht, present_object (t := t.restated i x) hkind ho
        (by simp [State.restated, ht]), State.restated, State.onCh_onCh]
      rfl

theorem presentNext_restated : (s.restated i x).presentNext i = s.presentNext i := by
  have hnext : (s.restated i x).nextEntry i = s.nextEntry i := by
    have hpres : ((s.restated i x).ch i).presented = (s.ch i).presented := read_onCh (·.presented)
    rw [State.nextEntry, served_restated, hpres]
    rfl
  cases hn : s.nextEntry i with
  | none =>
    rw [presentNext_of_none hn, presentNext_of_none (hnext.trans hn), State.restated, State.onCh_onCh]
  | some e => rw [presentNext_of_some hn, presentNext_of_some (hnext.trans hn), present_restated]

theorem startSend_restated (t : SendTarget) : (s.restated i x).startSend i t = s.startSend i t := by
  have hadmit : ∀ k, (s.restated i x).admitSend k =
      ((s.admitSend k).1, (s.admitSend k).2.restated i x) := fun k => admitSend_onCh s i _ k
  rw [State.startSend, State.startSend, served_restated, hadmit]
  cases h : s.admitSend (s.served i) with
  | mk a u =>
    cases a with
    | granted n b => simp only [State.restated, State.onCh_onCh]
    | full => exact promptThen_restated x _ _
    | noRoom => exact promptThen_restated x _ _
    | noEntry => exact promptThen_restated x _ _

theorem reply_restated (e : Entry) : (s.restated i x).reply i e = s.reply i e := by
  have hswap : ((s.restated i x).onCh i fun c => { c with returnState := some .message }) =
      (s.onCh i fun c => { c with returnState := some .message }).restated i x := by
    rw [State.restated, State.restated, State.onCh_onCh, State.onCh_onCh]
  unfold State.reply
  split
  · exact promptThen_restated x _ _
  · simp only [hswap]
    have hfind : ∀ (u : State) ext, (u.restated i x).find ext = u.find ext := fun _ _ => rfl
    rw [hfind]
    split
    · exact startSend_restated x _
    · exact startSend_restated x _
    · exact promptThen_restated x _ _
    · exact promptThen_restated x _ _

theorem entryKey_restated (n : Nat) : (s.restated i x).entryKey i n = s.entryKey i n := by
  have hreq : ∀ (k num : Nat) (f : State → State), (∀ u : State, f (u.restated i x) = (f u).restated i x) →
      ((s.restated i x).entryRequest k i num f).2 = ((s.entryRequest k i num f).2).restated i x := by
    intro k num f hf
    have hmb : (s.restated i x).mb k = s.mb k := rfl
    unfold State.entryRequest
    rw [hmb]
    split
    · split
      · rfl
      · exact hf s
    · rfl
  unfold State.entryKey
  rw [currentEntry_restated, served_restated]
  dsimp only
  split
  · exact promptThen_restated x _ _
  · rename_i e _
    split
    · exact present_restated x e
    · split
      · exact promptThen_restated x _ _
      · rw [State.enterAddressing, State.enterAddressing, enterMenu_of (p := .enterExtension) rfl,
          enterMenu_of (p := .enterExtension) rfl, State.restated, State.onCh_onCh, State.onCh_onCh,
          State.onCh_onCh]
    · rw [State.askErase, hreq _ _ _ fun u => eraseMark_onCh u i _ _ _]
      exact promptThen_restated x _ _
    · exact reply_restated x e
    · rw [State.askSave, hreq _ _ _ fun u => saveEntry_onCh u i _ _ _]
      exact promptThen_restated x _ _

/-- What a key with a meaning in the message menu does, once it has been taken (R90). -/
def State.menuActs (t : State) (i : Nat) : Key → State
  | .hash => t.enterMenu i .message
  | .star => (t.onCh i fun c => { c with current := none, currentGone := false }).enterMenu i .main
  | .num n => if n = 6 then t.presentNext i else t.entryKey i n

/-- The keys with a meaning in PLAYING and MESSAGE (R90). -/
def InMenu (key : Key) : Prop := key = .hash ∨ key = .star ∨ ∃ n, key = .num n ∧ 4 ≤ n ∧ n ≤ 9

theorem menuActs_restated (key : Key) : (s.restated i x).menuActs i key = s.menuActs i key := by
  cases key with
  | hash => exact enterMenu_restated x (p := .messageMenu) rfl
  | star =>
    rw [State.menuActs, State.menuActs, enterMenu_of (p := .mainMenu) rfl, enterMenu_of (p := .mainMenu) rfl,
      State.restated, State.onCh_onCh, State.onCh_onCh, State.onCh_onCh]
  | num n => rw [State.menuActs, State.menuActs, presentNext_restated, entryKey_restated]

end

theorem messageKey_of_menu {key : Key} (h : InMenu key) :
    s.messageKey i key = (s.messageTaken i).menuActs i key := by
  rcases h with rfl | rfl | ⟨n, rfl, h4, h9⟩
  · rfl
  · rfl
  · by_cases h6 : n = 6
    · subst h6
      rfl
    · unfold State.messageKey
      split
      · rename_i e; cases e
      · rename_i e; cases e
      · rename_i e; cases e; exact absurd rfl h6
      · rename_i e; cases e; simp [h4, h9, State.menuActs, h6]

/-- The other digits have none (R90). -/
theorem messageKey_low {d : Nat} (h : d ≤ 3) : s.messageKey i (.num d) = s.noMeaning i := by
  unfold State.messageKey
  split
  · rename_i e; cases e
  · rename_i e; cases e
  · rename_i e; cases e; omega
  · rename_i e; cases e; rw [if_neg (by simp; omega)]

theorem exec_digit_menu {key : Key} (hi : i ≤ 15) (hkey : InMenu key) (hta : (s.ch i).typeAhead = [])
    (hs : (s.ch i).state = .playing ∨ (s.ch i).state = .message) :
    exec (.digit i key) s = .next ((s.messageTaken i).menuActs i key).settle := by
  have hw : wfKey key = true := by
    rcases hkey with rfl | rfl | ⟨n, rfl, -, h9⟩
    · rfl
    · rfl
    · simp [wfKey, h9]
  rw [exec_digit_taken hi hw hta (by rcases hs with hs | hs <;> simp [hs, ChanState.takesDigits]),
    ← messageKey_of_menu hkey]
  rcases hs with hs | hs <;> simp only [State.onKey, hs]

theorem slotSounds_congr {t : State} (h : t.mailboxes = s.mailboxes) (k : Nat) (g : GreetSlot) :
    t.slotSounds k g = s.slotSounds k g := by
  simp only [State.slotSounds, State.mb_congr h]

end

end Sys2Proof.Machine

namespace Sys2Proof.Proofs

open Sys2Proof Sys2Proof.Machine

/-- Settles O43: what a prompt leads to, case by case, on a channel where no digit waits. -/
theorem promptsLeadOn : Obligations.PromptsLeadOn := by
  refine fun s ch hta => ⟨fun hs => ?_, fun hs => ?_, fun a st p hs hcase => ?_, fun hs => ?_,
    fun k g hs hk hg => ?_, fun hs => ?_, fun hs hp hx hlast => ?_, fun hn => presentNext_of_none hn,
    fun e he => presentNext_of_some he, fun e play hplay => ⟨fun hkind => ?_, fun o x hkind ho hx hc =>
      ⟨fun hfull => ?_, fun hroom => ?_⟩⟩, fun x y rest hsound h1 h2 h3 => ?_, fun hs => ?_, fun hs => ?_,
    fun hs => ?_, fun n hs hr => ?_, fun hs hplays => ?_⟩
  · change execPromptEnd ch s = _
    simp only [execPromptEnd, hs]
    exact chanAct_onCh hta
  · change execPromptEnd ch s = _
    simp only [execPromptEnd, hs]
    exact chanAct_onCh hta
  · have hmenu : st.menuSays = some p ∧ s.goAfter ch a = s.enterMenu ch st := by
      rcases hcase with ⟨rfl, rfl, rfl⟩ | ⟨rfl, rfl, rfl⟩ | ⟨rfl, rfl, rfl⟩ | ⟨rfl, rfl, rfl⟩ | ⟨rfl, rfl, rfl⟩ <;>
        exact ⟨rfl, rfl⟩
    rw [exec_promptEnd_prompting hs, hmenu.2, enterMenu_of hmenu.1]
    exact chanAct_onCh hta
  · rw [exec_promptEnd_prompting hs, State.goAfter, goReturn_eq]
    exact chanAct_onCh hta
  · rw [exec_promptEnd_prompting hs, State.goAfter, enterMenu_slot hk hg]
    exact chanAct_onCh hta
  · rw [exec_promptEnd_prompting hs]
    exact chanAct_presentNext hta
  · obtain ⟨x, hsound⟩ := hx
    rw [exec_promptEnd_other (by simp [hs]) (by simp [hs]) (by simp [hs]), if_neg (by simp [hsound]),
      if_pos (contentRefused_iff.2 ⟨hs, hp, hlast⟩)]
    exact chanAct_presentNext hta
  · rw [present_notice hkind, hplay]
    rfl
  · have hadd : e.object.bind s.addRef = none := by
      rw [ho, Option.bind_some]
      exact addRef_of_full hx hfull
    rw [present_refused hkind hadd, hplay]
    rfl
  · rw [present_object hkind ho (addRef_eq hx hc hroom), hplay, State.onCh_onCh]
    rfl
  · rw [exec_promptEnd_other h1 h2 h3, if_pos (by simp [hsound])]
    rw [s.onCh_congr (g := fun c => { c with sound := y :: rest }) (by simp [hsound])]
    rfl
  · change execSummaryEnd ch s = _
    rw [execSummaryEnd, if_pos hs, enterMenu_of (p := .mainMenu) rfl]
    exact chanAct_onCh hta
  · change execTimeIsUpPromptEnd ch s = _
    simp only [execTimeIsUpPromptEnd, hs]
    rw [enterMenu_of (p := .options) rfl]
    exact chanAct_onCh hta
  · change execTimeIsUpPromptEnd ch s = _
    simp only [execTimeIsUpPromptEnd, hs]
    rw [enterMenu_of (p := .sendMenu) rfl]
    exact chanAct_onCh hta
  · change execTimeIsUpPromptEnd ch s = _
    simp only [execTimeIsUpPromptEnd, hs]
    have hreview : s.startReview ch = s.onCh ch fun c => { c with
        state := .review, silentRepeats := 0, sound := [.object n], digitTimer := none } :=
      s.onCh_congr (by simp only [hr])
    rw [hreview]
    exact chanAct_onCh hta
  · change execReviewPlaybackEnd ch s = _
    rw [execReviewPlaybackEnd, if_pos (by simp [hs, hplays]), State.playMenu,
      menuSounds_of (p := .reviewMenu) (by rw [hs]; rfl)]
    exact chanAct_onCh hta

/-- Settles O44: the report of a playback's end first; a key in PLAYING is the key in MESSAGE of the node it leaves. -/
theorem playbacksEnd : Obligations.PlaybacksEnd := by
  refine ⟨fun s ch k hta hk hlen => ⟨fun num e u hs hcur hl he hu => ?_, fun u hs hgone hu => ?_,
      fun hs hp hlast => ?_, fun n g hp hs hplays hg => ?_⟩,
    fun s ch hta hch' => ⟨fun hs => ⟨fun hp => ?_, fun key hkey => ?_⟩, fun hs d hd => ?_⟩,
    fun s u ch k say hta hk hch hsay hs hu => ?_, fun s i hi => ?_, fun s n o ho => ?_,
    fun s ch seg h1 h2 h3 => ?_⟩
  · have hr : ¬ (s.ch ch).contentRefused = true := by
      rw [contentRefused_iff]
      rintro ⟨-, hp, hlast⟩
      rcases hu with ⟨n, hn, -⟩ | ⟨-, -, -, hnot⟩
      · rw [hn] at hp
        cases hp
      · exact hnot hlast
    have hi : ch < s.chans.length := s.ch_lt_of_state (by simp [hs])
    have hstore : (s.dropPlaying ch).store = u.store := by
      rcases hu with ⟨n, hn, rfl⟩ | ⟨hn, -, rfl, -⟩
      · rw [dropPlaying_of (.inr ⟨n, hn, rfl⟩)]
        rfl
      · rw [dropPlaying_none hn]
    obtain ⟨hentries, hst⟩ := endPlayback_mb hlen hr hcur hk hl he
    have hchans := endPlayback_chans (s := s) (i := ch) false
    have hch := State.ch_onCh_same (s.endPlayback ch false) (fun c => { c with
      state := .message, silentRepeats := 0, sound := [.prompt .messageMenu], digitTimer := none
      interDigitTimer := none }) (by rw [hchans, onCh_chans_length]; exact hi)
    refine ⟨_, exec_playbackEnd_menu hta hs hr, ?_⟩
    rw [State.ch_congr (settle_chans _), State.mb_congr (settle_mailboxes _), settle_store, hch,
      State.ch_congr hchans, State.ch_onCh_same s _ hi]
    refine ⟨rfl, rfl, hcur, rfl, hentries, hst.trans hstore, fun j hj => ?_⟩
    rw [State.ch_congr (settle_chans _), State.ch_onCh_ne _ _ hj, State.ch_congr hchans, State.ch_onCh_ne _ _ hj]
  · have hr : ¬ (s.ch ch).contentRefused = true := by
      rw [contentRefused_iff]
      rintro ⟨-, hp, hlast⟩
      rcases hu with ⟨n, hn, -⟩ | ⟨-, -, hnot⟩
      · rw [hn] at hp
        cases hp
      · exact hnot hlast
    have hdrop : s.PlayingDropped ch u := by
      rcases hu with ⟨n, hn, hu⟩ | ⟨hn, hu, -⟩
      · exact .inr ⟨n, hn, hu⟩
      · exact .inl ⟨hn, hu⟩
    rw [exec_playbackEnd_menu hta hs hr, endPlayback_gone hgone, dropPlaying_of hdrop, State.onCh_onCh]
  · change execPlaybackEnd ch s = _
    rw [execPlaybackEnd, if_pos (contentRefused_iff.2 ⟨hs, hp, hlast⟩)]
    exact chanAct_presentNext hta
  · change execSlotPlaybackEnd ch s = _
    have hdrop : s.dropPlaying ch = (s.dropRef n).onCh ch fun c => { c with playing := none } :=
      dropPlaying_of (.inr ⟨n, hp, rfl⟩)
    rw [execSlotPlaybackEnd, if_pos (by simp [hs, hplays]), hdrop,
      enterMenu_slot (k := k) (g := g) ((read_onCh (·.mailbox)).trans (by rw [dropRef_ch]; exact hk))
        ((read_onCh (·.slot)).trans (by rw [dropRef_ch]; exact hg)), onCh_read_slotSounds,
      slotSounds_congr (dropRef_only s n).mailboxes, State.onCh_onCh]
    rw [chanAct_onCh (by rw [dropRef_ch]; exact hta)]
    refine congrArg (fun t : State => Host.Outcome.next t.settle) (State.onCh_congr _ ?_)
    rw [dropRef_ch]
    simp only [hs]
  · have hr : ¬ (s.ch ch).contentRefused = true := by
      rw [contentRefused_iff]
      rintro ⟨-, hn, hlast⟩
      rcases hp with hp | hp
      · rw [hn] at hp
        cases hp
      · exact hp hlast
    exact exec_playbackEnd_menu hta hs hr
  · have hi : ch < s.chans.length := s.ch_lt_of_state (by simp [hs])
    have hchans := endPlayback_chans (s := s) (i := ch) false
    have hch : ((s.endPlayback ch false).restated ch .message).ch ch =
        { s.ch ch with playing := none, state := .message } := by
      rw [State.restated, State.ch_onCh_same _ _ (by rw [hchans, onCh_chans_length]; exact hi),
        State.ch_congr hchans, State.ch_onCh_same s _ hi]
    have htaken : s.messageTaken ch = (s.endPlayback ch false).keyTaken ch := by
      simp only [State.messageTaken, if_pos hs]
    have htaken' : ((s.endPlayback ch false).restated ch .message).messageTaken ch =
        ((s.endPlayback ch false).restated ch .message).keyTaken ch := by
      simp [State.messageTaken, hch]
    refine (exec_digit_menu hch' hkey hta (.inl hs)).trans (Eq.trans ?_
      (exec_digit_menu (s := (s.endPlayback ch false).restated ch .message) hch' hkey (by rw [hch]; exact hta)
        (.inr (by rw [hch]))).symm)
    rw [htaken, htaken', keyTaken_restated, menuActs_restated]
  · have htakes : (s.ch ch).state.takesDigits = true := by
      rcases hs with hs | hs <;> simp [hs, ChanState.takesDigits]
    have hkey : s.onKey ch (.num d) = s.messageKey ch (.num d) := by
      rcases hs with hs | hs <;> simp only [State.onKey, hs]
    rw [exec_digit_taken hch' (by simp [wfKey]; omega) hta htakes, hkey, messageKey_low hd]
    rfl
  · have hu' : s.messageTaken ch = u := by simp [State.messageTaken, hs, hu, State.keyTaken]
    have hexec : ∀ {key : Key}, InMenu key → exec (.digit ch key) s = .next (u.menuActs ch key).settle :=
      fun hkey => hu' ▸ exec_digit_menu hch hkey hta (.inr hs)
    have hnum : ∀ n, 4 ≤ n → n ≤ 9 → n ≠ 6 →
        exec (.digit ch (.num n)) s = .next (u.entryKey ch n).settle := fun n h4 h9 h6 => by
      rw [hexec (.inr (.inr ⟨n, rfl, h4, h9⟩)), State.menuActs, if_neg h6]
    have huk : u.served ch = k := by
      rw [hu]
      exact (served_onCh (s := s)).trans (served_of hk)
    refine ⟨?_, ?_, ?_, fun hgone d hd => ?_, fun num e hcur hgone he => ?_⟩
    · rw [hexec (.inl rfl), State.menuActs, enterMenu_of (p := .messageMenu) rfl, hu, State.onCh_onCh,
        State.onCh_onCh]
      refine congrArg (fun t : State => Host.Outcome.next t.settle) (s.onCh_congr ?_)
      simp only [hs]
    · rw [hexec (.inr (.inl rfl)), State.menuActs, enterMenu_of (p := .mainMenu) rfl, hu, State.onCh_onCh,
        State.onCh_onCh, State.onCh_onCh]
    · exact hexec (.inr (.inr ⟨6, rfl, by decide, by decide⟩))
    · have hcurrent : u.currentEntry ch = none := by
        have hg : (u.ch ch).currentGone = true := hu ▸ (read_onCh (·.currentGone)).trans hgone
        simp only [State.currentEntry, hg, if_true]
      rw [hnum d (by omega) (by omega) (by omega), hsay]
      simp only [State.entryKey, hcurrent]
      rfl
    · have hcurrent : u.currentEntry ch = some e := by
        rw [hu]
        exact currentEntry_of ((read_onCh (·.mailbox)).trans hk) ((read_onCh (·.current)).trans hcur)
          ((read_onCh (·.currentGone)).trans hgone) he
      refine ⟨?_, fun hkind => ?_, fun hkind => ?_, fun horig => ?_, fun ext v horig hv => ?_⟩
      · rw [hnum 4 (by decide) (by decide) (by decide)]
        simp only [State.entryKey, hcurrent]
      · rw [hnum 5 (by decide) (by decide) (by decide), hsay]
        simp only [State.entryKey, hcurrent, if_pos hkind]
        rfl
      · rw [hnum 5 (by decide) (by decide) (by decide)]
        simp only [State.entryKey, hcurrent, if_neg hkind]
        rw [State.enterAddressing, enterMenu_of (p := .enterExtension) rfl, hu, State.onCh_onCh,
          State.onCh_onCh, State.onCh_onCh]
      · rw [hnum 8 (by decide) (by decide) (by decide), hsay]
        simp only [State.entryKey, hcurrent, State.reply, horig]
        rfl
      · have hreply : exec (.digit ch (.num 8)) s = .next (u.reply ch e).settle := by
          rw [hnum 8 (by decide) (by decide) (by decide)]
          simp only [State.entryKey, hcurrent]
        have hfind : v.find ext = s.find ext := by rw [hv, hu]; rfl
        rw [hreply]
        refine ⟨fun t hf => ?_, fun hf => ?_, fun p hp => ?_⟩
        · simp only [State.reply, horig, ← hv, hfind, hf]
        · simp only [State.reply, horig, ← hv, hfind, hf]
        · rw [hsay]
          rcases hp with ⟨⟨t, hf⟩, rfl⟩ | ⟨hf, rfl⟩ <;> simp only [State.reply, horig, ← hv, hfind, hf] <;> rfl
  · refine ⟨fun hnil => ?_, fun hne => ?_⟩
    · rw [State.highway_slot _ (by omega)]
      simp only [State.slotAudio, hnil]
    · rw [State.highway_slot _ (by omega), slotAudio_of_sound hne]
      refine congrArg (fun g : Sound → List SlotAudio => some ((s.ch i).sound.flatMap g)) (funext fun x => ?_)
      cases x <;> rfl
  · refine ⟨by simp [State.objectAudio_of _ ho], fun j b hj hb => ?_⟩
    simp [State.objectAudio_of _ ho, hj, State.segmentOf, hb, audioAddr]
  · change execSegmentCaptured ch seg s = _
    unfold execSegmentCaptured
    split
    · rfl
    · split
      · exact absurd ‹_› h1
      · exact absurd ‹_› h2
      · exact absurd ‹_› h3
      · rfl

end Sys2Proof.Proofs

/-! PROOF. The Lamp Unit: tellings, dispatches, results and timeouts, scan steps and LINE_RESET (06 Message Lamps;
R184, R186). -/

namespace Sys2Proof.Machine

/-! ### A dispatch (R107, R116) -/

section
variable {s : State}

theorem lampsRun_iff : s.lampsRun = true ↔ s.mode = .serving ∨ s.mode = .draining := by
  simp [State.lampsRun]

theorem isOut_iff {l : LampUnit} {ext : Nat} : l.isOut ext = true ↔ ∃ p ∈ l.outstanding, p.1.ext = ext := by
  simp [LampUnit.isOut]

theorem isQueued_iff {l : LampUnit} {ext : Nat} : l.isQueued ext = true ↔ ∃ c ∈ l.queue, c.ext = ext := by
  simp [LampUnit.isQueued]

/-- A dispatch that cannot send, or finds no command eligible, sends nothing. -/
theorem lampDispatch_of_none (h : s.lampsRun = false ∨ 4 ≤ s.lamp.outstanding.length ∨
    ∀ q ∈ s.lamp.queue, s.lamp.isOut q.ext = true) : s.lampDispatch = s := by
  have hturn : s.lampDispatch1 = s := by
    rcases h with h | h | h
    · simp [State.lampDispatch1, h]
    · exact lampDispatch1_full s h
    · have hnone : (s.lamp.queue.find? fun c => !s.lamp.isOut c.ext) = none := by
        simpa using h
      unfold State.lampDispatch1
      rw [hnone]
      split <;> rfl
  simp only [State.lampDispatch, hturn]

/-- The node after a LAMP record for command `c`, taken out of a queue that leaves `q` (R107). -/
def State.lampSent (s : State) (q : List LampCmd) (c : LampCmd) : State :=
  { s with
    lamp := { s.lamp with queue := q, outstanding := s.lamp.outstanding ++ [(c, some 2000)] }
    lineOut := s.lineOut ++ [.lamp c.ext c.on] }

/-- A dispatch sends the first eligible command in queue order and goes on. -/
theorem lampDispatch_of_first {a b : List LampCmd} {c : LampCmd} (hrun : s.lampsRun = true)
    (hfew : s.lamp.outstanding.length < 4) (hq : s.lamp.queue = a ++ c :: b)
    (ha : ∀ q ∈ a, s.lamp.isOut q.ext = true) (hc : s.lamp.isOut c.ext = false) :
    s.lampDispatch = (s.lampSent (a ++ b) c).lampDispatch := by
  have hfirst : (s.lamp.queue.find? fun c => !s.lamp.isOut c.ext) = some c :=
    List.find?_eq_some_iff_append.2 ⟨by simp [hc], a, b, hq, fun q hqa => by simp [ha q hqa]⟩
  have hnot : c ∉ a := fun hmem => by
    rw [ha c hmem] at hc
    cases hc
  have herase : s.lamp.queue.erase c = a ++ b := by
    rw [hq, List.erase_append_right _ hnot, List.erase_cons_head]
  have hturn : s.lampDispatch1 = s.lampSent (a ++ b) c := by
    unfold State.lampDispatch1
    rw [hfirst, if_pos (by simp [hrun, hfew, Config.lampOutstandingMax])]
    simp only [State.onLamp, State.send, herase]
    rfl
  rw [lampDispatch_turn, hturn]

/-! ### The lamp queue (R106) -/

/-- The mailbox of a command wants it no longer for its flag. -/
def State.lampJoined (s : State) (c : LampCmd) : State :=
  (s.onLamp fun l => { l with queue := l.queue ++ [c] }).onLampRec c.mailbox fun r => { r with flag := false }

theorem queueLamp_joins {c : LampCmd} (hq : ∀ q ∈ s.lamp.queue, q.ext ≠ c.ext)
    (hroom : s.lamp.queue.length < 32) : s.queueLamp c = some (s.lampJoined c).lampDispatch := by
  have hno : ¬ s.lamp.isQueued c.ext = true := by
    rw [isQueued_iff]
    rintro ⟨q, hmem, he⟩
    exact hq q hmem he
  rw [State.queueLamp, if_neg hno, if_pos (show s.lamp.queue.length < Config.lampQueueMax from hroom)]
  rfl

theorem queueLamp_full {c : LampCmd} (hq : ∀ q ∈ s.lamp.queue, q.ext ≠ c.ext)
    (hfull : s.lamp.queue.length = 32) : s.queueLamp c = none := by
  have hno : ¬ s.lamp.isQueued c.ext = true := by
    rw [isQueued_iff]
    rintro ⟨q, hmem, he⟩
    exact hq q hmem he
  rw [State.queueLamp, if_neg hno, if_neg (by rw [hfull]; decide)]

/-- A command that joins an idle queue, with room and none outstanding for its extension, is sent (R107). -/
theorem lampJoined_dispatch {c : LampCmd} (hrun : s.lampsRun = true) (hq : s.lamp.queue = [])
    (hfew : s.lamp.outstanding.length < 4) (hc : ∀ p ∈ s.lamp.outstanding, p.1.ext ≠ c.ext) :
    (s.lampJoined c).lampDispatch = { s with
      lamp := { s.lamp with
        recs := s.lamp.recs.modify c.mailbox fun r => { r with flag := false }
        outstanding := s.lamp.outstanding ++ [(c, some 2000)] }
      lineOut := s.lineOut ++ [.lamp c.ext c.on] } := by
  have hno : s.lamp.isOut c.ext = false := by
    rw [← Bool.not_eq_true, isOut_iff]
    rintro ⟨p, hmem, he⟩
    exact hc p hmem he
  rw [lampDispatch_of_first (s := s.lampJoined c) (a := []) (b := []) (c := c) hrun hfew
    (by simp [State.lampJoined, State.onLamp, State.onLampRec, hq]) (by simp) hno, lampDispatch_of_empty _ rfl]
  simp only [State.lampSent, State.lampJoined, State.onLamp, State.onLampRec, List.nil_append]
  rw [← hq]

theorem offerLamp_of_some {c : LampCmd} {t : State} (h : s.queueLamp c = some t) : s.offerLamp c = t := by
  simp only [State.offerLamp, h]

theorem offerLamp_of_none {c : LampCmd} (h : s.queueLamp c = none) :
    s.offerLamp c = s.setScanFlag c.mailbox := by
  simp only [State.offerLamp, h]

/-! ### The fault count (R110) -/

theorem faults_modify {l : List LampRec} (k : Nat) (r : Reported) (h : ∀ x ∈ l, x.reported ≠ .fault) :
    ((l.modify k fun x => { x with reported := r }).filter fun x => x.reported == .fault).length =
      if r = .fault ∧ k < l.length then 1 else 0 := by
  have hnone : ∀ l : List LampRec, (∀ x ∈ l, x.reported ≠ .fault) →
      (l.filter fun x => x.reported == .fault) = [] := fun l hl =>
    List.filter_eq_nil_iff.2 fun x hx => by simpa using hl x hx
  induction l generalizing k with
  | nil => simp
  | cons x l ih =>
    have hl : ∀ y ∈ l, y.reported ≠ .fault := fun y hy => h y (List.mem_cons_of_mem x hy)
    cases k with
    | zero => by_cases hr : r = .fault <;> simp [hr, hnone l hl]
    | succ k => simp [h x, ih k hl]

theorem setReported_eq (k : Nat) (r : Reported) : s.setReported k r =
    if s.lamp.faultCount = 0 ∧ r = .fault ∧ k < s.lamp.recs.length then
      (s.onLampRec k fun x => { x with reported := r }).latch .lampFaults
    else s.onLampRec k fun x => { x with reported := r } := by
  have hcount : s.lamp.faultCount = 0 → ((s.onLampRec k fun x => { x with reported := r }).lamp.faultCount = 1 ↔
      r = .fault ∧ k < s.lamp.recs.length) := fun h => by
    have hnone : ∀ x ∈ s.lamp.recs, x.reported ≠ .fault := by
      simpa [LampUnit.faultCount, List.filter_eq_nil_iff] using h
    have hmod := faults_modify k r hnone
    have hread : (s.onLampRec k fun x => { x with reported := r }).lamp.faultCount =
      if r = .fault ∧ k < s.lamp.recs.length then 1 else 0 := hmod
    rw [hread]
    split <;> simp_all
  by_cases h0 : s.lamp.faultCount = 0
  · simp only [State.setReported, h0, hcount h0, Bool.and_eq_true, decide_eq_true_eq, true_and]
  · simp [State.setReported, h0]

/-! ### Results and timeouts (R108, R109) -/

theorem isOut_of_outFor {ext : Nat} {c : LampCmd} (h : s.lamp.outFor ext = some c) : s.lamp.isOut ext = true := by
  obtain ⟨p, hp, -⟩ := Option.map_eq_some_iff.1 h
  exact isOut_iff.2 ⟨p, List.mem_of_find?_eq_some hp, by simpa using List.find?_some hp⟩

theorem isOut_of_outFor_none {ext : Nat} (h : s.lamp.outFor ext = none) : s.lamp.isOut ext = false := by
  rw [← Bool.not_eq_true, isOut_iff]
  rintro ⟨p, hp, he⟩
  have hnone := List.find?_eq_none.1 (Option.map_eq_none_iff.1 h) p hp
  simp [he] at hnone

theorem exec_lampResultTimeout_of {ext : Nat} {c : LampCmd} (h : s.lamp.outFor ext = some c)
    (hm : s.mode ≠ .halted) : exec (.lampResultTimeout ext) s = .next (s.lampTimeout ext).settle := by
  change execLampResultTimeout ext s = _
  simp [execLampResultTimeout, hm, isOut_of_outFor h, act]

/-- A flag that begins no pass is set, and that is all (R106, R113). -/
theorem setScanFlag_still {k : Nat} (h : s.lamp.scanRunning = true ∨ s.cfg.scanContinuous = true ∨
    k < s.cfg.scanStart ∨ s.cfg.scanEnd < k ∨ (s.mode ≠ .serving ∧ s.mode ≠ .draining)) :
    s.setScanFlag k = s.onLampRec k fun r => { r with flag := true } := by
  refine if_neg ?_
  simp only [State.inScanRange, Bool.and_eq_true, Bool.not_eq_true', decide_eq_true_eq, lampsRun_iff]
  rintro ⟨⟨⟨hrun, hcont⟩, hlow, hhigh⟩, hscan⟩
  rcases h with h | h | h | h | ⟨h1, h2⟩
  · rw [h] at hscan; cases hscan
  · rw [h] at hcont; cases hcont
  · omega
  · omega
  · exact hrun.elim h1 h2

/-- In NORMAL mode the flag of a mailbox in the range begins a pass where none runs. -/
theorem setScanFlag_begins {k : Nat} (hscan : s.lamp.scanRunning = false) (hcont : s.cfg.scanContinuous = false)
    (hlow : s.cfg.scanStart ≤ k) (hhigh : k ≤ s.cfg.scanEnd) (hrun : s.lampsRun = true) :
    s.setScanFlag k = (s.onLampRec k fun r => { r with flag := true }).beginScan := by
  refine if_pos ?_
  simp [State.inScanRange, hscan, hcont, hlow, hhigh, hrun]

/-- A first attempt that times out on a full queue sets the scan flag (R109). -/
theorem exec_timeout_full {ext : Nat} {c : LampCmd} (hc : s.lamp.outFor ext = some c) (hm : s.mode ≠ .halted)
    (h1 : c.attempt = 1) (hext : c.ext = ext) (hq : ∀ q ∈ s.lamp.queue, q.ext ≠ ext)
    (hfull : s.lamp.queue.length = 32) : exec (.lampResultTimeout ext) s =
      .next ((s.finishLamp ext).setScanFlag c.mailbox).lampDispatch.settle := by
  have hqueued : ¬ (s.finishLamp ext).lamp.isQueued ext = true := by
    rw [isQueued_iff]
    rintro ⟨q, hmem, he⟩
    exact hq q hmem he
  rw [exec_lampResultTimeout_of hc hm]
  simp only [State.lampTimeout, hc, if_pos h1, hqueued]
  rw [offerLamp_of_none (queueLamp_full (s := s.finishLamp ext) (fun q hmem => hext ▸ hq q hmem) hfull)]
  rfl

/-! ### A scan step (R112-R114) -/

theorem exec_scanStep_of (hm : s.mode = .serving ∨ s.mode = .draining) (hrun : s.lamp.scanRunning = true)
    (ht : s.lamp.scanTimer.isSome = true) : exec .scanStepTimerExpiry s = .next s.scanStep.settle := by
  change execScanStepTimerExpiry s = _
  simp [execScanStepTimerExpiry, lampsRun_iff.2 hm, hrun, ht, act]

theorem wantsLamp_iff {k : Nat} : s.wantsLamp k = true ↔
    (s.lampRec k).reported ≠ (if (s.lampRec k).desired = true then .on else .off) ∨
      (s.lampRec k).flag = true ∨ s.cfg.refreshAll = true := by
  simp [State.wantsLamp, or_assoc]

/-- An unusable record and a mailbox that wants no command are passed. -/
theorem scanStep_passed (h : (s.mbCfg s.lamp.scanPos).usable = false ∨
    ((s.lampRec s.lamp.scanPos).reported = (if (s.lampRec s.lamp.scanPos).desired = true then .on else .off) ∧
      (s.lampRec s.lamp.scanPos).flag = false ∧ s.cfg.refreshAll = false)) : s.scanStep = s.scanAdvance := by
  rcases h with hu | ⟨hrep, hflag, hall⟩
  · simp [State.scanStep, hu]
  · have hno : s.wantsLamp s.lamp.scanPos = false := by
      rw [← Bool.not_eq_true, wantsLamp_iff]
      simp [← hrep, hflag, hall]
    cases hu : (s.mbCfg s.lamp.scanPos).usable <;> simp [State.scanStep, hu, hno]

/-- The command of the mailbox the scan examines (R112). -/
def State.scanCmd (s : State) (k : Nat) : LampCmd := ⟨(s.mbCfg k).extension, k, (s.lampRec k).desired, 1⟩

theorem scanStep_wanted {k : Nat} (hk : s.lamp.scanPos = k) (hu : (s.mbCfg k).usable = true)
    (hwant : (s.lampRec k).reported ≠ (if (s.lampRec k).desired = true then .on else .off) ∨
      (s.lampRec k).flag = true ∨ s.cfg.refreshAll = true) :
    s.scanStep = match s.queueLamp (s.scanCmd k) with
      | some t => t.scanAdvance
      | none => s.onLamp fun l => { l with scanTimer := some 200 } := by
  simp only [State.scanStep, hk, hu, wantsLamp_iff.2 hwant, Bool.not_true, Bool.false_eq_true, if_false]
  rfl

theorem scanStep_sent {k : Nat} (hm : s.mode = .serving ∨ s.mode = .draining) (hk : s.lamp.scanPos = k)
    (hu : (s.mbCfg k).usable = true)
    (hwant : (s.lampRec k).reported ≠ (if (s.lampRec k).desired = true then .on else .off) ∨
      (s.lampRec k).flag = true ∨ s.cfg.refreshAll = true)
    (hq : s.lamp.queue = []) (hout : s.lamp.outstanding = []) :
    s.scanStep = ({ s with
      lamp := { s.lamp with
        recs := s.lamp.recs.modify k fun r => { r with flag := false }
        outstanding := [(s.scanCmd k, some 2000)] }
      lineOut := s.lineOut ++ [.lamp (s.mbCfg k).extension (s.lampRec k).desired] } : State).scanAdvance := by
  rw [scanStep_wanted hk hu hwant, queueLamp_joins (by simp [hq]) (by simp [hq])]
  dsimp only
  rw [lampJoined_dispatch (lampsRun_iff.2 hm) hq (by simp [hout]) (by simp [hout]), hout]
  rfl

theorem scanStep_held {k : Nat} (hk : s.lamp.scanPos = k) (hu : (s.mbCfg k).usable = true)
    (hwant : (s.lampRec k).reported ≠ (if (s.lampRec k).desired = true then .on else .off) ∨
      (s.lampRec k).flag = true ∨ s.cfg.refreshAll = true)
    (hfull : s.lamp.queue.length = 32) (hq : ∀ q ∈ s.lamp.queue, q.ext ≠ (s.mbCfg k).extension) :
    s.scanStep = { s with lamp := { s.lamp with scanTimer := some 200 } } := by
  rw [scanStep_wanted hk hu hwant, queueLamp_full hq hfull]
  rfl

theorem scanAdvance_next (h : s.lamp.scanPos < s.cfg.scanEnd) : s.scanAdvance =
    { s with lamp := { s.lamp with scanPos := s.lamp.scanPos + 1, scanTimer := some 200 } } := if_pos h

/-- A mailbox of the scan range is flagged (R114). -/
def State.FlagInRange (s : State) : Prop :=
  ∃ j r, s.cfg.scanStart ≤ j ∧ j ≤ s.cfg.scanEnd ∧ s.lamp.recs[j]? = some r ∧ r.flag = true

theorem flagInRange_iff : ((List.range s.lamp.recs.length).any fun k => s.inScanRange k && (s.lampRec k).flag) =
    true ↔ s.FlagInRange := by
  simp only [List.any_eq_true, List.mem_range, State.inScanRange, Bool.and_eq_true, decide_eq_true_eq,
    State.FlagInRange, State.lampRec]
  constructor
  · rintro ⟨j, hj, ⟨hlow, hhigh⟩, hflag⟩
    rw [List.getElem?_eq_getElem hj] at hflag
    exact ⟨j, _, hlow, hhigh, List.getElem?_eq_getElem hj, hflag⟩
  · rintro ⟨j, r, hlow, hhigh, hr, hflag⟩
    obtain ⟨hj, rfl⟩ := List.getElem?_eq_some_iff.1 hr
    exact ⟨j, hj, ⟨hlow, hhigh⟩, by rw [hr]; exact hflag⟩

theorem scanAdvance_again (hend : s.cfg.scanEnd ≤ s.lamp.scanPos)
    (h : s.cfg.scanContinuous = true ∨ s.FlagInRange) : s.scanAdvance = s.beginScan := by
  rw [State.scanAdvance, if_neg (Nat.not_lt.2 hend), if_pos]
  rw [Bool.or_eq_true, flagInRange_iff]
  exact h

theorem scanAdvance_ends (hend : s.cfg.scanEnd ≤ s.lamp.scanPos) (hcont : s.cfg.scanContinuous = false)
    (h : ¬ s.FlagInRange) : s.scanAdvance =
      { s with lamp := { s.lamp with scanRunning := false, scanTimer := none } } := by
  rw [State.scanAdvance, if_neg (Nat.not_lt.2 hend), if_neg]
  · rfl
  · rw [Bool.or_eq_true, flagInRange_iff, hcont]
    exact fun hn => hn.elim (by simp) h

end

end Sys2Proof.Machine

namespace Sys2Proof.Proofs

open Sys2Proof Sys2Proof.Machine

/-- Settles O24: a changed desired state is one command, which joins the idle queue and is sent. -/
theorem lampFollowsTheNewCount : Obligations.LampFollowsTheNewCount := by
  refine fun s k want hwant => ⟨fun hl => if_pos hl, fun hd => ?_, fun hl hd hm hq hfew hout => ?_⟩
  · have hsame : s.desiredOf k = (s.lampRec k).desired := (hwant.symm.trans hd.symm : s.desiredOf k = _)
    rw [State.tellLamp, if_pos hsame, ite_self]
  · have hwant' : s.desiredOf k = want := hwant.symm
    have hrun : s.lampsRun = true := lampsRun_iff.2 (.inl hm)
    rw [State.tellLamp, if_neg (by simp [hl]), hwant', if_neg (fun h => hd h.symm),
      offerLamp_of_some (queueLamp_joins (s := s.onLampRec k _) (by simp [State.onLampRec, State.onLamp, hq])
        (by simp [State.onLampRec, State.onLamp, hq])),
      lampJoined_dispatch (s := s.onLampRec k _) (c := ⟨(s.mbCfg k).extension, k, want, 1⟩) hrun hq hfew hout]
    simp only [State.onLampRec, State.onLamp, modify_modify]

/-- Settles O45: a finished command frees its place, and each dispatch is its first command and a dispatch more. -/
theorem lampCommandsEnd : Obligations.LampCommandsEnd := by
  refine ⟨fun s ext r hlow hhigh hm => ⟨fun c hc hlen => ?_, fun hnone => ?_⟩,
    fun s t ext c hc hm ht => ⟨fun h1 hext => ⟨fun hq => ?_, fun hq hroom => ?_, fun hq hfull =>
      ⟨fun hno => ?_, fun hrun hcont hlow hhigh hmode => ?_⟩⟩, fun h2 => ?_⟩,
    fun s => ⟨fun h => ?_, fun a c b hm hfew hq ha hc => ?_⟩⟩
  · have hw := (wfExtension_iff ext).2 ⟨hlow, hhigh⟩
    refine ⟨_, ?_, rfl⟩
    have hexec : exec (.lampResult ext r) s = .next (s.lampResult ext r).settle := by
      change execLampResult ext r s = _
      simp [execLampResult, hw, hm, isOut_of_outFor hc, act]
    rw [hexec]
    simp only [State.lampResult, hc]
    rw [setReported_eq]
    have hcount : (s.finishLamp ext).lamp.faultCount = s.lamp.faultCount := rfl
    have hrecs : (s.finishLamp ext).lamp.recs.length = s.lamp.recs.length := rfl
    cases r with
    | ok =>
      rw [if_neg (by simp only [LampCmd.reported]; split <;> simp), if_neg (by simp)]
      rfl
    | noLamp =>
      simp only [hcount, hrecs, hlen, ne_eq, reduceCtorEq, not_false_eq_true, and_true, if_false]
      rfl
    | lineDown =>
      simp only [hcount, hrecs, hlen, ne_eq, reduceCtorEq, not_false_eq_true, and_true, if_false]
      rfl
  · change execLampResult ext r s = _
    simp [execLampResult, (wfExtension_iff ext).2 ⟨hlow, hhigh⟩, isOut_of_outFor_none hnone, Machine.discard]
  · have hqueued : (s.finishLamp ext).lamp.isQueued ext = true := isQueued_iff.2 hq
    rw [exec_lampResultTimeout_of hc hm]
    simp only [State.lampTimeout, hc, if_pos h1, hqueued, if_true, ht]
    rfl
  · have hqueued : ¬ (s.finishLamp ext).lamp.isQueued ext = true := by
      rw [isQueued_iff]
      rintro ⟨q, hmem, he⟩
      exact hq q hmem he
    rw [exec_lampResultTimeout_of hc hm]
    simp only [State.lampTimeout, hc, if_pos h1, hqueued]
    rw [offerLamp_of_some (queueLamp_joins (s := s.finishLamp ext) (fun q hmem => hext ▸ hq q hmem) hroom), ht]
    simp only [Bool.false_eq_true, if_false]
    rw [lampDispatch_twice]
    rfl
  · rw [exec_timeout_full hc hm h1 hext hq hfull, setScanFlag_still (s := s.finishLamp ext) hno, ht]
    rfl
  · have hlamps := lampsRun_iff.2 hmode
    rw [exec_timeout_full hc hm h1 hext hq hfull, setScanFlag_begins (s := s.finishLamp ext) hrun hcont hlow hhigh hlamps, ht]
    rfl
  · rw [exec_lampResultTimeout_of hc hm]
    simp only [State.lampTimeout, hc, if_neg (show ¬ c.attempt = 1 by omega)]
    rw [setReported_eq, if_neg (by simp), ht]
    rfl
  · refine lampDispatch_of_none ?_
    rcases h with ⟨h1, h2⟩ | h | h
    · refine .inl ?_
      rw [← Bool.not_eq_true, lampsRun_iff]
      exact fun h => h.elim h1 h2
    · exact .inr (.inl h)
    · exact .inr (.inr fun q hq => isOut_iff.2 (h q hq))
  · refine lampDispatch_of_first (lampsRun_iff.2 hm) hfew hq (fun q hqa => isOut_iff.2 (ha q hqa)) ?_
    rw [← Bool.not_eq_true, isOut_iff]
    rintro ⟨p, hp, he⟩
    exact hc p hp he

/-- Settles O46: the examination changes the lamp table and what is sent, and then the scan advances. -/
theorem scanStepExaminesOneMailbox : Obligations.ScanStepExaminesOneMailbox := by
  refine fun s k hm hrun ht hk => ⟨fun l out hexam => ?_, fun hu hwant hfull hq => ?_⟩
  · have hstep : s.scanStep = ({ s with lamp := l, lineOut := s.lineOut ++ out } : State).scanAdvance := by
      rcases hexam with ⟨hno, rfl, rfl⟩ | ⟨hu, hwant, hq, hout, rfl, rfl⟩
      · rw [scanStep_passed (hk ▸ hno), List.append_nil]
      · rw [scanStep_sent hm hk hu hwant hq hout]
        rfl
    have hpos : l.scanPos = k := by
      rcases hexam with ⟨-, rfl, -⟩ | ⟨-, -, -, -, rfl, -⟩ <;> exact hk
    rw [exec_scanStep_of hm hrun ht, hstep]
    refine ⟨fun hlt => ?_, fun hle hagain => ?_, fun hle hcont hnone => ?_⟩
    · rw [scanAdvance_next (s := { s with lamp := l, lineOut := s.lineOut ++ out }) (hpos ▸ hlt)]
      simp only [hpos]
    · rw [scanAdvance_again (s := { s with lamp := l, lineOut := s.lineOut ++ out }) (hpos ▸ hle) hagain]
      rfl
    · rw [scanAdvance_ends (s := { s with lamp := l, lineOut := s.lineOut ++ out }) (hpos ▸ hle) hcont]
      rintro ⟨j, r, hlow, hhigh, hr, hflag⟩
      rw [hnone j r hlow hhigh hr] at hflag
      cases hflag
  · rw [exec_scanStep_of hm hrun ht, scanStep_held hk hu hwant hfull hq]

end Sys2Proof.Proofs

/-! PROOF. LINE_RESET: the Lamp Unit's act and its dispatch, and the release of every busy channel
(R115, R184, R186). -/

namespace Sys2Proof.Machine

/-! ### What a dispatch keeps (R107) -/

section
variable {s : State}

theorem lampDispatch1_turn : s.lampDispatch1 = s ∨ ∃ c ∈ s.lamp.queue,
    s.lampDispatch1 = s.lampSent (s.lamp.queue.erase c) c := by
  unfold State.lampDispatch1
  split
  · split
    · exact .inl rfl
    · rename_i c hc
      exact .inr ⟨c, List.mem_of_find?_eq_some hc, rfl⟩
  · exact .inl rfl

/-- What each command sent keeps, a dispatch keeps. -/
theorem lampDispatch_keeps {P : State → Prop}
    (h : ∀ (t : State) c, c ∈ t.lamp.queue → P t → P (t.lampSent (t.lamp.queue.erase c) c)) (hs : P s) :
    P s.lampDispatch := by
  have hturn : ∀ t, P t → P t.lampDispatch1 := fun t ht => by
    rcases lampDispatch1_turn (s := t) with e | ⟨c, hc, e⟩
    · rwa [e]
    · rw [e]
      exact h t c hc ht
  exact hturn _ (hturn _ (hturn _ (hturn _ hs)))

/-- Of the Lamp Unit, a dispatch moves commands from the queue to the outstanding ones. -/
structure LampMoved (s t : State) : Prop where
  recs : t.lamp.recs = s.lamp.recs
  queue : t.lamp.queue.Sublist s.lamp.queue
  commands : (t.lamp.queue ++ t.lamp.outstanding.map (·.1)).Perm
    (s.lamp.queue ++ s.lamp.outstanding.map (·.1))
  scanPos : t.lamp.scanPos = s.lamp.scanPos
  scanRunning : t.lamp.scanRunning = s.lamp.scanRunning
  scanTimer : t.lamp.scanTimer = s.lamp.scanTimer
  chans : t.chans = s.chans

theorem lampDispatch_moves : LampMoved s s.lampDispatch := by
  refine lampDispatch_keeps (fun t c hc ht => ?_) ⟨rfl, List.Sublist.refl _, List.Perm.refl _, rfl, rfl, rfl, rfl⟩
  refine ⟨ht.recs, List.erase_sublist.trans ht.queue, ?_, ht.scanPos, ht.scanRunning, ht.scanTimer, ht.chans⟩
  refine List.Perm.trans ?_ ht.commands
  have hmoved : (t.lampSent (t.lamp.queue.erase c) c).lamp.outstanding.map (·.1) =
      t.lamp.outstanding.map (·.1) ++ [c] := by simp [State.lampSent]
  rw [hmoved]
  change (t.lamp.queue.erase c ++ (t.lamp.outstanding.map (·.1) ++ [c])).Perm _
  rw [← List.append_assoc]
  refine (List.perm_append_singleton c _).trans ?_
  exact (List.perm_cons_erase hc).symm.append_right _

end

/-! ### Reported states after a release (R184) -/

/-- No lamp is reported ON, OFF or faulty. -/
def State.AllUnknown (s : State) : Prop := ∀ r ∈ s.lamp.recs, r.reported = .unknown

section
variable {s : State} {i : Nat}

theorem State.AllUnknown.of_recs {t : State} (h : s.AllUnknown) (hl : t.lamp.recs = s.lamp.recs) :
    t.AllUnknown := by
  rw [State.AllUnknown, hl]
  exact h

theorem State.AllUnknown.of_lamp {t : State} (h : s.AllUnknown) (hl : t.lamp = s.lamp) : t.AllUnknown :=
  h.of_recs (congrArg LampUnit.recs hl)

theorem State.AllUnknown.onLampRec {k : Nat} {f : LampRec → LampRec} (h : s.AllUnknown)
    (hf : ∀ r, (f r).reported = r.reported := by exact fun _ => rfl) : (s.onLampRec k f).AllUnknown := fun r hr => by
  rcases mem_modify (show r ∈ s.lamp.recs.modify k f from hr) with hr | ⟨x, hx, rfl⟩
  · exact h r hr
  · rw [hf]
    exact h x (List.mem_of_getElem? hx)

theorem State.AllUnknown.lampDispatch (h : s.AllUnknown) : s.lampDispatch.AllUnknown := by
  rw [State.AllUnknown, lampDispatch_moves.recs]
  exact h

theorem State.AllUnknown.offerLamp (h : s.AllUnknown) (c : LampCmd) : (s.offerLamp c).AllUnknown := by
  unfold State.offerLamp State.queueLamp
  split
  · rename_i t ht
    split at ht
    · cases ht
      exact AllUnknown.lampDispatch (AllUnknown.onLampRec h)
    · split at ht
      · cases ht
        exact AllUnknown.lampDispatch (AllUnknown.onLampRec h)
      · cases ht
  · unfold State.setScanFlag
    dsimp only
    split
    · exact AllUnknown.onLampRec h
    · exact AllUnknown.onLampRec h

theorem State.AllUnknown.tellLamp (h : s.AllUnknown) (k : Nat) : (s.tellLamp k).AllUnknown := by
  unfold State.tellLamp
  split
  · exact h
  · split
    · exact h
    · exact AllUnknown.offerLamp (AllUnknown.onLampRec h) _

theorem State.AllUnknown.removeEntry (h : s.AllUnknown) (k num : Nat) : (s.removeEntry k num).AllUnknown := by
  have hquiet : (s.removeQuiet k num).AllUnknown := by
    unfold State.removeQuiet
    split
    · exact h
    · exact h.of_lamp (dropRefOpt_only _ _).lamp
  unfold State.removeEntry State.tellIfChanged
  split
  · exact hquiet
  · exact hquiet.tellLamp k

theorem State.AllUnknown.commit (h : s.AllUnknown) (k : Nat) (e : Entry) (reserved : Bool) (grant : Nat) :
    (s.commit k e reserved grant).AllUnknown := by
  unfold State.commit
  split
  · exact h
  · dsimp only
    refine AllUnknown.tellLamp ?_ k
    exact AllUnknown.of_lamp (s := s) h rfl

theorem State.AllUnknown.removeEach (h : s.AllUnknown) (k : Nat) (l : List Nat) :
    (l.foldl (fun t n => t.removeEntry k n) s).AllUnknown := by
  induction l generalizing s with
  | nil => exact h
  | cons n l ih => exact ih (h.removeEntry k n)

theorem State.AllUnknown.sessionEnd (h : s.AllUnknown) (k j : Nat) : (s.sessionEnd k j).AllUnknown := by
  unfold State.sessionEnd
  split
  · refine AllUnknown.tellLamp (AllUnknown.of_lamp ?_ rfl) k
    exact AllUnknown.removeEach h k _
  · exact h

theorem append_lamp {n : Nat} {seg : Segment} {u : State} (h : s.append n seg = some u) : u.lamp = s.lamp := by
  unfold State.append at h
  split at h
  · cases h
  · rename_i o ho
    split at h
    · split at h
      · cases h
      · split at h
        · cases h
        · cases h
          simp
    · split at h
      · cases h
      · cases h
        simp [onObj_of_obj? s _ ho]

theorem State.AllUnknown.letGo (h : s.AllUnknown) (n : Nat) : (s.letGo n).AllUnknown := by
  unfold State.letGo
  split
  · exact h
  · split
    · exact h.of_lamp (dropRef_only s n).lamp
    · exact h.of_lamp (discardObj_only s n).lamp

theorem State.AllUnknown.dropPlaying (h : s.AllUnknown) : (s.dropPlaying i).AllUnknown :=
  h.of_lamp (dropRefOpt_only s _).lamp

theorem State.AllUnknown.dropRecording (h : s.AllUnknown) : (s.dropRecording i).AllUnknown := by
  unfold State.dropRecording
  split
  · exact h.of_lamp rfl
  · exact (h.letGo _).of_lamp rfl

theorem State.AllUnknown.toIdle (h : s.AllUnknown) : (s.toIdle i).AllUnknown :=
  (AllUnknown.dropRecording (AllUnknown.dropPlaying h)).of_lamp rfl

theorem State.AllUnknown.sendDeposit (h : s.AllUnknown) (urgent : Bool) : (s.sendDeposit i urgent).AllUnknown := by
  unfold State.sendDeposit
  dsimp only
  split
  · exact h
  · refine AllUnknown.of_lamp (s := s.commit _ _ _ _) ?_ rfl
    exact State.AllUnknown.commit h _ _ _ _

theorem State.AllUnknown.leaveTone (h : s.AllUnknown) : (s.leaveTone i).AllUnknown := by
  unfold State.leaveTone
  split
  · exact h.of_lamp rfl
  · exact h.of_lamp (discardObj_only s _).lamp

theorem State.AllUnknown.padAndSend (h : s.AllUnknown) (g : Option Segment) : (s.padAndSend i g).AllUnknown := by
  unfold State.padAndSend
  split
  · exact h
  · rename_i n hn
    dsimp only
    have happended : ((g.bind (s.append n)).getD s).AllUnknown := by
      cases hg : g.bind (s.append n) with
      | none => exact h
      | some u =>
        obtain ⟨seg, -, hu⟩ := Option.bind_eq_some_iff.1 hg
        exact h.of_lamp (append_lamp hu)
    generalize (g.bind (s.append n)).getD s = u at happended ⊢
    have hclosed := happended.of_lamp (closeObj_only u n (u.silentTail n) 1).lamp
    split <;> rename_i e <;> rw [e] at hclosed
    · exact hclosed.of_lamp rfl
    · exact AllUnknown.sendDeposit hclosed _

theorem State.AllUnknown.depositEnd (h : s.AllUnknown) (g : Option Segment) : (s.depositEnd i g).AllUnknown := by
  unfold State.depositEnd
  split
  · exact h.dropPlaying
  · exact h.leaveTone
  · exact h.padAndSend g
  · exact h.sendDeposit _
  · exact h.sendDeposit _
  · exact h.of_lamp rfl
  · exact h

/-- A release leaves every lamp UNKNOWN where it finds it so. -/
theorem State.AllUnknown.releaseChannel (h : s.AllUnknown) (g : Option Segment) : (s.releaseChannel i g).AllUnknown := by
  unfold State.releaseChannel
  split
  · exact h
  · exact h.toIdle
  · exact h.toIdle
  · exact h.toIdle
  · split
    · exact AllUnknown.toIdle (h.depositEnd g)
    · have hplay : (if (s.ch i).state = .playing then s.endPlayback i true else s.dropPlaying i).AllUnknown := by
        have hend : s.endPlayback i true = s.dropPlaying i := by simp [State.endPlayback]
        rw [hend, ite_self]
        exact h.dropPlaying
      have hgiven := AllUnknown.dropRecording (i := i) hplay
      refine AllUnknown.toIdle (AllUnknown.sessionEnd ?_ _ _)
      exact AllUnknown.of_lamp hgiven rfl

theorem faultCount_of_allUnknown (h : s.AllUnknown) : s.lamp.faultCount = 0 := by
  rw [LampUnit.faultCount, List.filter_eq_nil_iff.2 fun r hr => by simp [h r hr]]
  rfl

/-! ### Every channel released (R186) -/

theorem releaseChannel_of_idle (g : Option Segment) (h : (s.ch i).state = .idle) : s.releaseChannel i g = s := by
  simp only [State.releaseChannel, h]

/-- A release makes its channel IDLE, unless it was so, and keeps the others. -/
theorem releaseChannel_chans (g : Option Segment) : OthersKept s i (s.releaseChannel i g) ∧
    (s.releaseChannel i g).ch i = if (s.ch i).state = .idle then s.ch i else Channel.idle := by
  by_cases h : (s.ch i).state = .idle
  · rw [releaseChannel_of_idle g h, if_pos h]
    exact ⟨.refl, rfl⟩
  · obtain ⟨t, hkept, ht⟩ := releaseChannel_eq g h
    rw [ht, if_neg h]
    exact ⟨hkept.toIdle, toIdle_ch (hkept.1.symm ▸ s.ch_lt_of_state h)⟩

/-- The channels below `n` released in ascending number. -/
def State.released (s : State) (g : Nat → Option Segment) (n : Nat) : State :=
  (List.range n).foldl (fun t i => t.releaseChannel i (g i)) s

theorem released_succ (g : Nat → Option Segment) (n : Nat) :
    s.released g (n + 1) = (s.released g n).releaseChannel n (g n) := by
  simp [State.released, List.range_succ]

theorem released_chans (g : Nat → Option Segment) (n : Nat) :
    (s.released g n).chans.length = s.chans.length ∧ ∀ j, (s.released g n).ch j =
      if j < n ∧ (s.ch j).state ≠ .idle then Channel.idle else s.ch j := by
  induction n with
  | zero => exact ⟨rfl, fun j => by rw [if_neg (by omega)]; rfl⟩
  | succ n ih =>
    obtain ⟨hlen, hch⟩ := ih
    obtain ⟨hkept, hdone⟩ := releaseChannel_chans (s := s.released g n) (i := n) (g n)
    rw [released_succ]
    refine ⟨hkept.1.trans hlen, fun j => ?_⟩
    by_cases hj : j = n
    · subst hj
      have hbefore : (s.released g j).ch j = s.ch j := by rw [hch, if_neg (by simp)]
      rw [hdone, hbefore]
      by_cases hidle : (s.ch j).state = .idle <;> simp [hidle]
    · rw [hkept.2 j hj, hch j]
      by_cases hidle : (s.ch j).state = .idle
      · simp [hidle]
      · have : j < n ↔ j < n + 1 := by omega
        simp only [this]

theorem released_allUnknown (h : s.AllUnknown) (g : Nat → Option Segment) (n : Nat) :
    (s.released g n).AllUnknown := by
  induction n with
  | zero => exact h
  | succ n ih =>
    rw [released_succ]
    exact ih.releaseChannel (g n)

/-- The Lamp Unit's reset (R115). -/
def LampUnit.lineReset (l : LampUnit) : LampUnit :=
  { l with recs := l.recs.map fun r => { r with reported := .unknown }, outstanding := [] }

theorem exec_lineReset_of {g : List (Nat × Segment)} (hg : ∀ p ∈ g, p.1 ≤ 15 ∧ wfSegment p.2 = true)
    (hm : s.mode ≠ .halted) : exec (.lineReset g) s = .next (if s.lampsRun then
      ((s.onLamp LampUnit.lineReset).beginScan.lampDispatch.released (gatheredFor g) 16).settle
      else (s.onLamp LampUnit.lineReset).settle) := by
  have hw : (g.all fun p => wfChannel p.1 && wfSegment p.2) = true := by
    rw [List.all_eq_true]
    intro p hp
    rw [Bool.and_eq_true, wfChannel_iff]
    exact hg p hp
  change execLineReset g s = _
  rw [execLineReset, if_neg (by simp [hm, hw]), State.lampLineReset]
  by_cases hrun : s.lampsRun = true
  · simp only [if_pos hrun]
    rfl
  · simp only [if_neg hrun]
    rfl

theorem settle_recs : s.settle.lamp.recs = s.lamp.recs := by
  have hwriter : s.beginWrite.lamp.recs = s.lamp.recs := by rw [beginWrite_lamp]
  rcases settle_parts s with ⟨e, -⟩ | ⟨-, e⟩ <;> rw [e, nextMoment_eq] <;> exact hwriter

theorem allUnknown_lineReset : (s.onLamp LampUnit.lineReset).AllUnknown := by
  intro r hr
  obtain ⟨x, -, rfl⟩ := List.mem_map.1 hr
  rfl

end

end Sys2Proof.Machine

namespace Sys2Proof.Proofs

open Sys2Proof Sys2Proof.Machine

/-- Settles O47: no release makes a lamp known, and each makes its own channel IDLE. -/
theorem lineResetClearsLampsAndChannels : Obligations.LineResetClearsLampsAndChannels := by
  refine fun s g hg => ⟨fun hm => ?_, fun hm => ⟨⟨_, rfl, ?_⟩, fun i x hi hx hs => exec_release_of s hi hx hs, ?_⟩,
    fun hm => ?_⟩
  · have hrun : ¬ s.lampsRun = true := by
      rw [lampsRun_iff]
      rcases hm with hm | hm <;> simp [hm]
    rw [exec_lineReset_of hg (by rcases hm with hm | hm <;> simp [hm]), if_neg hrun]
    rfl
  · have hmoved := lampDispatch_moves (s := (s.onLamp LampUnit.lineReset).beginScan)
    refine ⟨hmoved.recs, hmoved.queue, ?_, hmoved.scanPos, hmoved.scanRunning, hmoved.scanTimer, hmoved.chans, ?_⟩
    · exact hmoved.commands.trans (by simp [State.beginScan, State.onLamp, LampUnit.lineReset])
    · rw [exec_lineReset_of hg (by rcases hm with hm | hm <;> simp [hm]), if_pos (lampsRun_iff.2 hm)]
      rfl
  · refine ⟨_, (exec_lineReset_of hg (by rcases hm with hm | hm <;> simp [hm])), ?_⟩
    rw [if_pos (lampsRun_iff.2 hm)]
    generalize hu : (s.onLamp LampUnit.lineReset).beginScan.lampDispatch = u
    have hu0 : u.AllUnknown := hu ▸ State.AllUnknown.lampDispatch (State.AllUnknown.of_recs
      (s := s.onLamp LampUnit.lineReset) allUnknown_lineReset rfl)
    have hchans : u.chans = s.chans := hu ▸ lampDispatch_moves.chans
    have hknown : (u.released (gatheredFor g) 16).settle.AllUnknown := by
      rw [State.AllUnknown, settle_recs]
      exact released_allUnknown hu0 _ 16
    obtain ⟨hlen, hch⟩ := released_chans (s := u) (gatheredFor g) 16
    refine ⟨hknown, faultCount_of_allUnknown hknown, fun h16 => ⟨fun c hc => ?_, fun i hi => ?_⟩⟩
    · rw [settle_chans] at hc
      obtain ⟨j, hj, rfl⟩ := List.getElem_of_mem hc
      have hread : (u.released (gatheredFor g) 16).ch j = (u.released (gatheredFor g) 16).chans[j] := by
        simp [State.ch, hj]
      rw [hlen, hchans, h16] at hj
      rw [← hread, hch]
      by_cases hidle : (u.ch j).state = .idle
      · rw [if_neg (by simp [hidle]), hidle]
      · rw [if_pos ⟨hj, hidle⟩]
        rfl
    · have hi16 : i < 16 := h16 ▸ s.ch_lt_of_state hi
      rw [State.ch_congr (settle_chans _), hch, if_pos ⟨hi16, by rw [State.ch_congr hchans]; exact hi⟩]
  · change execLineReset g s = _
    rw [execLineReset, if_pos (by simp [hm])]
    rfl

end Sys2Proof.Proofs

/-! PROOF. Alarms and status, the port's check, the campus clock and the daily pass (R22, R160-R165, R170,
R185, R187, R188, R191). -/

namespace Sys2Proof.Machine

/-! ### What the end of an act leaves -/

section
variable (s : State)

theorem settle_lineOut : s.settle.lineOut = s.lineOut := by
  rcases settle_parts s with ⟨e, -⟩ | ⟨-, e⟩ <;> rw [e, nextMoment_eq] <;> exact beginWrite_lineOut s

theorem settle_alarms : s.settle.alarms = s.alarms := by
  rcases settle_parts s with ⟨e, -⟩ | ⟨-, e⟩ <;> rw [e, nextMoment_eq] <;> exact beginWrite_alarms s

theorem settle_discarded : s.settle.discarded = s.discarded := by
  rcases settle_parts s with ⟨e, -⟩ | ⟨-, e⟩ <;> rw [e, nextMoment_eq] <;> exact beginWrite_discarded s

theorem settle_house : s.settle.house = s.house := by
  rcases settle_parts s with ⟨e, -⟩ | ⟨-, e⟩ <;> rw [e, nextMoment_eq] <;> exact beginWrite_house s

end

/-! ### Alarms (R187, R188) -/

theorem mem_joinAlarm (a b : Alarm) (l : List Alarm) : b ∈ joinAlarm a l ↔ b = a ∨ b ∈ l := by
  rw [(joinAlarm_perm a l).mem_iff, List.mem_cons]

theorem mem_alarmAll (a : Alarm) : a ∈ Alarm.all := by cases a <;> decide

/-- The lowest of a set: none for an empty one, and else a kind of the set that no other lies below. -/
theorem lowestAlarm_eq_none_iff (l : List Alarm) : lowestAlarm l = none ↔ l = [] := by
  rw [lowestAlarm, List.find?_eq_none, List.eq_nil_iff_forall_not_mem]
  exact ⟨fun h a ha => h a (mem_alarmAll a) (by simpa using ha), fun h a _ => by simpa using h a⟩

theorem lowestAlarm_spec {l : List Alarm} {a : Alarm} (h : lowestAlarm l = some a) :
    a ∈ l ∧ ∀ b ∈ l, a.number ≤ b.number := by
  obtain ⟨ha, front, back, hall, hfront⟩ := List.find?_eq_some_iff_append.1 h
  refine ⟨by simpa using ha, fun b hb => ?_⟩
  have hsorted : Alarm.all.Pairwise fun x y => x.number ≤ y.number := by decide
  rw [hall] at hsorted
  have hmem : b ∈ front ++ a :: back := hall ▸ mem_alarmAll b
  rcases List.mem_append.1 hmem with hf | hf
  · exact absurd hb (by simpa using hfront b hf)
  · rcases List.mem_cons.1 hf with rfl | hf
    · exact Nat.le_refl _
    · exact (List.pairwise_cons.1 (List.pairwise_append.1 hsorted).2.1).1 b hf

/-- Reporting a kind takes it out of the set and changes nothing else (R188). -/
theorem dropAlarm_fields (s : State) (a : Option Alarm) :
    (∀ b, b ∈ (s.dropAlarm a).alarms ↔ b ∈ s.alarms ∧ a ≠ some b) ∧ (s.dropAlarm a).lineOut = s.lineOut ∧
      (s.dropAlarm a).discarded = s.discarded ∧ (s.dropAlarm a).store = s.store ∧
      (s.dropAlarm a).mailboxes = s.mailboxes ∧ (s.dropAlarm a).chans = s.chans := by
  cases a with
  | none => exact ⟨fun b => by simp [State.dropAlarm], rfl, rfl, rfl, rfl, rfl⟩
  | some a =>
    refine ⟨fun b => ?_, rfl, rfl, rfl, rfl, rfl⟩
    simp only [State.dropAlarm, State.setAlarms, List.mem_filter, decide_eq_true_eq, ne_eq, Option.some.injEq]
    exact and_congr_right fun _ => not_congr eq_comm

/-! ### The port's check (R184, R185, R191) -/

theorem decodeCall_call {ch : Nat} {p : List Byte} {c : Instr} (h : decodeCall ch p = some c) :
    ∃ ext r internal ids, c = .call ch ext r internal ids := by
  unfold decodeCall at h
  dsimp only at h
  split at h
  · obtain ⟨r, -, rfl⟩ := Option.map_eq_some_iff.1 h
    exact ⟨_, _, _, _, rfl⟩
  · cases h

/-- What the port decodes is one of the ten records, which act as their commands (12.2, log 28). -/
theorem recordPassed_of_decoded {r : RawRecord} {c : Instr} (h : decodeRecord r = some c) (s : State) :
    recordPassed c s = exec c s := by
  unfold decodeRecord at h
  dsimp only at h
  split at h
  · cases h
  · split at h
    · split at h
      · obtain ⟨ext, r, internal, ids, rfl⟩ := decodeCall_call h
        rfl
      · cases h
    · split at h <;> cases h
      rfl
    · split at h
      · obtain ⟨key, -, rfl⟩ := Option.map_eq_some_iff.1 h
        rfl
      · cases h
    · split at h <;> cases h
      rfl
    · split at h <;> cases h
      rfl
    · split at h
      · obtain ⟨result, -, rfl⟩ := Option.map_eq_some_iff.1 h
        rfl
      · cases h
    · split at h <;> cases h
      rfl
    · split at h <;> cases h
      rfl
    · split at h <;> cases h
      rfl
    · split at h <;> cases h
      rfl
    · cases h

/-! ### The check of the daily pass (R162-R165) -/

section
variable {s : State}

theorem passDue_iff {day minute : Nat} (hc : s.house.clock = some (day, minute)) : s.passDue = true ↔
    s.mode = .serving ∧ s.house.sched = .idle ∧
      (s.house.lastPassDay = none ∨ ∃ l, s.house.lastPassDay = some l ∧ l < day) ∧
      s.cfg.passHour * 60 ≤ minute := by
  unfold State.passDue
  rw [hc]
  cases hl : s.house.lastPassDay <;> simp [and_assoc]

theorem causes_any (c : Causes) : c.any = false ↔ c = ⟨false, false, false⟩ := by
  obtain ⟨a, b, d⟩ := c
  cases a <;> cases b <;> cases d <;> decide

/-- The causes as they stand, field by field (R163). -/
theorem causes_eq {c : Causes} (h1 : c.channels = decide (s.cfg.chanThreshold < s.busyCount))
    (h2 : c.inbound = (s.deliv.inSlots.any fun x => x.state != .free))
    (h3 : c.index = decide (256 < s.dirtyCount)) : s.causes = c := by
  obtain ⟨a, b, d⟩ := c
  exact Causes.mk.injEq .. |>.mpr ⟨h1.symm, h2.symm, h3.symm⟩

/-- The schedule of a pass that begins at `day` and `minute` (R165). -/
def Housekeeping.begun (h : Housekeeping) (day minute : Nat) : Housekeeping :=
  { h with
    passDay := day, passTime := day * 1440 + minute, lastPassDay := some day
    postponements := 0, postponeTimer := none, passPos := 0, sched := .running }

theorem beginPass_eq {day minute : Nat} (hc : s.house.clock = some (day, minute)) :
    s.beginPass = { s with house := s.house.begun day minute } := by
  simp only [State.beginPass, hc]
  rfl

theorem attempt_begins {day minute : Nat} (hc : s.house.clock = some (day, minute))
    (hn : s.causes = ⟨false, false, false⟩) :
    s.attempt = { s with house := s.house.begun day minute } := by
  rw [State.attempt, if_pos (by rw [hn]; rfl), beginPass_eq hc]

theorem attempt_postponed (hn : s.causes ≠ ⟨false, false, false⟩) (hp : s.house.postponements < 6) :
    s.attempt = { s with house := { s.house with
      postponements := s.house.postponements + 1, lastCauses := s.causes
      postponeTimer := some 600000, sched := .waiting } } := by
  have hany : s.causes.any = true := by
    rw [← Bool.not_eq_false, causes_any]
    exact hn
  rw [State.attempt, if_neg (by simp [hany]), if_pos (show s.house.postponements < Config.maxPostponements from hp)]
  rfl

/-- A change of the housekeeping block and a latch go by in either order. -/
theorem onHouse_latch (f : Housekeeping → Housekeeping) (a : Alarm) :
    (s.latch a).onHouse f = (s.onHouse f).latch a := by
  by_cases h : a ∈ s.alarms
  · rw [State.latch, State.latch, if_pos h, if_pos (show a ∈ (s.onHouse f).alarms from h)]
  · rw [State.latch, State.latch, if_neg h, if_neg (show a ∉ (s.onHouse f).alarms from h)]
    rfl

theorem attempt_forced {day minute : Nat} (hc : s.house.clock = some (day, minute))
    (hn : s.causes ≠ ⟨false, false, false⟩) (hp : 6 ≤ s.house.postponements) :
    s.attempt = ({ s with house := { s.house.begun day minute with lastCauses := s.causes } } : State).latch
      .housekeepingForced := by
  have hany : s.causes.any = true := by
    rw [← Bool.not_eq_false, causes_any]
    exact hn
  have hclock : ((s.onHouse fun h => { h with lastCauses := s.causes }).latch .housekeepingForced).house.clock =
      some (day, minute) := by
    rw [latch_house]
    exact hc
  rw [State.attempt, if_neg (by simp [hany]), if_neg (show ¬ s.house.postponements < Config.maxPostponements from
    Nat.not_lt.2 hp), State.forcePass, State.beginPass, hclock]
  dsimp only
  rw [onHouse_latch]
  rfl

/-! ### The clock (R160-R162) -/

theorem exec_time_of {day minute : Nat} (hd : day ≤ 65535) (hm : minute ≤ 1439) (hh : s.mode ≠ .halted) :
    exec (.time day minute) s = .next ((s.setClock day minute).endWait day).checkPass.settle := by
  change execTime day minute s = _
  have hok : timeOk day minute = true := by simp [timeOk]; omega
  rw [execTime, if_neg (by simp [hok]), if_neg]
  · rfl
  · have hlow : ¬ Config.minutesPerDay ≤ minute := by
      rw [Config.minutesPerDay]
      omega
    simp [hh, hlow]

theorem exec_time_discarded {day minute : Nat} (hd : day ≤ 65535) (hm : minute ≤ 65535)
    (h : 1439 < minute ∨ s.mode = .halted) : exec (.time day minute) s = .next s := by
  change execTime day minute s = _
  have hok : timeOk day minute = true := by simp [timeOk]; omega
  rw [execTime, if_neg (by simp [hok]), if_pos]
  · rfl
  · rcases h with h | h
    · have hhigh : Config.minutesPerDay ≤ minute := h
      simp [hhigh]
    · simp [h]

theorem endWait_still {day : Nat} (h : s.house.sched ≠ .waiting ∨ s.house.lastPassDay = none ∨
    ∃ l, s.house.lastPassDay = some l ∧ l < day) : s.endWait day = s := by
  unfold State.endWait
  split
  · rename_i l hs hl
    rcases h with h | h | ⟨l', hl', hlt⟩
    · exact absurd hs h
    · rw [h] at hl
      cases hl
    · rw [hl'] at hl
      cases hl
      exact if_neg (Nat.not_le.2 hlt)
  · rfl

theorem endWait_ends {day l : Nat} (hs : s.house.sched = .waiting) (hl : s.house.lastPassDay = some l)
    (h : day ≤ l) : s.endWait day = { s with house := { s.house with
      sched := .idle, postponements := 0, postponeTimer := none } } := by
  unfold State.endWait
  split
  · rename_i l' _ hl'
    rw [hl] at hl'
    cases hl'
    exact if_pos h
  · rename_i hno
    exact (hno l hs hl).elim

theorem endWait_clock (day : Nat) : (s.endWait day).house.clock = s.house.clock ∧
    (s.endWait day).house.minuteTimer = s.house.minuteTimer := by
  unfold State.endWait
  split
  · split <;> exact ⟨rfl, rfl⟩
  · exact ⟨rfl, rfl⟩

theorem checkPass_of_not_due (h : s.passDue = false) : s.checkPass = s := by simp [State.checkPass, h]

/-- The check never touches the clock. -/
theorem checkPass_clock : s.checkPass.house.clock = s.house.clock ∧
    s.checkPass.house.minuteTimer = s.house.minuteTimer := by
  cases hdue : s.passDue with
  | false => rw [checkPass_of_not_due hdue]; exact ⟨rfl, rfl⟩
  | true =>
    rw [State.checkPass, if_pos hdue]
    cases hc : s.house.clock with
    | none => simp [State.passDue, hc] at hdue
    | some x =>
      obtain ⟨d, m⟩ := x
      by_cases hn : s.causes = ⟨false, false, false⟩
      · rw [attempt_begins hc hn]
        exact ⟨hc, rfl⟩
      · rcases Nat.lt_or_ge s.house.postponements 6 with hp | hp
        · rw [attempt_postponed hn hp]
          exact ⟨hc, rfl⟩
        · rw [attempt_forced hc hn hp, latch_house]
          exact ⟨hc, rfl⟩

theorem clockAtEnd_iff {d m : Nat} : clockAtEnd d m = true ↔ 1439 ≤ m ∧ 65535 ≤ d := by
  rw [clockAtEnd, Bool.and_eq_true, decide_eq_true_eq, decide_eq_true_eq, Config.minutesPerDay, Config.lastDay]
  omega

/-- The minute timer advances the set clock, and the pass is checked unless the clock stands at its end. -/
theorem exec_minute_of {d m : Nat} (hc : s.house.clock = some (d, m)) (ht : s.house.minuteTimer.isSome = true) :
    exec .minuteTimerExpiry s = .next (if 1439 ≤ m ∧ 65535 ≤ d then s.advanceClock d m
      else (s.advanceClock d m).checkPass).settle := by
  obtain ⟨x, hx⟩ := Option.isSome_iff_exists.1 ht
  change execMinuteTimerExpiry s = _
  simp only [execMinuteTimerExpiry, hc, hx, clockAtEnd_iff]
  split <;> rfl

/-- The advance but at the end of the clock's range. -/
theorem advanceClock_next {d m day minute : Nat}
    (h : (m < 1439 ∧ day = d ∧ minute = m + 1) ∨ (m = 1439 ∧ d < 65535 ∧ day = d + 1 ∧ minute = 0)) :
    s.advanceClock d m = s.setClock day minute := by
  rcases h with ⟨hm, rfl, rfl⟩ | ⟨rfl, hd, rfl, rfl⟩
  · exact if_pos (show m + 1 < 1440 by omega)
  · rw [State.advanceClock, if_neg (by decide), if_pos (show d < Config.lastDay from hd)]

theorem advanceClock_end {d m : Nat} (hm : m = 1439) (hd : d = 65535) : s.advanceClock d m =
    s.onHouse fun h => { h with minuteTimer := none } := by
  subst hm hd
  rw [State.advanceClock, if_neg (by decide), if_neg (by decide)]

end

end Sys2Proof.Machine

namespace Sys2Proof.Proofs

open Sys2Proof Sys2Proof.Machine

/-- Settles O48: the reply reads the state, and the kind it reports is the least of the set. -/
theorem alarmsLatchAndAreReported : Obligations.AlarmsLatchAndAreReported := by
  refine ⟨fun s => ⟨s.statusReply, _, rfl, ?_⟩, fun s a => ⟨fun h => if_pos h, fun h => ?_, ?_, rfl⟩⟩
  · have hfields := dropAlarm_fields (s.send (.statusReply s.statusReply)) (lowestAlarm s.alarms)
    obtain ⟨hmem, hline, hdisc, hstore, hmbs, hchans⟩ := hfields
    refine ⟨(settle_lineOut _).trans hline, rfl, rfl, rfl, rfl, rfl, rfl, rfl, lowestAlarm_eq_none_iff _,
      fun a ha => lowestAlarm_spec ha, fun b => ?_, (settle_discarded _).trans hdisc,
      settle_store.trans hstore, (settle_mailboxes _).trans hmbs, (settle_chans _).trans hchans⟩
    rw [settle_alarms]
    exact hmem b
  · refine ⟨joinAlarm a s.alarms, if_neg h, fun b => mem_joinAlarm a b s.alarms⟩
  · exact storeLow_iff s

/-- Settles O49: what the port decodes is a record of the switch. -/
theorem portCountsWhatItDiscards : Obligations.PortCountsWhatItDiscards := by
  refine fun s r => ⟨fun h => ?_, fun c h => ?_⟩
  · change execRecordDiscarded r s = _
    rw [execRecordDiscarded, h]
    rfl
  · change execRecordDiscarded r s = _
    rw [execRecordDiscarded, h]
    exact recordPassed_of_decoded h s

/-- Settles O50: the clock and its timer are set before the check, which leaves them alone. -/
theorem clockIsSetAndAdvances : Obligations.ClockIsSetAndAdvances := by
  refine ⟨fun s day minute hd hm => ⟨fun hh hns hw hmin => ?_, fun hh hmin => ?_, exec_time_discarded hd hm⟩,
    fun s => ⟨fun d m x hc ht hm hd => ?_, fun hc => ?_⟩,
    fun s u day minute hu => ⟨fun hd hm hh => ⟨fun l hw hl hle => ?_, fun hno => ?_⟩, fun d m hc ht hnext => ?_⟩,
    fun s g hs => ?_, fun s day minute c h1 h2 h3 => ⟨fun hm hi hc hl hp => ?_, fun hno => ?_⟩⟩
  · rw [exec_time_of hd hmin hh, endWait_still (s := s.setClock day minute) (.inl hw),
      checkPass_of_not_due (by simp [State.passDue, State.setClock, State.onHouse, hns])]
    rfl
  · refine ⟨_, exec_time_of hd hmin hh, ?_⟩
    rw [settle_house, checkPass_clock.1, checkPass_clock.2, (endWait_clock day).1, (endWait_clock day).2]
    exact ⟨rfl, rfl⟩
  · refine ⟨_, exec_minute_of hc (by rw [ht]; rfl), fun hlt => ?_, fun he hlt => ?_, fun he hde => ?_,
      fun he hde => ?_⟩
    · rw [if_neg (by omega), settle_house, checkPass_clock.1, checkPass_clock.2,
        advanceClock_next (.inl ⟨hlt, rfl, rfl⟩)]
      exact ⟨rfl, rfl⟩
    · rw [if_neg (by omega), settle_house, checkPass_clock.1, checkPass_clock.2,
        advanceClock_next (.inr ⟨he, hlt, rfl, rfl⟩)]
      exact ⟨rfl, rfl⟩
    · rw [if_pos (by omega), settle_house, advanceClock_end he hde]
      exact ⟨hc, rfl⟩
    · rw [if_pos (by omega), settle_store, settle_mailboxes, advanceClock_end he hde]
      exact ⟨rfl, rfl⟩
  · change execMinuteTimerExpiry s = _
    rw [execMinuteTimerExpiry, hc]
    rfl
  · rw [exec_time_of hd hm hh, endWait_ends (s := s.setClock day minute) hw hl hle, checkPass_of_not_due, hu]
    · rfl
    · rw [← Bool.not_eq_true, passDue_iff (day := day) (minute := minute) rfl]
      rintro ⟨-, -, hnone | ⟨l', hl', hlt⟩, -⟩
      · rw [show s.house.lastPassDay = none from hnone] at hl
        cases hl
      · rw [show s.house.lastPassDay = some l' from hl'] at hl
        cases hl
        omega
  · rw [exec_time_of hd hm hh, endWait_still (s := s.setClock day minute) hno, hu]
    rfl
  · have hnot : ¬ (1439 ≤ m ∧ 65535 ≤ d) := by omega
    rw [exec_minute_of hc ht, if_neg hnot, advanceClock_next hnext, hu]
    rfl
  · rw [exec_headerWriteDone s hs]
    rfl
  · have hdue : s.passDue = true := (passDue_iff hc).2 ⟨hm, hi, hl, hp⟩
    have hcauses := causes_eq h1 h2 h3
    rw [State.checkPass, if_pos hdue]
    refine ⟨fun hn => ?_, fun hn hfew => ?_, fun hn hmany => ?_⟩
    · rw [attempt_begins hc (hcauses.trans hn)]
      rfl
    · rw [attempt_postponed (by rw [hcauses]; exact hn) hfew, hcauses]
    · rw [attempt_forced hc (by rw [hcauses]; exact hn) hmany, hcauses]
      rfl
  · refine checkPass_of_not_due ?_
    rcases hno with h | h | h | ⟨hc, h⟩
    · simp [State.passDue, h]
    · simp [State.passDue, h]
    · simp [State.passDue, h]
    · rw [← Bool.not_eq_true, passDue_iff hc]
      rintro ⟨-, -, hl, hp⟩
      rcases h with h | ⟨l, hl', hle⟩
      · omega
      · rcases hl with hl | ⟨l', hl, hlt⟩
        · rw [hl] at hl'
          cases hl'
        · rw [hl] at hl'
          cases hl'
          omega

/-- Settles O51: an attempt finds the schedule as the timer left it. -/
theorem postponedPassIsTriedAgain : Obligations.PostponedPassIsTriedAgain := by
  intro s day minute c hw ht hc h1 h2 h3
  obtain ⟨u, hu⟩ : ∃ u, u = s.onHouse fun h => { h with postponeTimer := none } := ⟨_, rfl⟩
  have hcauses : u.causes = c := hu ▸ causes_eq h1 h2 h3
  have hclock : u.house.clock = some (day, minute) := hu ▸ hc
  have hnumber : u.house.postponements = s.house.postponements := by rw [hu]; rfl
  have hexec : exec .postponementTimerExpiry s =
      .next u.attempt.settle := by
    change execPostponementTimerExpiry s = _
    rw [execPostponementTimerExpiry, if_pos (by simp [hw, ht]), hu]
    rfl
  rw [hexec]
  refine ⟨fun hn => ?_, fun hn hfew => ?_, fun hn hsix => ?_⟩
  · rw [attempt_begins hclock (hcauses.trans hn), hu]
    rfl
  · rw [attempt_postponed (by rw [hcauses]; exact hn) (hnumber ▸ hfew), hcauses, hu]
    rfl
  · rw [attempt_forced hclock (by rw [hcauses]; exact hn) (by omega), hcauses, hu]
    refine ⟨_, rfl, ?_, ?_, ?_⟩
    · rw [settle_house, latch_house]
      rfl
    · rw [settle_alarms, mem_alarms_latch]
      exact .inl rfl
    · rw [settle_mailboxes, latch_mailboxes]
      rfl

end Sys2Proof.Proofs

/-! PROOF. A visit of the daily pass: what it stamps, what it removes and what it leaves alone (R64, R166-R169). -/

namespace Sys2Proof.Machine

section
variable {s t u : State} {k : Nat}

/-! ### What a visit leaves alone -/

/-- A change of mailbox `k` that leaves the others, the channels, the settings and the schedule. -/
structure VisitOf (s : State) (k : Nat) (t : State) : Prop where
  house : t.house = s.house
  cfg : t.cfg = s.cfg
  chans : t.chans = s.chans
  length : t.mailboxes.length = s.mailboxes.length
  others : ∀ j, j ≠ k → t.mb j = s.mb j

theorem VisitOf.refl (s : State) (k : Nat) : VisitOf s k s := ⟨rfl, rfl, rfl, rfl, fun _ _ => rfl⟩

theorem VisitOf.trans (h : VisitOf s k t) (h' : VisitOf t k u) : VisitOf s k u :=
  ⟨h'.house.trans h.house, h'.cfg.trans h.cfg, h'.chans.trans h.chans, h'.length.trans h.length,
    fun j hj => (h'.others j hj).trans (h.others j hj)⟩

theorem VisitOf.onMb (f : Mailbox → Mailbox) : VisitOf s k (s.onMb k f) :=
  ⟨rfl, rfl, rfl, by simp [State.onMb], fun j hj => State.mb_onMb_ne s f hj⟩

theorem VisitOf.removeEntry (s : State) (k num : Nat) : VisitOf s k (s.removeEntry k num) := by
  have hquiet : (s.removeQuiet k num).house = s.house ∧ (s.removeQuiet k num).cfg = s.cfg := by
    unfold State.removeQuiet
    split
    · exact ⟨rfl, rfl⟩
    · exact ⟨(dropRefOpt_only _ _).house, (dropRefOpt_only _ _).cfg⟩
  have htold := tellIfChanged_only (s.removeQuiet k num) k (s.mb k).newCount
  exact ⟨(congrArg State.house htold).trans hquiet.1, (congrArg State.cfg htold).trans hquiet.2, removeEntry_chans s k num,
    removeEntry_mailboxes_length s num, fun j hj => removeEntry_mb_ne hj⟩

theorem VisitOf.emptySlot (g : GreetSlot) : VisitOf s k (s.emptySlot k g) := by
  have hdrop := dropRefOpt_only (s.onMb k fun m => m.emptied g) ((s.mb k).slotObj g)
  have hstart := VisitOf.onMb (s := s) (k := k) fun m => m.emptied g
  rw [emptySlot_eq]
  exact ⟨hdrop.house, hdrop.cfg, hdrop.chans, (congrArg List.length hdrop.mailboxes).trans hstart.length,
    fun j hj => (State.mb_congr hdrop.mailboxes j).trans (hstart.others j hj)⟩

/-! ### Removals (R168) -/

/-- Everything of a mailbox but its entries and their charge is as it was. -/
def Mailbox.EntriesOnly (m m' : Mailbox) : Prop := m' = { m with entries := m'.entries, charged := m'.charged }

theorem Mailbox.EntriesOnly.trans {m m' m'' : Mailbox} (h : m.EntriesOnly m') (h' : m'.EntriesOnly m'') :
    m.EntriesOnly m'' := by
  rw [Mailbox.EntriesOnly, h', h]

theorem Mailbox.EntriesOnly.read {α : Type} {m m' : Mailbox} (h : m.EntriesOnly m') (f : Mailbox → α)
    (hf : ∀ e c, f { m with entries := e, charged := c } = f m := by intros; rfl) : f m' = f m := by
  rw [h]
  exact hf _ _

/-- In a list with distinct numbers a removal takes out the entry with its number (R45). -/
theorem removeEntry_entries (hk : k < s.mailboxes.length) (hn : (s.mb k).numbers.Nodup) (num : Nat) :
    ((s.removeEntry k num).mb k).entries = (s.mb k).entries.filter (fun x => decide (x.number ≠ num)) ∧
      (s.mb k).EntriesOnly ((s.removeEntry k num).mb k) := by
  cases he : (s.mb k).entry? num with
  | none =>
    have hsame : (s.removeEntry k num).mb k = s.mb k := by
      rw [State.removeEntry, State.mb_congr (tellIfChanged_mailboxes _ _ _), State.removeQuiet, he]
    rw [hsame]
    refine ⟨(List.filter_eq_self.2 fun x hx => ?_).symm, rfl⟩
    have hnot := (entry?_eq_none_iff _ _).1 he
    simp only [Mailbox.numbers, List.mem_map, not_exists, not_and] at hnot
    simpa using hnot x hx
  | some e =>
    rw [removeEntry_mb_same hk he]
    refine ⟨?_, rfl⟩
    obtain ⟨front, back, hl, hnum, hfront, hback⟩ := entries_parted he hn
    have hnot : e ∉ front := fun hx => hfront e hx hnum
    rw [State.removedFrom, hl, List.erase_append_right _ hnot, List.erase_cons_head, List.filter_append,
      List.filter_cons_of_neg (by simp [hnum]), List.filter_eq_self.2 fun x hx => by simpa using hfront x hx,
      List.filter_eq_self.2 fun x hx => by simpa using hback x hx]

/-- The removal of entries one by one, by their numbers. -/
def State.removeAll (s : State) (k : Nat) (l : List Entry) : State :=
  l.foldl (fun t e => t.removeEntry k e.number) s

theorem removeAll_visit (l : List Entry) : VisitOf s k (s.removeAll k l) := by
  induction l generalizing s with
  | nil => exact .refl s k
  | cons e l ih => exact (VisitOf.removeEntry s k e.number).trans ih

theorem removeAll_entries (hk : k < s.mailboxes.length) (hn : (s.mb k).numbers.Nodup) (l : List Entry) :
    ((s.removeAll k l).mb k).entries =
        (s.mb k).entries.filter (fun x => decide (x.number ∉ l.map (·.number))) ∧
      (s.mb k).EntriesOnly ((s.removeAll k l).mb k) := by
  induction l generalizing s with
  | nil => exact ⟨by simp [State.removeAll], rfl⟩
  | cons e l ih =>
    obtain ⟨hentries, honly⟩ := removeEntry_entries hk hn e.number
    have hlen : k < (s.removeEntry k e.number).mailboxes.length := by
      rw [removeEntry_mailboxes_length]
      exact hk
    have hn' : ((s.removeEntry k e.number).mb k).numbers.Nodup := by
      rw [Mailbox.numbers, hentries]
      exact hn.sublist ((List.filter_sublist).map _)
    obtain ⟨ih1, ih2⟩ := ih hlen hn'
    refine ⟨?_, honly.trans ih2⟩
    change ((State.removeAll (s.removeEntry k e.number) k l).mb k).entries = _
    rw [ih1, hentries, List.filter_filter]
    refine List.filter_congr fun x _ => ?_
    by_cases h : x.number = e.number <;> simp [h]

/-- The entries with the numbers of some of a list's entries are those entries, where numbers are distinct. -/
theorem filter_not_numbers {l : List Entry} (hn : (l.map (·.number)).Nodup) (p : Entry → Bool) :
    l.filter (fun x => decide (x.number ∉ (l.filter p).map (·.number))) = l.filter fun x => !p x := by
  refine List.filter_congr fun x hx => ?_
  have hiff : x.number ∈ (l.filter p).map (·.number) ↔ p x = true := by
    refine ⟨fun hmem => ?_, fun hp => List.mem_map.2 ⟨x, List.mem_filter.2 ⟨hx, hp⟩, rfl⟩⟩
    obtain ⟨y, hy, heq⟩ := List.mem_map.1 hmem
    obtain ⟨hyl, hp⟩ := List.mem_filter.1 hy
    rwa [← List.inj_on_of_nodup_map hn hyl hx heq]
  cases hp : p x <;> simp [hiff, hp]

/-! ### The stamps (R167) -/

/-- The entries of mailbox `k` with the stamps of the pass. -/
def State.stampedEntries (s : State) (k : Nat) : List Entry :=
  (s.mb k).entries.map fun e => e.stamped s.house.passDay s.house.passTime (s.cls k).broadcastLife

theorem stampMailbox_mb (hk : k < s.mailboxes.length) :
    (s.stampMailbox k).mb k = { s.mb k with entries := s.stampedEntries k } := by
  unfold State.stampMailbox
  dsimp only
  split
  · rename_i h
    rw [State.stampedEntries, h]
  · rw [State.mb_congr (markMailbox_mailboxes _ _), State.mb_onMb_same _ _ hk]
    rfl

theorem stampMailbox_visit : VisitOf s k (s.stampMailbox k) := by
  unfold State.stampMailbox
  dsimp only
  split
  · exact .refl s k
  · exact (VisitOf.onMb (s := s) (k := k) _).trans ⟨rfl, rfl, rfl, rfl, fun _ _ => rfl⟩

theorem stampMailbox_store : (s.stampMailbox k).store = s.store := by
  unfold State.stampMailbox
  dsimp only
  split <;> rfl

theorem stampedEntries_numbers : (s.stampedEntries k).map (·.number) = (s.mb k).numbers := by
  rw [State.stampedEntries, List.map_map]
  rfl

/-! ### A visit to a mailbox that is not locked -/

/-- The node after the stamps and the removals of a visit. -/
def State.entriesVisited (s : State) (k : Nat) : State := (s.stampMailbox k).expireMailbox k

theorem entriesVisited_visit : VisitOf s k (s.entriesVisited k) :=
  stampMailbox_visit.trans (removeAll_visit _)

theorem entriesVisited_mb (hk : k < s.mailboxes.length) (hn : (s.mb k).numbers.Nodup) :
    ((s.entriesVisited k).mb k).entries =
        (s.stampedEntries k).filter (fun e => !e.expired s.house.passDay (s.cls k)) ∧
      (s.mb k).EntriesOnly ((s.entriesVisited k).mb k) := by
  have hvisit := stampMailbox_visit (s := s) (k := k)
  have hmb := stampMailbox_mb hk
  have hnumbers : (((s.stampMailbox k).mb k).entries.map (·.number)).Nodup := by
    rw [hmb]
    exact stampedEntries_numbers ▸ hn
  have hcls : (s.stampMailbox k).cls k = s.cls k := by simp only [State.cls, State.mbCfg, hvisit.cfg]
  obtain ⟨hentries, honly⟩ := removeAll_entries (s := s.stampMailbox k) (hvisit.length.symm ▸ hk) hnumbers
    (((s.stampMailbox k).mb k).entries.filter fun e => e.expired (s.stampMailbox k).house.passDay
      ((s.stampMailbox k).cls k))
  rw [filter_not_numbers hnumbers, hvisit.house, hcls] at hentries
  refine ⟨?_, ?_⟩
  · have hread : (s.entriesVisited k).mb k = (State.removeAll (s.stampMailbox k) k _).mb k := rfl
    rw [hread, hvisit.house, hcls, hentries, hmb]
  · refine Mailbox.EntriesOnly.trans ?_ honly
    rw [hmb]
    rfl

/-- A visit to an empty list leaves the store. -/
theorem entriesVisited_store (h : (s.mb k).entries = []) : (s.entriesVisited k).store = s.store := by
  have hsame : s.stampMailbox k = s := by simp [State.stampMailbox, h]
  simp [State.entriesVisited, hsame, State.expireMailbox, h]

/-- The ABSENCE slot whose end day is over is emptied (R64, R169). -/
theorem expireAbsence_over {o d : Nat} (ha : (s.mb k).absence = some o) (hd : (s.mb k).endDay = some d)
    (h : d < s.house.passDay) : s.expireAbsence k = s.emptySlot k .absence := by
  simp only [State.expireAbsence, ha, hd, if_pos h]

theorem expireAbsence_holds (h : (s.mb k).absence = none ∨ (s.mb k).endDay = none ∨
    ∃ d, (s.mb k).endDay = some d ∧ s.house.passDay ≤ d) : s.expireAbsence k = s := by
  unfold State.expireAbsence
  split
  · rename_i o d ha hd
    rcases h with h | h | ⟨d', hd', hle⟩
    · rw [h] at ha
      cases ha
    · rw [h] at hd
      cases hd
    · rw [hd'] at hd
      cases hd
      exact if_neg (Nat.not_lt.2 hle)
  · rfl

theorem expireAbsence_visit : VisitOf s k (s.expireAbsence k) := by
  unfold State.expireAbsence
  split
  · split
    · exact .emptySlot _
    · exact .refl s k
  · exact .refl s k

theorem visit_of_locked (h : (s.mb k).lock.isSome = true) : s.visit k = s := if_pos h

theorem visit_of_free (h : (s.mb k).lock = none) : s.visit k = (s.entriesVisited k).expireAbsence k :=
  if_neg (by simp [h])

theorem visit_visit : VisitOf s k (s.visit k) := by
  unfold State.visit
  split
  · exact .refl s k
  · exact entriesVisited_visit.trans expireAbsence_visit

/-- The ABSENCE slot's end leaves the list and the other slots (R60). -/
theorem emptySlot_absence_mb (hk : k < s.mailboxes.length) :
    (s.emptySlot k .absence).mb k = { s.mb k with absence := none, endDay := none } := by
  rw [emptySlot_eq, State.mb_congr (markMailbox_mailboxes _ _), State.mb_congr (dropRefOpt_mailboxes _ _),
    State.mb_onMb_same _ _ hk, Mailbox.emptied_eq]
  simp

/-- The last part of a visit changes the ABSENCE slot and its end day alone in its mailbox. -/
theorem expireAbsence_mb (hk : k < s.mailboxes.length) : (s.expireAbsence k).mb k =
    { s.mb k with absence := ((s.expireAbsence k).mb k).absence, endDay := ((s.expireAbsence k).mb k).endDay } := by
  unfold State.expireAbsence
  split
  · split
    · rw [emptySlot_absence_mb hk]
    · rfl
  · rfl

/-- The emptied ABSENCE slot's object loses its reference (R60). -/
theorem emptySlot_absence_store {o : Nat} (ha : (s.mb k).absence = some o) :
    (s.emptySlot k .absence).store = (s.dropRef o).store := by
  have hslot : (s.mb k).slotObj .absence = some o := ha
  rw [emptySlot_eq, hslot]
  exact (dropRefOpt_store_congr (s := s) (t := s.onMb k fun m => m.emptied .absence) rfl (some o) :)

/-- A visit that finds an ABSENCE greeting past its end day (R64, R169). -/
theorem visit_over (hk : k < s.mailboxes.length) (hn : (s.mb k).numbers.Nodup) (hl : (s.mb k).lock = none)
    {o d : Nat} (ha : (s.mb k).absence = some o) (hd : (s.mb k).endDay = some d) (h : d < s.house.passDay) :
    ((s.visit k).mb k).absence = none ∧ ((s.visit k).mb k).endDay = none ∧
      ((s.mb k).entries = [] → (s.visit k).store = (s.dropRef o).store) := by
  have hvisit := entriesVisited_visit (s := s) (k := k)
  obtain ⟨-, honly⟩ := entriesVisited_mb hk hn
  have ha' : ((s.entriesVisited k).mb k).absence = some o := (honly.read _).trans ha
  have hd' : ((s.entriesVisited k).mb k).endDay = some d := (honly.read _).trans hd
  rw [visit_of_free hl, expireAbsence_over ha' hd' (hvisit.house ▸ h),
    emptySlot_absence_mb (hvisit.length.symm ▸ hk), emptySlot_absence_store ha']
  exact ⟨rfl, rfl, fun he => dropRefOpt_store_congr (o := some o) (entriesVisited_store he)⟩

/-- A visit that finds no ABSENCE greeting past its end day. -/
theorem visit_holds (hk : k < s.mailboxes.length) (hn : (s.mb k).numbers.Nodup) (hl : (s.mb k).lock = none)
    (h : (s.mb k).absence = none ∨ (s.mb k).endDay = none ∨
      ∃ d, (s.mb k).endDay = some d ∧ s.house.passDay ≤ d) :
    ((s.visit k).mb k).absence = (s.mb k).absence ∧ ((s.visit k).mb k).endDay = (s.mb k).endDay ∧
      ((s.mb k).entries = [] → (s.visit k).store = s.store) := by
  obtain ⟨-, honly⟩ := entriesVisited_mb hk hn
  have ha : ((s.entriesVisited k).mb k).absence = (s.mb k).absence := honly.read _
  have hd : ((s.entriesVisited k).mb k).endDay = (s.mb k).endDay := honly.read _
  have hholds : (s.entriesVisited k).expireAbsence k = s.entriesVisited k := by
    refine expireAbsence_holds ?_
    rw [ha, hd, entriesVisited_visit.house]
    exact h
  rw [visit_of_free hl, hholds]
  exact ⟨ha, hd, entriesVisited_store⟩

/-- A visit to a free mailbox removes the entries whose time has run out, and keeps the other slots (R168). -/
theorem visit_kept (hk : k < s.mailboxes.length) (hn : (s.mb k).numbers.Nodup) (hl : (s.mb k).lock = none) :
    ((s.visit k).mb k).entries =
        (s.stampedEntries k).filter (fun e => !e.expired s.house.passDay (s.cls k)) ∧
      ((s.visit k).mb k).standard = (s.mb k).standard ∧ ((s.visit k).mb k).busy = (s.mb k).busy ∧
      ((s.visit k).mb k).name = (s.mb k).name := by
  obtain ⟨hentries, honly⟩ := entriesVisited_mb hk hn
  rw [visit_of_free hl, expireAbsence_mb (s := s.entriesVisited k) (entriesVisited_visit.length.symm ▸ hk)]
  exact ⟨hentries, honly.read Mailbox.standard, honly.read Mailbox.busy, honly.read Mailbox.name⟩

/-- The position moves on, or the pass ends after the last mailbox (R166). -/
theorem nextVisit_fields : s.nextVisit.mailboxes = s.mailboxes ∧ s.nextVisit.store = s.store ∧
    s.nextVisit.chans = s.chans ∧
    (s.house.passPos + 1 < s.cfg.mailboxes.length → s.nextVisit.house.passPos = s.house.passPos + 1 ∧
      s.nextVisit.house.sched = s.house.sched) ∧
    (s.cfg.mailboxes.length ≤ s.house.passPos + 1 → s.nextVisit.house.sched = .idle) := by
  unfold State.nextVisit
  split
  · rename_i h
    exact ⟨rfl, rfl, rfl, fun _ => ⟨rfl, rfl⟩, fun h' => absurd h (Nat.not_lt.2 h')⟩
  · rename_i h
    exact ⟨rfl, rfl, rfl, fun h' => absurd h' h, fun _ => rfl⟩

end

end Sys2Proof.Machine

namespace Sys2Proof.Proofs

open Sys2Proof Sys2Proof.Machine

/-- Settles O52: a visit is its stamps, then the removals by number, which filter a list of distinct numbers, then
the end of an ABSENCE greeting; the rest is read off the stamp and the expiry of one entry. -/
theorem passVisitsAndExpires : Obligations.PassVisitsAndExpires := by
  refine ⟨fun s k hrun hpos hk hn => ?_, fun e day time c => ?_⟩
  · have hexec : exec .passVisit s = .next ((s.visit k).nextVisit).settle := by
      change execPassVisit s = _
      rw [execPassVisit, if_pos hrun, hpos]
      rfl
    refine ⟨_, hexec, ?_⟩
    obtain ⟨hmbs, hstore, hchans, hmoves, hends⟩ := nextVisit_fields (s := s.visit k)
    have hvisit := visit_visit (s := s) (k := k)
    have hmb : ∀ j, (s.visit k).nextVisit.settle.mb j = (s.visit k).mb j :=
      State.mb_congr ((settle_mailboxes _).trans hmbs)
    rw [settle_house, settle_mailboxes, settle_chans, settle_store, hstore, hmb]
    rw [hvisit.house, hvisit.cfg, hpos] at hmoves hends
    refine ⟨fun hl => ?_, fun hl => ?_, fun hl => ?_, fun j hj => ?_, fun h => ?_, fun h => hends h, ?_⟩
    · rw [hmbs, visit_of_locked hl]
    · exact (visit_kept hk hn hl).1
    · obtain ⟨-, hstandard, hbusy, hname⟩ := visit_kept hk hn hl
      exact ⟨hstandard, hbusy, hname, fun o d => visit_over hk hn hl, visit_holds hk hn hl⟩
    · rw [hmb, hvisit.others j hj]
    · exact ⟨(hmoves h).1, (hmoves h).2.trans hrun⟩
    · rw [hchans, hvisit.chans]
  · refine ⟨rfl, rfl, fun hk he => ?_, fun hk hs => ?_, fun d hk hs hc hd => ?_, fun d hk hs hc hd => ?_,
      fun d hk hs hc hd => ?_, fun d hk hs hc hd => ?_, fun d hk he hd => ?_, fun m hk ha => ?_⟩
    · simp [Entry.stamped, hk, he, Config.minutesPerDay]
    · simp [Entry.expired, hk, Entry.retained, hs]
    · cases hkind : e.kind with
      | notice => exact absurd hkind hk
      | voice => simp [Entry.expired, hkind, Entry.retained, hs, hc, aged, hd]
      | shared => simp [Entry.expired, hkind, Entry.retained, hs, hc, aged, hd]
    · simp [Entry.expired, hk, Entry.retained, hs, hc, aged, hd]
    · cases hkind : e.kind with
      | notice => exact absurd hkind hk
      | voice => simp [Entry.expired, hkind, Entry.retained, hs, hc, aged, hd]
      | shared => simp [Entry.expired, hkind, Entry.retained, hs, hc, aged, hd]
    · simp [Entry.expired, hk, Entry.retained, hs, hc, aged, hd]
    · simp [Entry.expired, hk, he, aged, hd]
    · simp [Entry.expired, hk, ha, aged, Config.noticeLife, Config.minutesPerDay]
      exact decide_eq_true_iff

end Sys2Proof.Proofs

/-! PROOF. The orders of frames and entries, and what a dispatch does with the first of them (R120, R137-R145). -/

namespace Sys2Proof.Machine

/-! ### The order of frames (R120) -/

theorem SendItem.before_iff (x y : SendItem) : x.before y = true ↔ x.priority < y.priority ∨
    (x.priority = y.priority ∧ (x.handed < y.handed ∨
      (x.handed = y.handed ∧ requesterRank x.req < requesterRank y.req))) := by
  simp [SendItem.before]

theorem SendItem.before_irrefl (x : SendItem) : x.before x = false := by
  rw [Bool.eq_false_iff, ne_eq, before_iff]
  omega

theorem SendItem.not_before_of_before {x y : SendItem} (h : x.before y = true) : y.before x = false := by
  rw [Bool.eq_false_iff, ne_eq, before_iff]
  rw [before_iff] at h
  omega

/-- What does not come before a second that does not come before a third does not come before the third. -/
theorem SendItem.not_before_trans {x y z : SendItem} (h : x.before y = false) (h' : y.before z = false) :
    x.before z = false := by
  rw [Bool.eq_false_iff, ne_eq, before_iff] at *
  omega

theorem requesterRank_unique {rank : Requester → Nat} (ho : ∀ i, rank (.outSlot i) = i)
    (hi : ∀ j, rank (.inSlot j) = 2 + j) (ha : rank .answers = 6) (hh : rank .hail = 7) (r : Requester) :
    rank r = requesterRank r := by
  cases r with
  | outSlot i => exact ho i
  | inSlot j => exact hi j
  | answers => exact ha
  | hail => exact hh

theorem nextFrame_eq_none {l : List SendItem} (h : nextFrame l = none) : ∀ x ∈ l, x.wait.isSome = true := by
  induction l with
  | nil => simp
  | cons x rest ih =>
    unfold nextFrame at h
    split at h
    · rename_i hrest
      split at h
      · cases h
      · rename_i hx
        intro y hy
        rcases List.mem_cons.1 hy with rfl | hy
        · simpa [Option.isSome_iff_ne_none] using hx
        · exact ih hrest y hy
    · split at h <;> cases h

/-- The frame chosen is an eligible one of the list, and no eligible one comes before it (R120). -/
theorem nextFrame_eq_some {l : List SendItem} {x : SendItem} (h : nextFrame l = some x) :
    x ∈ l ∧ x.wait = none ∧ ∀ y ∈ l, y.wait = none → y.before x = false := by
  induction l generalizing x with
  | nil => cases h
  | cons z rest ih =>
    unfold nextFrame at h
    split at h
    · rename_i hrest
      split at h
      · rename_i hz
        cases h
        refine ⟨List.mem_cons_self, Option.isNone_iff_eq_none.1 hz, fun y hy hwait => ?_⟩
        rcases List.mem_cons.1 hy with rfl | hy
        · exact y.before_irrefl
        · simpa [hwait] using nextFrame_eq_none hrest y hy
      · cases h
    · rename_i y hrest
      obtain ⟨hmem, hwait, hfirst⟩ := ih hrest
      split at h
      · rename_i hz
        cases h
        obtain ⟨hzwait, hyz⟩ := Bool.and_eq_true_iff.1 hz
        refine ⟨List.mem_cons_self, Option.isNone_iff_eq_none.1 hzwait, fun w hw hwwait => ?_⟩
        rcases List.mem_cons.1 hw with rfl | hw
        · exact w.before_irrefl
        · exact SendItem.not_before_trans (hfirst w hw hwwait) (by simpa using hyz)
      · rename_i hz
        cases h
        refine ⟨List.mem_cons_of_mem _ hmem, hwait, fun w hw hwwait => ?_⟩
        rcases List.mem_cons.1 hw with rfl | hw
        · exact SendItem.not_before_of_before (by simpa [hwwait] using hz)
        · exact hfirst w hw hwwait

/-! ### The order of entries (R137) -/

theorem QEntry.before_iff (x y : QEntry) : x.before y = true ↔
    (x.urgent = true ∧ y.urgent = false) ∨ (x.urgent = y.urgent ∧ x.seq < y.seq) := by
  unfold QEntry.before
  cases x.urgent <;> cases y.urgent <;> simp

theorem QEntry.before_irrefl (x : QEntry) : x.before x = false := by
  rw [Bool.eq_false_iff, ne_eq, before_iff]
  cases x.urgent <;> simp

theorem QEntry.not_before_of_before {x y : QEntry} (h : x.before y = true) : y.before x = false := by
  rw [Bool.eq_false_iff, ne_eq, before_iff]
  rw [before_iff] at h
  cases hx : x.urgent <;> cases hy : y.urgent <;> simp [hx, hy] at h ⊢ <;> omega

theorem QEntry.not_before_trans {x y z : QEntry} (h : x.before y = false) (h' : y.before z = false) :
    x.before z = false := by
  rw [Bool.eq_false_iff, ne_eq, before_iff] at *
  cases hx : x.urgent <;> cases hy : y.urgent <;> cases hz : z.urgent <;> simp [hx, hy, hz] at h h' ⊢ <;> omega

theorem QEntry.eligible_iff (e : QEntry) : e.eligible = true ↔ e.carried = false ∧ e.notBefore = none := by
  simp [QEntry.eligible]

theorem firstEligible_eq_none {n : Nat} {l : List (Option QEntry)} (h : firstEligible n l = none) :
    ∀ x, some x ∈ l → x.eligible = false := by
  induction l generalizing n with
  | nil => simp
  | cons q rest ih =>
    intro x hx
    cases q with
    | none => exact ih h x (by simpa using hx)
    | some e =>
      rw [firstEligible] at h
      split at h
      · rename_i hrest
        split at h
        · cases h
        · rename_i he
          rcases List.mem_cons.1 hx with hx | hx
          · cases hx
            simpa using he
          · exact ih hrest x hx
      · split at h <;> cases h

/-- The entry chosen is an eligible one of the list, and no eligible one comes before it (R139). -/
theorem firstEligible_eq_some {n : Nat} {l : List (Option QEntry)} {p : Nat} {e : QEntry}
    (h : firstEligible n l = some (p, e)) :
    n ≤ p ∧ l[p - n]? = some (some e) ∧ e.eligible = true ∧
      ∀ x, some x ∈ l → x.eligible = true → x.before e = false := by
  induction l generalizing n p e with
  | nil => cases h
  | cons q rest ih =>
    have hlater : ∀ {y : QEntry}, n + 1 ≤ p → rest[p - (n + 1)]? = some (some y) →
        (q :: rest)[p - n]? = some (some y) := fun hle hget => by
      rw [show p - n = p - (n + 1) + 1 by omega, List.getElem?_cons_succ, hget]
    cases q with
    | none =>
      obtain ⟨hle, hget, he, hfirst⟩ := ih (n := n + 1) h
      exact ⟨Nat.le_of_succ_le hle, hlater hle hget, he, fun x hx => hfirst x (by simpa using hx)⟩
    | some z =>
      rw [firstEligible] at h
      split at h
      · rename_i hrest
        split at h
        · rename_i hz
          cases h
          refine ⟨le_rfl, by simp, hz, fun x hx hel => ?_⟩
          rcases List.mem_cons.1 hx with hx | hx
          · cases hx
            exact QEntry.before_irrefl _
          · rw [firstEligible_eq_none hrest x hx] at hel
            cases hel
        · cases h
      · rename_i p' y hrest
        split at h
        · rename_i hz
          cases h
          obtain ⟨-, -, -, hfirst⟩ := ih hrest
          obtain ⟨hzel, hyz⟩ := Bool.and_eq_true_iff.1 hz
          refine ⟨le_rfl, by simp, hzel, fun x hx hel => ?_⟩
          rcases List.mem_cons.1 hx with hx | hx
          · cases hx
            exact QEntry.before_irrefl _
          · exact QEntry.not_before_trans (hfirst x hx hel) (by simpa using hyz)
        · rename_i hz
          cases h
          obtain ⟨hle, hget, he, hfirst⟩ := ih hrest
          refine ⟨Nat.le_of_succ_le hle, hlater hle hget, he, fun x hx hel => ?_⟩
          rcases List.mem_cons.1 hx with hx | hx
          · cases hx
            exact QEntry.not_before_of_before (by simpa [hel] using hz)
          · exact hfirst x hx hel

/-! ### The queue and the outbound slots -/

section
variable {s : State} {i pos : Nat} {e : QEntry}

theorem onQ_eq (h : s.qEntry? pos = some e) (f : QEntry → QEntry) :
    s.onQ pos f = s.onDeliv fun d => { d with queue := d.queue.set pos (some (f e)) } := by
  have hget : s.deliv.queue[pos]? = some (some e) := Option.join_eq_some_iff.1 h
  obtain ⟨hlt, hval⟩ := List.getElem?_eq_some_iff.1 hget
  have hmodify : s.deliv.queue.modify pos (Option.map f) = s.deliv.queue.set pos (some (f e)) := by
    rw [List.modify_eq_set_getElem?, hget]
    rfl
  simp only [State.onQ, State.onDeliv, hmodify]

theorem onOut_eq (h : i < s.deliv.outSlots.length) (f : OutSlot → OutSlot) :
    s.onOut i f = s.onDeliv fun d => { d with outSlots := d.outSlots.set i (f (s.outSlot i)) } := by
  have hmodify : s.deliv.outSlots.modify i f = s.deliv.outSlots.set i (f (s.outSlot i)) := by
    rw [List.modify_eq_set_getElem?, State.outSlot, List.getElem?_eq_getElem h]
    rfl
  simp only [State.onOut, State.onDeliv, hmodify]

theorem onOut_self {f : OutSlot → OutSlot} (h : f (s.outSlot i) = s.outSlot i) : s.onOut i f = s := by
  by_cases hi : i < s.deliv.outSlots.length
  · rw [onOut_eq hi, h, State.outSlot, List.getElem?_eq_getElem hi, Option.getD_some]
    simp only [State.onDeliv, List.set_getElem_self]
  · have hsame : s.deliv.outSlots.modify i f = s.deliv.outSlots := by
      rw [List.modify_eq_set_getElem?, List.getElem?_eq_none (Nat.not_lt.1 hi)]
      rfl
    simp only [State.onOut, State.onDeliv, hsame]

@[simp] theorem onOut_qEntry? (f : OutSlot → OutSlot) (p : Nat) : (s.onOut i f).qEntry? p = s.qEntry? p := rfl
@[simp] theorem onOut_obj? (f : OutSlot → OutSlot) (o : Nat) : (s.onOut i f).obj? o = s.obj? o := rfl
@[simp] theorem onOut_outSlots_length (f : OutSlot → OutSlot) :
    (s.onOut i f).deliv.outSlots.length = s.deliv.outSlots.length := List.length_modify ..

end

/-! ### Tags and free slots (R139, R144) -/

theorem nextTag_eq (n : Nat) : nextTag n = if 255 ≤ n then 1 else n + 1 := rfl

theorem nextTag_mem (n : Nat) : 1 ≤ nextTag n ∧ nextTag n ≤ 255 := by
  rw [nextTag_eq]
  split <;> omega

theorem nextTag_ne (n : Nat) : nextTag n ≠ n := by
  rw [nextTag_eq]
  split <;> omega

section
variable {s : State} {i : Nat}

theorem newTag_of_apart (h : (s.outSlot (1 - i)).state = .free ∨
    (s.outSlot (1 - i)).tag ≠ nextTag s.deliv.tagCounter) : s.newTag i = nextTag s.deliv.tagCounter := by
  refine if_neg fun hclash => ?_
  simp only [Bool.and_eq_true, bne_iff_ne, beq_iff_eq] at hclash
  exact h.elim hclash.1 fun hne => hne hclash.2

theorem newTag_of_clash (h : (s.outSlot (1 - i)).state ≠ .free)
    (htag : (s.outSlot (1 - i)).tag = nextTag s.deliv.tagCounter) :
    s.newTag i = nextTag (nextTag s.deliv.tagCounter) :=
  if_pos (by simp [h, htag])

/-- The tag a slot takes lies in 1-255, and no other slot in use has it (R144). -/
theorem newTag_spec : 1 ≤ s.newTag i ∧ s.newTag i ≤ 255 ∧
    ((s.outSlot (1 - i)).state ≠ .free → s.newTag i ≠ (s.outSlot (1 - i)).tag) := by
  by_cases hfree : (s.outSlot (1 - i)).state = .free
  · rw [newTag_of_apart (.inl hfree)]
    exact ⟨(nextTag_mem _).1, (nextTag_mem _).2, fun h => absurd hfree h⟩
  · by_cases htag : (s.outSlot (1 - i)).tag = nextTag s.deliv.tagCounter
    · rw [newTag_of_clash hfree htag, htag]
      exact ⟨(nextTag_mem _).1, (nextTag_mem _).2, fun _ => nextTag_ne _⟩
    · rw [newTag_of_apart (.inr htag)]
      exact ⟨(nextTag_mem _).1, (nextTag_mem _).2, fun _ h => htag h.symm⟩

/-- The lowest-numbered free slot (log 45). -/
theorem freeOut_eq_some_iff : s.freeOut = some i ↔
    (∃ o, s.deliv.outSlots[i]? = some o ∧ o.state = .free) ∧
      ∀ j, j < i → ∃ o, s.deliv.outSlots[j]? = some o ∧ o.state ≠ .free := by
  rw [State.freeOut, List.findIdx?_eq_some_iff_getElem]
  simp only [beq_iff_eq, List.getElem?_eq_some_iff]
  constructor
  · rintro ⟨hi, hfree, hbefore⟩
    exact ⟨⟨_, ⟨hi, rfl⟩, hfree⟩, fun j hj => ⟨_, ⟨hj.trans hi, rfl⟩, by simpa using hbefore j hj⟩⟩
  · rintro ⟨⟨o, ⟨hi, rfl⟩, hfree⟩, hbefore⟩
    refine ⟨hi, hfree, fun j hj => ?_⟩
    obtain ⟨o, ⟨_, rfl⟩, hother⟩ := hbefore j hj
    simpa using hother

/-! ### A dispatch (R139) -/

theorem dispatch_of_mode (h : s.mode ≠ .serving) : s.dispatch = s := if_neg h

theorem dispatch_of_none (h : s.freeOut = none ∨ firstEligible 0 s.deliv.queue = none) : s.dispatch = s := by
  unfold State.dispatch
  split
  · unfold Config.queuePositions State.dispatchLoop
    split
    · rename_i hfree hfirst
      rcases h with h | h
      · rw [h] at hfree
        cases hfree
      · rw [h] at hfirst
        cases hfirst
    · rfl
  · rfl

theorem dispatch_of_first {pos : Nat} {e : QEntry} (hm : s.mode = .serving) (hf : s.freeOut = some i)
    (he : firstEligible 0 s.deliv.queue = some (pos, e)) : s.dispatch = State.dispatchLoop 63
      (if s.listUnreached e then s.failEntry pos e .unreachable else s.takeEntry i pos e) := by
  rw [State.dispatch, if_pos hm]
  change State.dispatchLoop (63 + 1) s = _
  rw [State.dispatchLoop, hf, he]

theorem listUnreached_iff {e : QEntry} :
    s.listUnreached e = true ↔ e.list = true ∧ s.isPresent (e.node.getD 0) = false := by
  simp [State.listUnreached]

/-! ### An OFFER, and an entry taken into a slot (R139-R145) -/

/-- The slot as an OFFER begins (R145). -/
def OutSlot.offering (n : Nat) (o : OutSlot) : OutSlot :=
  { o with state := .offering, dest := some n, offerCount := 1, timer := none, wants := none }

theorem beginOffer_eq {n : Nat} {e : QEntry} (hi : i < s.deliv.outSlots.length)
    (he : s.qEntry? (s.outSlot i).pos = some e) : s.beginOffer i n =
      (s.onOut i (.offering n)).callFrame i ((s.onOut i (.offering n)).offerFrame i e) := by
  have hslot := State.outSlot_onOut_same (s := s) (i := i) (.offering n) hi
  have he' : (s.onOut i (.offering n)).qEntry? ((s.onOut i (.offering n)).outSlot i).pos = some e := by
    rw [hslot]
    exact he
  unfold State.beginOffer
  dsimp only
  split
  · rename_i hnone
    exact absurd (he'.symm.trans hnone) (by simp)
  · rename_i e' hsome
    cases he'.symm.trans hsome
    rfl

theorem offerFrame_eq {e : QEntry} {x : Obj} (hx : s.obj? e.object = some x) : s.offerFrame i e =
    ⟨s.cfg.node, (s.outSlot i).dest.getD 0, (s.outSlot i).tag, .offer
      { list := e.list, urgent := e.urgent, target := e.target, segments := x.segments
        origin := e.mailbox.map fun k => (s.mbCfg k).extension, identity := none }⟩ := by
  simp only [State.offerFrame, State.frameTo, hx]
  cases e.mailbox <;> rfl

theorem routeOf_of_split {ext n : Nat} {a b : List (Nat × Nat)} (h : s.deliv.routes = a ++ (ext, n) :: b)
    (hone : ∀ y ∈ a ++ b, y.1 ≠ ext) : s.routeOf ext = some n ∧
      s.deliv.routes.filter (fun r => r.1 != ext) = a ++ b := by
  have ha : ∀ y ∈ a, y.1 ≠ ext := fun y hy => hone y (List.mem_append_left _ hy)
  have hb : ∀ y ∈ b, y.1 ≠ ext := fun y hy => hone y (List.mem_append_right _ hy)
  rw [State.routeOf, h, List.find?_append, List.find?_eq_none.2 (by simpa using ha)]
  refine ⟨by simp, ?_⟩
  rw [List.filter_append, List.filter_cons_of_neg (by simp), List.filter_eq_self.2 (by simpa using ha),
    List.filter_eq_self.2 (by simpa using hb)]

theorem routeOf_of_none {ext : Nat} (h : ∀ y ∈ s.deliv.routes, y.1 ≠ ext) : s.routeOf ext = none := by
  rw [State.routeOf, List.find?_eq_none.2 (by simpa using h)]
  rfl

/-- Slot `i` as it locates under a tag for the entry at a position (R144). -/
def OutSlot.taken (pos tag : Nat) : OutSlot :=
  { OutSlot.blank with state := .locating, pos := pos, tag := tag }

/-- The node with entry `e` at a position taken into slot `i` (R139, R144). -/
def State.taken (s : State) (i pos : Nat) (e : QEntry) : State :=
  { s with deliv := { s.deliv with
      queue := s.deliv.queue.set pos (some { e with carried := true })
      tagCounter := s.newTag i
      outSlots := s.deliv.outSlots.set i (.taken pos (s.newTag i)) } }

variable {pos : Nat} {e : QEntry}

theorem taken_outSlot (hi : i < s.deliv.outSlots.length) :
    (s.taken i pos e).outSlot i = .taken pos (s.newTag i) := by
  simp only [State.outSlot, State.taken, List.getElem?_set_self hi, Option.getD_some]

theorem taken_qEntry? (he : s.qEntry? pos = some e) :
    (s.taken i pos e).qEntry? pos = some { e with carried := true } := by
  have hget : s.deliv.queue[pos]? = some (some e) := Option.join_eq_some_iff.1 he
  obtain ⟨hlt, -⟩ := List.getElem?_eq_some_iff.1 hget
  simp only [State.qEntry?, State.taken, List.getElem?_set_self hlt, Option.join_some]

theorem takeEntry_eq (hi : i < s.deliv.outSlots.length) (he : s.qEntry? pos = some e) :
    s.takeEntry i pos e = if e.list then (s.taken i pos e).beginOffer i (e.node.getD 0)
      else match e.location with
        | some n => if s.isPresent n then (s.taken i pos e).beginOffer i n
          else (s.taken i pos e).beginLocate i e.target
        | none => (s.taken i pos e).beginLocate i e.target := by
  have hstart : ((s.onQ pos fun q => { q with carried := true }).onDeliv fun d => { d with
      tagCounter := s.newTag i }).onOut i (fun _ => .taken pos (s.newTag i)) = s.taken i pos e := by
    rw [onQ_eq he, onOut_eq (by exact hi)]
    rfl
  rw [← hstart]
  rfl

theorem takeEntry_located {n : Nat} (hi : i < s.deliv.outSlots.length) (he : s.qEntry? pos = some e)
    (hl : e.list = false) (hloc : e.location = some n) (hp : s.isPresent n = true) :
    s.takeEntry i pos e = (s.taken i pos e).beginOffer i n := by
  simp [takeEntry_eq hi he, hl, hloc, hp]

theorem takeEntry_unlocated (hi : i < s.deliv.outSlots.length) (he : s.qEntry? pos = some e)
    (hl : e.list = false) (hloc : e.location = none ∨ ∃ n, e.location = some n ∧ s.isPresent n = false) :
    s.takeEntry i pos e = (s.taken i pos e).beginLocate i e.target := by
  rcases hloc with hloc | ⟨n, hloc, hp⟩
  · simp [takeEntry_eq hi he, hl, hloc]
  · simp [takeEntry_eq hi he, hl, hloc, hp]

/-- The locate of an entry just taken finds the slot as it stands (R141). -/
theorem taken_onOut_locating (hi : i < s.deliv.outSlots.length) : (s.taken i pos e).onOut i (fun o => { o with
    state := .locating, dest := none, seek := none, timer := none, wants := none }) = s.taken i pos e := by
  refine onOut_self ?_
  rw [taken_outSlot hi]
  rfl

/-- A locate that finds a route: it becomes the most recently used, and the entry is offered there (R140). -/
theorem taken_beginLocate_hit {a b : List (Nat × Nat)} {ext n : Nat} (hi : i < s.deliv.outSlots.length)
    (he : s.qEntry? pos = some e) (h : s.deliv.routes = a ++ (ext, n) :: b)
    (hone : ∀ y ∈ a ++ b, y.1 ≠ ext) :
    (s.taken i pos e).beginLocate i ext = ({ s.taken i pos e with deliv := { (s.taken i pos e).deliv with
      queue := s.deliv.queue.set pos (some { e with carried := true, location := some n })
      routes := ((ext, n) :: (a ++ b)).take 256 } } : State).beginOffer i n := by
  obtain ⟨hroute, hrest : s.deliv.routes.filter (fun r => r.1 != ext) = a ++ b⟩ :=
    routeOf_of_split (s := s.taken i pos e) h hone
  have hslot : ((s.taken i pos e).useRoute ext n).outSlot i = .taken pos (s.newTag i) :=
    taken_outSlot (e := e) hi
  have hentry : ((s.taken i pos e).useRoute ext n).qEntry? pos = some { e with carried := true } :=
    taken_qEntry? (i := i) he
  have hlocated : ((s.taken i pos e).useRoute ext n).locateAt i n =
      { s.taken i pos e with deliv := { (s.taken i pos e).deliv with
        queue := s.deliv.queue.set pos (some { e with carried := true, location := some n })
        routes := ((ext, n) :: (a ++ b)).take 256 } } := by
    rw [State.locateAt, hslot, OutSlot.taken, onQ_eq hentry]
    simp only [State.useRoute, State.onDeliv, State.taken, List.set_set, hrest]
    rfl
  unfold State.beginLocate
  dsimp only
  rw [taken_onOut_locating hi, hroute, ← hlocated]

/-- A locate that finds none sends a SEEK under the next seek number (R141). -/
theorem taken_beginLocate_miss {ext q : Nat} (hi : i < s.deliv.outSlots.length)
    (hq : q = nextSeek s.deliv.seekCounter) (h : ∀ y ∈ s.deliv.routes, y.1 ≠ ext) :
    (s.taken i pos e).beginLocate i ext = ({ s.taken i pos e with deliv := { (s.taken i pos e).deliv with
      seekCounter := q
      outSlots := s.deliv.outSlots.set i { OutSlot.taken pos (s.newTag i) with
        seek := some ⟨q, ext, none⟩, seekCount := 1 } } } : State).callFrame i
      ⟨s.cfg.node, 31, s.newTag i, .seek q ext⟩ := by
  subst hq
  have hroute := routeOf_of_none (s := s.taken i pos e) h
  have hlen : i < (s.taken i pos e).deliv.outSlots.length := by
    simpa [State.taken] using hi
  have hset : ∀ f, (s.taken i pos e).onOut i f = (s.taken i pos e).onDeliv fun d => { d with
      outSlots := s.deliv.outSlots.set i (f (.taken pos (s.newTag i))) } := fun f => by
    rw [onOut_eq hlen, taken_outSlot hi]
    simp only [State.taken, State.onDeliv, List.set_set]
  have hsought : (((s.taken i pos e).onDeliv fun d => { d with
      seekCounter := nextSeek s.deliv.seekCounter }).onOut i fun o => { o with
        seek := some ⟨nextSeek s.deliv.seekCounter, ext, none⟩, seekCount := 1 }) =
      { s.taken i pos e with deliv := { (s.taken i pos e).deliv with
        seekCounter := nextSeek s.deliv.seekCounter
        outSlots := s.deliv.outSlots.set i { OutSlot.taken pos (s.newTag i) with
          seek := some ⟨nextSeek s.deliv.seekCounter, ext, none⟩, seekCount := 1 } } } := by
    exact congrArg (fun t : State => t.onDeliv fun d => { d with
      seekCounter := nextSeek s.deliv.seekCounter }) (hset _)
  unfold State.beginLocate
  dsimp only
  rw [taken_onOut_locating hi, hroute]
  dsimp only
  rw [show (s.taken i pos e).deliv.seekCounter = s.deliv.seekCounter from rfl, hsought]
  congr 1
  simp [State.seekFrame, State.frameTo, State.outSlot, List.getElem?_set_self hi, OutSlot.taken, State.taken, Config.allNodes]

end

end Sys2Proof.Machine

namespace Sys2Proof.Proofs

open Sys2Proof Sys2Proof.Machine

/-- Settles O54: by induction on the list both choices are a least element of a total preorder; a dispatch is one
turn of its loop, and the slot taken is read back through the rules of queue and slots. -/
theorem firstInOrderIsTaken : Obligations.FirstInOrderIsTaken := by
  refine ⟨⟨fun l x => nextFrame_eq_some, fun l => nextFrame_eq_none, fun l p e h => ?_, fun l h x hx => ?_⟩,
    fun rank ho hi ha hh x y => ?_, QEntry.before_iff, fun s => ⟨dispatch_of_mode, fun _ => dispatch_of_none,
      fun i pos e hm hf he => ⟨fun hl hp => ?_, fun hp => ⟨?_, newTag_spec⟩⟩⟩,
    fun s i next hnext => ⟨freeOut_eq_some_iff, fun h => ?_, fun h htag => ?_⟩,
    fun s i n e x hi he hx => ?_, fun s u i pos q e hi he hu hq => ⟨fun n hl hn => ?_, fun n hl hloc hp => ?_,
      fun hl hloc => ⟨fun a n b hroutes hone => ?_, fun hnone => ?_⟩⟩⟩
  · obtain ⟨-, hget, hel, hfirst⟩ := firstEligible_eq_some h
    obtain ⟨hcarried, hnot⟩ := (QEntry.eligible_iff e).1 hel
    exact ⟨hget, hcarried, hnot, fun x hx hc hb => hfirst x hx ((QEntry.eligible_iff x).2 ⟨hc, hb⟩)⟩
  · have hnot := firstEligible_eq_none h x hx
    simpa [QEntry.eligible, Option.isSome_iff_ne_none, or_iff_not_imp_left] using hnot
  · rw [SendItem.before_iff, requesterRank_unique ho hi ha hh, requesterRank_unique ho hi ha hh]
  · rw [dispatch_of_first hm hf he, if_pos (listUnreached_iff.2 ⟨hl, hp⟩)]
  · rw [dispatch_of_first hm hf he, if_neg]
    rw [listUnreached_iff]
    rintro ⟨hl, hnot⟩
    rcases hp with hp | hp
    · simp [hl] at hp
    · simp [hnot] at hp
  · subst hnext
    exact newTag_of_apart h
  · subst hnext
    exact newTag_of_clash h htag
  · rw [beginOffer_eq hi he, offerFrame_eq (s := s.onOut i _) (x := x) hx, State.outSlot_onOut_same s _ hi]
    rfl
  · subst hu
    have hnode : e.node.getD 0 = n := by simp [hn]
    rw [takeEntry_eq hi he, if_pos hl, hnode]
    rfl
  · subst hu
    exact takeEntry_located hi he hl hloc hp
  · subst hu
    exact (takeEntry_unlocated hi he hl hloc).trans (taken_beginLocate_hit hi he hroutes hone)
  · subst hu
    exact (takeEntry_unlocated hi he hl hloc).trans (taken_beginLocate_miss hi hq hnone)

end Sys2Proof.Proofs

/-! PROOF. The send list, the Controller's timers, and what a LOST frame does (R120, R124, R128-R134). -/

namespace Sys2Proof.Machine

section
variable {s : State} {r : Requester} {f : Frame} {i n : Nat}

/-! ### Handing a frame (R120) -/

theorem hasFrame_eq_false_iff : s.hasFrame r = false ↔ ∀ x ∈ s.link.sendList, x.req ≠ r := by
  simp [State.hasFrame]

theorem hasFrame_of_empty (h : s.link.sendList = []) : s.hasFrame r = false :=
  hasFrame_eq_false_iff.2 fun x hx => by simp [h] at hx

theorem sendingStopped_iff : s.sendingStopped = true ↔
    s.link.state = .muted ∨ s.link.state = .faulted ∨ s.mode = .stopped ∨ s.mode = .halted := by
  simp [State.sendingStopped, or_assoc]

/-- The frame a requester hands, as it joins the send list. -/
def State.item (s : State) (r : Requester) (f : Frame) (urgent : Bool) : SendItem :=
  ⟨r, f, bodyPriority urgent f.body, s.link.moment, 0, 0, none⟩

/-- The node with a frame of a requester in the send list. -/
def State.joined (s : State) (r : Requester) (f : Frame) (urgent : Bool) : State :=
  s.onLink fun l => { l with sendList := l.sendList ++ [s.item r f urgent] }

theorem hand_joins (u : Bool) (hr : s.hasFrame r = false) (hs : s.sendingStopped = false) :
    s.hand r f u = (none, s.joined r f u) := by
  rw [State.hand, if_neg (by simp [hr]), if_neg (by simp [hs])]
  rfl

theorem hand_lost (u : Bool) (hr : s.hasFrame r = false) (hs : s.sendingStopped = true) :
    s.hand r f u = (some .lost, s) := by
  rw [State.hand, if_neg (by simp [hr]), if_pos hs]

theorem handIgnoring_joins (hr : s.hasFrame r = false) (hs : s.sendingStopped = false) :
    s.handIgnoring r f = s.joined r f false := by rw [State.handIgnoring, hand_joins false hr hs]

/-! ### A frame that an outbound slot calls for (R144) -/

theorem callFrame_waits (h : s.hasFrame (.outSlot i) = true) :
    s.callFrame i f = s.onOut i fun o => { o with wants := some f } := if_pos h

theorem callFrame_joins (hr : s.hasFrame (.outSlot i) = false) (hs : s.sendingStopped = false) :
    s.callFrame i f = s.joined (.outSlot i) f (s.slotUrgent i) := by
  rw [State.callFrame, if_neg (by simp [hr]), hand_joins _ hr hs]

theorem callFrame_lost (hr : s.hasFrame (.outSlot i) = false) (hs : s.sendingStopped = true) :
    s.callFrame i f = s.endTransfer i .retry := by
  rw [State.callFrame, if_neg (by simp [hr]), hand_lost _ hr hs]

/-! ### Outcomes -/

/-- The answer queue empties where every answer is LOST at once (R120, R142). -/
theorem pumpAnswers_lost {k : Nat} (hr : s.hasFrame .answers = false) (hs : s.sendingStopped = true)
    (hk : s.deliv.answers.length ≤ k) :
    State.pumpAnswers k s = { s with deliv := { s.deliv with answers := [] } } := by
  induction k generalizing s with
  | zero =>
    have hempty : s.deliv.answers = [] := List.length_eq_zero_iff.1 (Nat.le_zero.1 hk)
    rw [State.pumpAnswers, ← hempty]
  | succ k ih =>
    cases ha : s.deliv.answers with
    | nil =>
      simp only [State.pumpAnswers, ha]
      rw [← ha]
    | cons f rest =>
      have hrest : rest.length ≤ k := by simpa [ha] using hk
      simp only [State.pumpAnswers, ha, hr, hand_lost false hr hs]
      exact ih (s := s.onDeliv fun d => { d with answers := rest }) hr hs hrest

theorem slotOutcome_failed {x : Tx} (hx : x ≠ .sent) (hfree : (s.outSlot i).state ≠ .free)
    (hfin : (s.outSlot i).state ≠ .finishing) : s.slotOutcome i x = s.endTransfer i .retry := by
  cases hst : (s.outSlot i).state with
  | free => exact absurd hst hfree
  | finishing => exact absurd hst hfin
  | locating => simp [State.slotOutcome, hst, hx]
  | offering => simp [State.slotOutcome, hst, hx]
  | carrying => simp [State.slotOutcome, hst, hx]
  | closing => simp [State.slotOutcome, hst, hx]

theorem slotOutcome_free {x : Tx} (h : (s.outSlot i).state = .free) : s.slotOutcome i x = s := by
  simp [State.slotOutcome, h]

theorem slotOutcome_finishing {x : Tx} (h : (s.outSlot i).state = .finishing) :
    s.slotOutcome i x = s.onOut i fun _ => OutSlot.blank := by
  simp [State.slotOutcome, h]

theorem outBack_of_none {x : Tx} (h : (s.outSlot i).wants = none) :
    s.outBack i x = (s.slotOutcome i x).dispatch := by
  simp only [State.outBack, h]

theorem outBack_of_some {x : Tx} (h : (s.outSlot i).wants = some f) :
    s.outBack i x = ((s.onOut i fun o => { o with wants := none }).callFrame i f).dispatch := by
  simp only [State.outBack, h]

/-! ### Presence (R128, R131) -/

theorem presence_onPresence_same {p : Presence} (f : Presence → Presence) (h : s.presence n = p)
    (hp : p.present = true) : (s.onPresence n f).presence n = f p := by
  subst h
  unfold State.presence at hp ⊢
  unfold State.onPresence
  by_cases hn : n = 0
  · simp [hn, Presence.blank] at hp
  · simp only [hn, if_false, State.onLink_link, List.getElem?_modify_eq] at hp ⊢
    cases hget : s.link.presence[n - 1]? with
    | none => simp [hget, Presence.blank] at hp
    | some p => rfl

/-- A node found absent (R131): its entry, its routes and the entries located at it. -/
theorem markAbsent_of_present {g : Option Nat} {a : Timer} (h : s.presence n = ⟨true, g, a⟩) :
    (s.markAbsent n).presence n = ⟨false, g, none⟩ ∧
      (s.markAbsent n).deliv = ((s.purgeRoutes n).unlocate n).deliv ∧
      (s.markAbsent n).link.sendList = s.link.sendList := by
  have hp : s.isPresent n = true := by rw [State.isPresent, h]
  have hsame : (s.onPresence n fun p => { p with present := false, absence := none }).presence n =
      ⟨false, g, none⟩ := presence_onPresence_same _ h rfl
  have hdeliv : (s.onPresence n fun p => { p with present := false, absence := none }).deliv = s.deliv := by
    rw [onPresence_eq]
  have hlist : (s.onPresence n fun p => { p with present := false, absence := none }).link.sendList =
      s.link.sendList := by
    unfold State.onPresence
    split <;> rfl
  rw [State.markAbsent, if_pos hp]
  dsimp only
  split <;> refine ⟨(State.presence_congr rfl n).trans hsame, ?_, hlist⟩ <;>
    simp only [State.unlocate, State.purgeRoutes, State.onDeliv_deliv, State.onLink_deliv, hdeliv]

/-- No waiting entry is located at a node whose absence is known (R131). -/
theorem unlocate_location {p : Nat} {e : QEntry} (h : (s.unlocate n).qEntry? p = some e)
    (hc : e.carried = false) : e.location ≠ some n := by
  have hget : (s.unlocate n).deliv.queue[p]? = some (some e) := Option.join_eq_some_iff.1 h
  simp only [State.unlocate, State.onDeliv_deliv, List.getElem?_map, Option.map_eq_some_iff] at hget
  obtain ⟨q, -, x, -, rfl⟩ := hget
  split
  · simp
  · rename_i hx
    intro hloc
    simp_all

end

end Sys2Proof.Machine

namespace Sys2Proof.Proofs

open Sys2Proof Sys2Proof.Machine

/-- Settles O53: each timer is its act's equation; in a link that takes no frame, a frame that is called for and each
next answer are LOST at once. -/
theorem linkTimersAndMediumFaults : Obligations.LinkTimersAndMediumFaults := by
  refine ⟨fun s => ⟨fun g ht hg hl hm hnone => ?_, fun ht => ?_, fun hl ht => ?_, fun n g hn hn' hp hm => ?_⟩,
    fun s hstop hhalt => ⟨fun hl => ?_, fun hl => ?_⟩, fun s hl hempty => ⟨rfl, fun j => rfl, fun ha => ?_,
      fun i => ⟨fun f hw => ?_, fun hw => ⟨fun hf => ?_, fun hf => ?_, fun hf hfin => ?_⟩⟩⟩⟩
  · change execHailTimerExpiry s = _
    have hstopped : (s.onLink fun l => { l with hailTimer := some Config.hailTime }).sendingStopped = false := by
      rw [Bool.eq_false_iff, ne_eq, sendingStopped_iff]
      simp [hl, hm]
    have hframe : (s.onLink fun l => { l with hailTimer := some Config.hailTime }).hasFrame .hail = false :=
      hasFrame_eq_false_iff.2 hnone
    rw [execHailTimerExpiry, if_pos ht, State.hailDue]
    dsimp only
    rw [show (s.onLink fun l => { l with hailTimer := some Config.hailTime }).generation = some g from hg]
    dsimp only
    rw [if_neg (by simp [hframe]), handIgnoring_joins hframe hstopped]
    rfl
  · change execAloneTimerExpiry s = _
    rw [execAloneTimerExpiry, if_pos ht]
    rfl
  · change execJoinTimerExpiry s = _
    rw [execJoinTimerExpiry, if_pos (by simp [hl, ht])]
    rfl
  · have hdue : s.absenceDue n = true := by simp [State.absenceDue, State.isPresent, hp, hm]
    have hmode : (s.markAbsent n).mode ≠ .draining := by
      rw [markAbsent_eq]
      simp [hm]
    obtain ⟨hself, hdeliv, hlist⟩ := markAbsent_of_present hp
    refine ⟨(s.markAbsent n).settle, ?_, ?_, fun m hne => ?_, ?_, fun p e he hc => ?_, ?_, ?_, ?_⟩
    · change execPresenceTimeout n s = _
      rw [execPresenceTimeout, if_pos hdue]
      rfl
    · rw [settle_eq _ hmode]
      exact (State.presence_congr rfl n).trans hself
    · rw [settle_eq _ hmode]
      exact (State.presence_congr rfl m).trans (markAbsent_presence_ne s hne)
    · rw [settle_eq _ hmode]
      exact congrArg Delivery.routes hdeliv
    · rw [settle_eq _ hmode] at he
      refine unlocate_location (s := s.purgeRoutes n) (p := p) ?_ hc
      rw [← he]
      exact congrArg (fun d : Delivery => (d.queue[p]?).join) hdeliv.symm
    · rw [settle_eq _ hmode]
      exact hlist
    · rw [settle_chans, markAbsent_eq]
    · rw [settle_store, markAbsent_eq]
  · change execMediumDominantFault s = _
    have hhears : (s.hears && s.link.state != .muted) = true := by
      rcases hl with hl | hl <;> simp [State.hears, hl, hstop, hhalt]
    rw [execMediumDominantFault, if_pos hhears]
    have hlatch : (s.latch .linkFault).link = s.link := latch_link s _
    rw [State.enterFaulted, State.silence, State.emptySendList]
    simp only [State.stopAlone, State.onLink_link, hlatch]
    rfl
  · change execMediumRecessiveRecovery s = _
    rw [execMediumRecessiveRecovery, if_pos (by simp [hl, hstop, hhalt])]
    rfl
  all_goals
    have hstopped : s.sendingStopped = true := sendingStopped_iff.2 (by tauto)
  · exact pumpAnswers_lost (s := s.onDeliv fun d => { d with answers := d.answers.tail })
      (hasFrame_of_empty hempty) hstopped 
      (show s.deliv.answers.tail.length ≤ 9 by rw [List.length_tail]; omega)
  · exact (outBack_of_some hw).trans (congrArg _ (callFrame_lost (s := s.onOut i _) (hasFrame_of_empty hempty) hstopped))
  · exact (outBack_of_none hw).trans (congrArg _ (slotOutcome_free hf))
  · exact (outBack_of_none hw).trans (congrArg _ (slotOutcome_finishing hf))
  · exact (outBack_of_none hw).trans (congrArg _ (slotOutcome_failed (by simp) hf hfin))

end Sys2Proof.Proofs

/-! PROOF. Sending: what ends a transmission, and what each outcome does (R120-R124, R144-R148). -/

namespace Sys2Proof.Machine

section
variable {s t v : State} {r : Requester} {f : Frame} {i n : Nat}

/-! ### A refresh (R128) and the send list -/

theorem refresh_eq (n : Nat) : s.refresh n = if s.isPresent n then
    s.onPresence n fun p => { p with present := true, absence := some 30000 }
    else ({ s with
      link := { s.link with aloneTimer := none, alone := false }
      deliv := { s.deliv with routes := s.deliv.routes.filter fun r => r.2 != n } } : State).onPresence n
        fun p => { p with present := true, absence := some 30000 } := by
  unfold State.refresh
  dsimp only
  split
  · rfl
  · unfold State.onPresence
    split <;> rfl

theorem refreshedTo_iff : s.RefreshedTo n v ↔ v = s.refresh n := by
  rw [State.RefreshedTo, refresh_eq]
  cases s.isPresent n <;> simp

/-- A change of the send list, by a function of the list. -/
def State.onSendList (s : State) (g : List SendItem → List SendItem) : State :=
  s.onLink fun l => { l with sendList := g l.sendList }

theorem refresh_onSendList (g : List SendItem → List SendItem) :
    (s.onSendList g).refresh n = (s.refresh n).onSendList g := by
  rw [refresh_eq, refresh_eq, show (s.onSendList g).isPresent n = s.isPresent n from rfl]
  unfold State.onPresence
  split <;> split <;> rfl

/-- The alone timer starts when no node is present in ACTIVE (R132). -/
def State.aloneCheck (s : State) : State :=
  if s.presentCount = 0 && s.link.state == .active then
    s.onLink fun l => { l with aloneTimer := some Config.aloneTime }
  else s

theorem aloneCheck_onSendList (g : List SendItem → List SendItem) :
    (s.onSendList g).aloneCheck = s.aloneCheck.onSendList g := by
  unfold State.aloneCheck
  rw [show (s.onSendList g).presentCount = s.presentCount from rfl,
    show (s.onSendList g).link.state = s.link.state from rfl]
  split <;> rfl

theorem markAbsent_eq_aloneCheck (n : Nat) : s.markAbsent n = if s.isPresent n then
    (((s.onPresence n fun p => { p with present := false, absence := none }).purgeRoutes n).unlocate n).aloneCheck
    else s := rfl

theorem markAbsent_onSendList (g : List SendItem → List SendItem) :
    (s.onSendList g).markAbsent n = (s.markAbsent n).onSendList g := by
  rw [markAbsent_eq_aloneCheck, markAbsent_eq_aloneCheck, show (s.onSendList g).isPresent n = s.isPresent n from rfl]
  split
  · rw [← aloneCheck_onSendList]
    congr 1
    unfold State.onPresence
    split <;> rfl
  · rfl

theorem markAbsent_isPresent : (s.markAbsent n).isPresent n = false := by
  cases hp : s.isPresent n with
  | false => rw [markAbsent_of_absent s hp, hp]
  | true =>
    have hentry : s.presence n = ⟨true, (s.presence n).generation, (s.presence n).absence⟩ := by
      cases hpres : s.presence n with
      | mk p g a =>
        rw [State.isPresent, hpres] at hp
        rw [show p = true from hp]
    rw [State.isPresent, (markAbsent_of_present hentry).1]

theorem refresh_deliv : (s.refresh n).deliv = { s.deliv with routes := (s.refresh n).deliv.routes } := by
  rw [refresh_eq]
  split <;> unfold State.onPresence <;> split <;> rfl

theorem refresh_outSlot : (s.refresh n).outSlot i = s.outSlot i := by
  rw [State.outSlot, refresh_deliv]
  rfl

theorem markAbsent_slots : (s.markAbsent n).deliv.outSlots = s.deliv.outSlots ∧
    (s.markAbsent n).deliv.inSlots = s.deliv.inSlots := by
  unfold State.markAbsent State.onPresence
  split
  · split <;> dsimp only <;> split <;> exact ⟨rfl, rfl⟩
  · exact ⟨rfl, rfl⟩

theorem markAbsent_outSlot : (s.markAbsent n).outSlot i = s.outSlot i := by
  rw [State.outSlot, markAbsent_slots.1]
  rfl

theorem markAbsent_link : (s.markAbsent n).link.muteCount = s.link.muteCount ∧
    (s.markAbsent n).link.sendList = s.link.sendList := by
  unfold State.markAbsent State.onPresence
  split
  · split <;> dsimp only <;> split <;> exact ⟨rfl, rfl⟩
  · exact ⟨rfl, rfl⟩

/-! ### The end of a transmission (R122, R123) -/

/-- The node as its frame has been sent to its end. -/
def State.sentOut (s : State) : State :=
  s.onLink fun l => { l with transmitting := none, muteCount := 0 }

/-- The node as the frame of a requester has been sent to its end and has left the list. -/
def State.takenOut (s : State) (r : Requester) : State :=
  s.sentOut.onSendList fun l => l.filter fun y => y.req != r

theorem exec_transmissionEnd {x : SendItem} (reading : SlotReading) (ht : s.link.transmitting = some x.req)
    (hx : s.link.itemOf x.req = some x) :
    exec (.transmissionEnd reading) s = .next (s.sentWell x reading).settle := by
  change execTransmissionEnd reading s = _
  unfold execTransmissionEnd
  rw [ht, Option.bind_some, hx]
  rfl

/-- A decided frame of a node whose destination has been refreshed (log 44). -/
theorem decideFrame_refresh {x : Tx} : (s.sentOut.refresh n).decideFrame r x = ((s.takenOut r).refresh n).txBack r x := by
  rw [State.takenOut, refresh_onSendList]
  rfl

section
variable {x : SendItem}

theorem sentWell_all (reading : SlotReading) (h : x.frame.dest = 31) :
    s.sentWell x reading = (s.takenOut x.req).txBack x.req .sent := if_pos h

theorem sentWell_accept (h : x.frame.dest ≠ 31) :
    s.sentWell x .accept = ((s.takenOut x.req).refresh x.frame.dest).txBack x.req .sent :=
  (if_neg h).trans decideFrame_refresh

theorem sentWell_refuse (h : x.frame.dest ≠ 31) :
    s.sentWell x .refuse = ((s.takenOut x.req).refresh x.frame.dest).txBack x.req .refused :=
  (if_neg h).trans decideFrame_refresh

theorem sentWell_congested (h : x.frame.dest ≠ 31) (hb : 32 ≤ x.busy) :
    s.sentWell x .busy = ((s.takenOut x.req).refresh x.frame.dest).txBack x.req .congested :=
  (if_neg h).trans ((if_pos (Nat.lt_succ_of_le hb)).trans decideFrame_refresh)

theorem sentWell_busy (h : x.frame.dest ≠ 31) (hb : x.busy < 32) :
    s.sentWell x .busy = (s.sentOut.onSendList fun l => l.map fun y =>
      if y.req = x.req then { y with busy := y.busy + 1, wait := some 5 } else y).refresh x.frame.dest := by
  rw [refresh_onSendList]
  exact (if_neg h).trans (if_neg (by show ¬ 32 < x.busy + 1; omega))

theorem sentWell_silence (h : x.frame.dest ≠ 31) (hs : x.silence < 3) :
    s.sentWell x .silence = s.sentOut.onSendList fun l => l.map fun y =>
      if y.req = x.req then { y with silence := y.silence + 1 } else y :=
  (if_neg h).trans (if_neg (by show ¬ 3 < x.silence + 1; omega))

theorem sentWell_silent (h : x.frame.dest ≠ 31) (hs : x.silence = 3) :
    s.sentWell x .silence = ((s.takenOut x.req).markAbsent x.frame.dest).txBack x.req .lost := by
  rw [State.takenOut, markAbsent_onSendList]
  exact (if_neg h).trans (if_pos (by show 3 < x.silence + 1; omega))

end

/-! ### Bit errors (R122) -/

theorem latch_onLink (a : Alarm) (g : LinkCtl → LinkCtl) : (s.onLink g).latch a = (s.latch a).onLink g := by
  unfold State.latch
  rw [show (s.onLink g).alarms = s.alarms from rfl]
  split <;> rfl

/-- A bit error seen, the mute count raised (R122). -/
def State.errorSeen (s : State) : State :=
  s.onLink fun l => { l with transmitting := none, muteCount := l.muteCount + 1 }

theorem bitErrorSeen_few (h : s.link.muteCount < 2) : s.bitErrorSeen = s.errorSeen :=
  if_neg (show ¬ 3 ≤ s.link.muteCount + 1 by omega)

theorem bitErrorSeen_third (h : 2 ≤ s.link.muteCount) : s.bitErrorSeen = s.errorSeen.enterMuted :=
  if_pos (show 3 ≤ s.link.muteCount + 1 by omega)

/-- The link enters MUTED with every frame of its list LOST (R124, R135). -/
theorem enterMuted_eq : s.enterMuted = s.link.sendList.foldl (fun t y => t.txBack y.req .lost)
    ((s.latch .duplicateNode).onLink fun l => { l with
      state := .muted, joinTimer := none, hailTimer := none, aloneTimer := none, alone := false
      sendList := [], transmitting := none }) := by
  rw [State.enterMuted, State.silence, State.emptySendList]
  simp only [State.stopAlone, State.onLink_link, latch_link]
  rfl

/-! ### What an outcome does (R141, R145, R147, R148) -/

theorem slotOutcome_sent_locating (h : (s.outSlot i).state = .locating) :
    s.slotOutcome i .sent = s.onOut i fun o => { o with timer := some 400 } := by
  simp only [State.slotOutcome, h]
  rfl

theorem slotOutcome_sent_waiting (h : (s.outSlot i).state = .offering ∨ (s.outSlot i).state = .closing) :
    s.slotOutcome i .sent = s.onOut i fun o => { o with timer := some 1000 } := by
  rcases h with h | h <;> simp only [State.slotOutcome, h] <;> rfl

theorem slotOutcome_sent_carrying (h : (s.outSlot i).state = .carrying) :
    s.slotOutcome i .sent = (s.onOut i fun o => { o with nextIndex := o.nextIndex + 1 }).carryOn i := by
  simp only [State.slotOutcome, h]
  rfl

end

end Sys2Proof.Machine

namespace Sys2Proof.Proofs

open Sys2Proof Sys2Proof.Machine

/-- Settles O55: the frame leaves the list, and the list does not meet the refresh, so the outcome is handed back in
the state the refresh gives; each outcome of a slot is its state's row. -/
theorem framesAreSentToTheirOutcome : Obligations.FramesAreSentToTheirOutcome := by
  refine ⟨fun s x => ⟨fun hl hm ht hx => ?_, fun ht => ?_, fun ht hc => ?_, fun ht hc => ?_,
      fun ht hx hd => ⟨fun hs => ?_, fun v hb hv => ?_⟩, fun hx hw => ?_⟩,
    fun s x ht hx => ⟨fun r hr hd => ?_, fun j r v hr hd hread hv => ?_, fun j hr hd hd' hs hm => ?_⟩,
    fun s i f urgent hu => ⟨fun hf => ?_, fun hf => ⟨fun hl => ?_, fun hl hstop hhalt => ?_⟩⟩,
    fun s i n e x he hx hd => ⟨fun b hlt hb => ?_, fun hle => ?_⟩,
    fun s u v x i r ht hx hr hu hv => ⟨fun hread => ?_, fun hd hw hfree hfin => ?_⟩⟩
  · change execMediumIdle s = _
    rw [execMediumIdle, if_pos (by simp [State.maySend, hl, hm, ht]), hx]
    rfl
  · change execArbitrationLost s = _
    rw [execArbitrationLost, if_pos ht]
    rfl
  · change execBitError s = _
    rw [execBitError, if_pos ht, bitErrorSeen_few hc]
    rfl
  · change execBitError s = _
    rw [execBitError, if_pos ht, bitErrorSeen_third hc, enterMuted_eq, State.errorSeen, latch_onLink]
    rfl
  · rw [exec_transmissionEnd _ ht hx, sentWell_silence hd hs]
    rfl
  · rw [exec_transmissionEnd _ ht hx, sentWell_busy hd hb, refreshedTo_iff.1 hv]
    rfl
  · change execBusyWaitExpiry x.req s = _
    unfold execBusyWaitExpiry
    rw [hx]
    dsimp only
    rw [if_pos hw]
    rfl
  · rw [exec_transmissionEnd _ ht hx, sentWell_all r hd, hr]
    rfl
  · have hback : s.sentWell x r = (s.takenOut (.inSlot j)).refresh x.frame.dest := by
      rcases hread with rfl | rfl | ⟨rfl, hb⟩
      · rw [sentWell_accept hd, hr]
        rfl
      · rw [sentWell_refuse hd, hr]
        rfl
      · rw [sentWell_congested hd hb, hr]
        rfl
    rw [exec_transmissionEnd _ ht hx, hback, refreshedTo_iff.1 hv]
    rfl
  · have hback : s.sentWell x .silence = (s.takenOut (.inSlot j)).markAbsent x.frame.dest := by
      rw [sentWell_silent (by omega) hs, hr]
      rfl
    have hmode : ((s.takenOut (.inSlot j)).markAbsent x.frame.dest).mode ≠ .draining := by
      rw [markAbsent_eq]
      simp [State.takenOut, State.sentOut, State.onSendList, hm]
    have hcommutes : (s.takenOut (.inSlot j)).markAbsent x.frame.dest = _ :=
      markAbsent_onSendList (s := s.sentOut) _
    have hlink : (s.sentOut.markAbsent x.frame.dest).link.muteCount = 0 ∧
        (s.sentOut.markAbsent x.frame.dest).link.sendList = s.link.sendList := markAbsent_link
    refine ⟨_, exec_transmissionEnd _ ht hx, ?_⟩
    rw [hback, settle_chans, settle_store, settle_eq _ hmode]
    refine ⟨(congrArg Presence.present (State.presence_congr rfl _)).trans markAbsent_isPresent, ?_, ?_,
      markAbsent_slots.2, ?_, ?_⟩
    · rw [hcommutes]
      exact hlink.1
    · rw [hcommutes]
      exact congrArg (List.filter _) hlink.2
    · rw [markAbsent_eq]
      rfl
    · rw [markAbsent_eq]
      rfl
  · exact callFrame_waits (by simpa [State.hasFrame] using hf)
  · exact callFrame_lost (hasFrame_eq_false_iff.2 hf) (sendingStopped_iff.2 hl)
  · have hrun : s.sendingStopped = false := by
      rw [Bool.eq_false_iff, ne_eq, sendingStopped_iff]
      rcases hl with hl | hl <;> simp [hl, hstop, hhalt]
    have hurgent : s.slotUrgent i = urgent := hu.symm
    refine ⟨bodyPriority urgent f.body, ?_, fun num ext hb => ?_, fun o hb => ?_, fun idx seg hb => ?_, fun c hb => ?_⟩
    · rw [callFrame_joins (hasFrame_eq_false_iff.2 hf) hrun, hurgent]
      rfl
    all_goals rw [hb, bodyPriority]
  · unfold State.carryOn
    rw [he]
    dsimp only
    rw [hx]
    dsimp only
    rw [if_pos hlt, hd, State.segmentOf, hb]
    rfl
  · unfold State.carryOn
    rw [he]
    dsimp only
    rw [hx]
    dsimp only
    rw [if_neg (Nat.not_lt.2 hle), hd]
    rfl
  all_goals
    have hslot : v.outSlot i = s.outSlot i := by
      rcases hv with ⟨-, rfl⟩ | ⟨-, hv⟩
      · rw [hu]
        rfl
      · rw [refreshedTo_iff.1 hv, refresh_outSlot, hu]
        rfl
    have htaken : s.takenOut x.req = u := by
      rw [hr, hu]
      rfl
  · have hsent : s.sentWell x r = v.outBack i .sent := by
      rcases hv with ⟨hd, rfl⟩ | ⟨hd, hv⟩
      · rw [sentWell_all r hd, htaken, hr]
        rfl
      · rw [hread.resolve_left hd, sentWell_accept hd, htaken, ← refreshedTo_iff.1 hv, hr]
        rfl
    have hexec : exec (.transmissionEnd r) s = .next (v.outBack i .sent).settle := by
      rw [exec_transmissionEnd _ ht hx, hsent]
    rw [hexec]
    refine ⟨fun f hf => by rw [outBack_of_some (hslot ▸ hf)], fun hf => ?_⟩
    rw [outBack_of_none (hslot ▸ hf)]
    refine ⟨fun h => ?_, fun h => ?_, fun h => ?_, fun h => ?_⟩
    · rw [slotOutcome_finishing (hslot ▸ h)]
    · rw [slotOutcome_sent_locating (hslot ▸ h)]
    · rw [slotOutcome_sent_waiting (hslot ▸ h)]
    · rw [slotOutcome_sent_carrying (hslot ▸ h)]
  · have hfresh : v = u.refresh x.frame.dest :=
      hv.elim (fun h => absurd h.1 hd) fun h => refreshedTo_iff.1 h.2
    refine ⟨fun hread => ?_, fun hread hs => ?_⟩
    · obtain ⟨y, hy, hfails⟩ : ∃ y, y ≠ Tx.sent ∧ s.sentWell x r = v.outBack i y := by
        rcases hread with rfl | ⟨rfl, hb⟩
        · refine ⟨.refused, by simp, ?_⟩
          rw [sentWell_refuse hd, htaken, ← hfresh, hr]
          rfl
        · refine ⟨.congested, by simp, ?_⟩
          rw [sentWell_congested hd hb.ge, htaken, ← hfresh, hr]
          rfl
      rw [exec_transmissionEnd _ ht hx, hfails, outBack_of_none (hslot ▸ hw),
        slotOutcome_failed hy (hslot ▸ hfree) (hslot ▸ hfin)]
    · have hgone : (u.markAbsent x.frame.dest).outSlot i = s.outSlot i := by
        rw [markAbsent_outSlot, hu]
        rfl
      have hlost : s.sentWell x .silence = (u.markAbsent x.frame.dest).outBack i .lost := by
        rw [sentWell_silent hd hs, htaken, hr]
        rfl
      rw [hread, exec_transmissionEnd _ ht hx, hlost, outBack_of_none (hgone ▸ hw),
        slotOutcome_failed (by simp) (hgone ▸ hfree) (hgone ▸ hfin)]

end Sys2Proof.Proofs

/-! PROOF. Frames heard: the refresh of their source, the verdict of their kind, and the buffer (R125-R127, R152). -/

namespace Sys2Proof.Machine

section
variable {s t v : State} {f : Frame} {j n src tag : Nat}

/-! ### The inbound slots -/

theorem onIn_congr {g h : InSlot → InSlot} (e : g (s.inSlot j) = h (s.inSlot j)) : s.onIn j g = s.onIn j h := by
  have hmodify : s.deliv.inSlots.modify j g = s.deliv.inSlots.modify j h := modify_congr fun x hx => by
    have hslot : s.inSlot j = x := by simp [State.inSlot, hx]
    rwa [hslot] at e
  simp only [State.onIn, State.onDeliv, hmodify]

theorem onIn_self {g : InSlot → InSlot} (e : g (s.inSlot j) = s.inSlot j) : s.onIn j g = s := by
  rw [onIn_congr (h := id) e]
  simp [State.onIn, State.onDeliv, List.modify_id]

theorem onIn_onIn (g h : InSlot → InSlot) : (s.onIn j g).onIn j h = s.onIn j fun x => h (g x) := by
  simp only [State.onIn, State.onDeliv, modify_modify]

/-- The slot in use with a key (R149). -/
theorem inByKey_of_some (h : s.inByKey src tag = some j) : ∃ x, s.deliv.inSlots[j]? = some x ∧ x.state ≠ .free ∧
    x.source = src ∧ x.tag = tag := by
  obtain ⟨hj, hx, -⟩ := List.findIdx?_eq_some_iff_getElem.1 h
  simp only [Bool.and_eq_true, bne_iff_ne, beq_iff_eq, and_assoc] at hx
  exact ⟨_, List.getElem?_eq_getElem hj, hx⟩

theorem inByKey_of_none (h : s.inByKey src tag = none) : ∀ x ∈ s.deliv.inSlots,
    x.state = .free ∨ x.source ≠ src ∨ x.tag ≠ tag := by
  intro x hx
  have hnot := List.findIdx?_eq_none_iff.1 h x hx
  simp only [Bool.and_eq_false_iff, bne_eq_false_iff_eq, beq_eq_false_iff_ne, or_assoc] at hnot
  exact hnot

theorem inByKey_lt (h : s.inByKey src tag = some j) : j < s.deliv.inSlots.length := by
  obtain ⟨hj, -⟩ := List.findIdx?_eq_some_iff_getElem.1 h
  exact hj

/-! ### The outbound slots a frame belongs to (R143, R146) -/

theorem outByTag_isSome_iff : (s.outByTag src tag).isSome = true ↔
    ∃ o ∈ s.deliv.outSlots, o.state ≠ .free ∧ o.tag = tag ∧ o.dest = some src := by
  simp [State.outByTag, List.any_eq_true, and_assoc]

theorem outBySeek_isSome_iff {num ext : Nat} : (s.outBySeek num ext).isSome = true ↔
    ∃ o ∈ s.deliv.outSlots, ∃ c, o.seek = some ⟨num, ext, c⟩ := by
  rw [State.outBySeek, List.findIdx?_isSome, List.any_eq_true]
  refine exists_congr fun o => and_congr_right fun _ => ?_
  cases o.seek with
  | none => simp
  | some r =>
    cases r
    simp

/-! ### The verdict on a frame (R126, R152, R153) -/

theorem restartIdle_filling (h : (s.inSlot j).state = .filling) :
    s.restartIdle j = s.onIn j fun x => { x with idleTimer := some 3000 } :=
  onIn_congr (by rw [if_pos h]; rfl)

theorem restartIdle_other (h : (s.inSlot j).state ≠ .filling) : s.restartIdle j = s :=
  onIn_self (by rw [if_neg h])

/-- A CARRY that is accepted moves the accept index on and restarts the idle timer (R152). -/
theorem accept_restartIdle (hj : j < s.deliv.inSlots.length) (h : (s.inSlot j).state = .filling) :
    (s.onIn j fun y => { y with accept := y.accept + 1 }).restartIdle j =
      s.onIn j fun y => { y with accept := y.accept + 1, idleTimer := some 3000 } := by
  rw [restartIdle_filling (by rw [State.inSlot_onIn_same s _ hj]; exact h), onIn_onIn]

section
variable {idx : Nat}

theorem carryVerdict_none (h : s.inByKey src tag = none) : s.carryVerdict src tag idx = none := by
  simp only [State.carryVerdict, h]

theorem carryVerdict_filling (h : s.inByKey src tag = some j) (hf : (s.inSlot j).state = .filling) :
    s.carryVerdict src tag idx = if idx = (s.inSlot j).accept ∧ idx < (s.inSlot j).offered then
        some (s.onIn j fun y => { y with accept := y.accept + 1, idleTimer := some 3000 })
      else if idx < (s.inSlot j).accept then some (s.onIn j fun y => { y with idleTimer := some 3000 })
      else none := by
  simp only [State.carryVerdict, h, if_pos hf, accept_restartIdle (inByKey_lt h) hf, restartIdle_filling hf,
    Bool.and_eq_true, decide_eq_true_eq]

theorem carryVerdict_committed (h : s.inByKey src tag = some j) (hf : (s.inSlot j).state ≠ .filling) :
    s.carryVerdict src tag idx = if idx < (s.inSlot j).received then some s else none := by
  simp only [State.carryVerdict, h, if_neg hf]

end

theorem restartIdle_eq : s.restartIdle j = if (s.inSlot j).state = .filling then
    s.onIn j fun y => { y with idleTimer := some 3000 } else s := by
  split
  · exact restartIdle_filling ‹_›
  · exact restartIdle_other ‹_›

theorem verdict_close {count : Nat} (hb : f.body = .close count) (h : s.inByKey f.source f.tag = some j) :
    s.verdict f = some (if (s.inSlot j).state = .filling then
      s.onIn j fun y => { y with idleTimer := some 3000 } else s) := by
  simp only [State.verdict, hb, h, restartIdle_eq]

/-- The node as an ACCEPT leaves it hears and drives as before. -/
theorem verdict_apart (h : s.verdict f = some t) : t.link = s.link ∧ t.linkOut = s.linkOut := by
  cases hb : f.body with
  | hail g | offer o =>
    simp only [State.verdict, hb, Option.some.injEq] at h
    exact h ▸ ⟨rfl, rfl⟩
  | seek num ext => simp [State.verdict, hb] at h
  | claim num ext =>
    simp only [State.verdict, hb, Option.ite_none_right_eq_some, Option.some.injEq] at h
    exact h.2 ▸ ⟨rfl, rfl⟩
  | take | balk r | receipt r =>
    simp only [State.verdict, hb, Option.ite_none_right_eq_some, Option.some.injEq] at h
    exact h.2 ▸ ⟨rfl, rfl⟩
  | close count =>
    cases hk : s.inByKey f.source f.tag with
    | none => simp [State.verdict, hb, hk] at h
    | some j =>
      rw [verdict_close hb hk, Option.some.injEq] at h
      subst h
      split <;> exact ⟨rfl, rfl⟩
  | carry idx seg =>
    simp only [State.verdict, hb] at h
    cases hk : s.inByKey f.source f.tag with
    | none => simp [carryVerdict_none hk] at h
    | some j =>
      by_cases hf : (s.inSlot j).state = .filling
      · rw [carryVerdict_filling hk hf] at h
        split at h
        · cases h
          exact ⟨rfl, rfl⟩
        · split at h <;> cases h
          exact ⟨rfl, rfl⟩
      · rw [carryVerdict_committed hk hf] at h
        split at h <;> cases h
        exact ⟨rfl, rfl⟩

/-! ### What a refresh leaves (R128) -/

theorem refresh_frame : (s.refresh n).cfg = s.cfg ∧ (s.refresh n).link.state = s.link.state ∧
    (s.refresh n).link.buffer = s.link.buffer ∧ (s.refresh n).linkOut = s.linkOut ∧
    (s.refresh n).deliv.inSlots = s.deliv.inSlots ∧ (s.refresh n).deliv.outSlots = s.deliv.outSlots := by
  rw [refresh_eq]
  split <;> unfold State.onPresence <;> split <;> exact ⟨rfl, rfl, rfl, rfl, rfl, rfl⟩

theorem bufferFull_iff : s.bufferFull = true ↔ 8 ≤ s.link.buffer.length := decide_eq_true_iff

theorem bufferFull_eq_false_iff : s.bufferFull = false ↔ s.link.buffer.length < 8 := by
  rw [Bool.eq_false_iff, ne_eq, bufferFull_iff, Nat.not_le]

/-! ### A frame once its source has been refreshed (R125, R190) -/

variable {raw : RawFrame}

theorem dealWith_malformed (h : decodeFrame raw = none) : s.dealWith raw =
    if raw.dest.toNat = s.cfg.node ∧ s.link.state = .active then
      s.drive (.answer raw.source.toNat (if 8 ≤ s.link.buffer.length then .busy else .refuse)) else s := by
  simp [State.dealWith, h, State.refuseMalformed, bufferFull_iff]

theorem dealWith_all (h : decodeFrame raw = some f) (hd : f.dest = 31) : s.dealWith raw =
    if (s.link.state = .active ∨ isHailBody f.body = true) ∧ s.link.buffer.length < 8 then s.joinBuffer f else s := by
  simp [State.dealWith, h, hd, Config.allNodes, State.takesAll, bufferFull_eq_false_iff]

theorem dealWith_other (h : decodeFrame raw = some f) (hd : f.dest ≠ 31)
    (hmine : raw.dest.toNat ≠ s.cfg.node ∨ s.link.state ≠ .active) : s.dealWith raw = s := by
  simp only [State.dealWith, h]
  rw [if_neg (show f.dest ≠ Config.allNodes from hd), if_neg]
  simpa [imp_iff_not_or] using hmine

theorem dealWith_mine (h : decodeFrame raw = some f) (hd : f.dest ≠ 31) (hmine : raw.dest.toNat = s.cfg.node)
    (hl : s.link.state = .active) : s.dealWith raw = s.answerSlot f := by
  simp only [State.dealWith, h]
  rw [if_neg (show f.dest ≠ Config.allNodes from hd), if_pos]
  simp [hmine, hl]

theorem answerSlot_full (h : 8 ≤ s.link.buffer.length) : s.answerSlot f = s.drive (.answer f.source .busy) :=
  if_pos (bufferFull_iff.2 h)

theorem answerSlot_room (h : s.link.buffer.length < 8) : s.answerSlot f = match s.verdict f with
    | some t => (t.joinBuffer f).drive (.answer f.source .accept)
    | none => s.drive (.answer f.source .refuse) :=
  if_neg (by simp [bufferFull_eq_false_iff.2 h])

theorem exec_frameReceived (hi : raw.intact = true) (hs : s.mode ≠ .stopped) (hh : s.mode ≠ .halted)
    (hl : s.link.state ≠ .faulted) : exec (.frameReceived raw) s = .next (s.hear raw).settle := by
  change execFrameReceived raw s = _
  rw [execFrameReceived, if_pos (by simp [hi, State.hears, hs, hh, hl])]
  rfl

theorem hear_other (h : raw.source.toNat ≠ s.cfg.node) :
    s.hear raw = (s.refresh raw.source.toNat).dealWith raw := if_neg h

theorem hear_own (h : raw.source.toNat = s.cfg.node) (hm : s.link.state ≠ .muted) :
    s.hear raw = s.enterMuted := (if_pos h).trans (if_neg hm)

end

end Sys2Proof.Machine

namespace Sys2Proof.Proofs

open Sys2Proof Sys2Proof.Machine

/-- Settles O56: the state the refresh gives hears, drives and holds its slots as before, and in it the frame's kind
decides by its verdict's equation. -/
theorem heardFramesAreTaken : Obligations.HeardFramesAreTaken := by
  refine ⟨fun s f hi => ?_, fun s v f hi hs hh hl hsrc hv => ?_,
    fun s src tag => ⟨fun j => inByKey_of_some, inByKey_of_none⟩, fun s f hi hs hh hl hsrc => ?_⟩
  · change execFrameReceived f s = _
    rw [execFrameReceived, if_neg (by simp [hi])]
    rfl
  · have hfresh := refreshedTo_iff.1 hv
    obtain ⟨hcfg, hstate, hbuffer, hout, hin, houts⟩ := refresh_frame (s := s) (n := f.source.toNat)
    rw [← hfresh] at hcfg hstate hbuffer hout hin houts
    have hexec : exec (.frameReceived f) s = .next (v.dealWith f).settle := by
      rw [exec_frameReceived hi hs hh hl, hear_other hsrc, hfresh]
    rw [hexec, ← hcfg, ← hstate, ← hbuffer, ← hout]
    refine ⟨fun g hg => ⟨fun hb => ?_, fun hb => ?_⟩, fun dst b hd hne hmine => ?_,
      fun num ext hd => ⟨fun hl hb => ?_, fun hb => ?_⟩, fun hd => ⟨fun hmine hl => ?_, fun hmine => ?_⟩,
      fun b hd hmine hne => ⟨fun hl => ?_, fun hl hb => ?_, fun w hl hb hw => ?_⟩⟩
    · rw [dealWith_all hg rfl, if_pos ⟨.inr rfl, hb⟩]
      rfl
    · rw [dealWith_all hg rfl, if_neg fun h => absurd h.2 (Nat.not_lt.2 hb)]
    · rw [dealWith_other hd hne (.inl hmine)]
    · rw [dealWith_all hd rfl, if_pos ⟨.inl hl, hb⟩]
      rfl
    · rw [dealWith_all hd rfl, if_neg]
      rintro ⟨h | h, hlt⟩
      · exact hb.elim (fun hn => hn h) fun hle => absurd hlt (Nat.not_lt.2 hle)
      · cases h
    · rw [dealWith_malformed hd, if_pos ⟨hmine, hl⟩]
      rfl
    · rw [dealWith_malformed hd, if_neg fun h => hmine.elim (fun hn => hn h.1) fun hn => hn h.2]
    · rw [dealWith_other hd hne (.inr hl)]
    · rw [dealWith_mine hd hne hmine hl, answerSlot_full hb]
      rfl
    · have hverdict : v.verdict ⟨f.source.toNat, v.cfg.node, f.tag.toNat, b⟩ = w := by
        have hkey : s.inByKey f.source.toNat f.tag.toNat = v.inByKey f.source.toNat f.tag.toNat := by
          rw [State.inByKey, ← hin]
          rfl
        have hslot : ∀ j, s.inSlot j = v.inSlot j := fun j => by
          rw [State.inSlot, ← hin]
          rfl
        rw [hkey, ← houts] at hw
        simp only [hslot] at hw
        rcases hw with ⟨o, rfl, rfl⟩ | ⟨num, ext, rfl, ⟨ho, rfl⟩ | ⟨ho, rfl⟩⟩ | ⟨hb, ⟨ho, rfl⟩ | ⟨ho, rfl⟩⟩ |
          ⟨hb, hnone, rfl⟩ | ⟨j, x, hsome, rfl, ⟨c, rfl, rfl⟩ | ⟨idx, seg, rfl, hcarry⟩⟩
        · rfl
        · exact if_pos (outBySeek_isSome_iff.2 ho)
        · refine if_neg fun hsome => ?_
          obtain ⟨o, hmem, c, hseek⟩ := outBySeek_isSome_iff.1 hsome
          exact ho o hmem c hseek
        · have hfound := outByTag_isSome_iff.2 ho
          rcases hb with rfl | ⟨r, rfl⟩ | ⟨r, rfl⟩ <;> exact if_pos hfound
        · have hfound : ¬ (v.outByTag f.source.toNat f.tag.toNat).isSome = true := fun hsome => by
            obtain ⟨o, hmem, hfree, htag, hdest⟩ := outByTag_isSome_iff.1 hsome
            rcases ho o hmem with h | h | h
            · exact hfree h
            · exact h htag
            · exact h hdest
          rcases hb with rfl | ⟨r, rfl⟩ | ⟨r, rfl⟩ <;> exact if_neg hfound
        · rcases hb with ⟨c, rfl⟩ | ⟨idx, seg, rfl⟩
          · simp only [State.verdict, hnone]
          · exact carryVerdict_none hnone
        · exact verdict_close rfl hsome
        · change v.carryVerdict _ _ idx = w
          rcases hcarry with ⟨hf, hi, ho, rfl⟩ | ⟨hf, hi, rfl⟩ | ⟨hf, hi, rfl⟩ | ⟨hf, hi, rfl⟩ | ⟨hf, hi, rfl⟩
          · rw [carryVerdict_filling hsome hf, if_pos ⟨hi, ho⟩]
          · rw [carryVerdict_filling hsome hf, if_neg (by omega), if_pos hi]
          · rw [carryVerdict_filling hsome hf, if_neg (by omega), if_neg (by omega)]
          · rw [carryVerdict_committed hsome (by simp [hf]), if_pos hi]
          · rw [carryVerdict_committed hsome (by simp [hf]), if_neg (Nat.not_lt.2 hi)]
      rw [dealWith_mine hd hne hmine hl, answerSlot_room hb, hverdict]
      refine ⟨fun t ht => ?_, fun hn => ?_⟩
      · subst ht
        obtain ⟨hlink, hdriven⟩ := verdict_apart hverdict
        rw [← hdriven, ← hlink]
        rfl
      · rw [hn]
        rfl
  · have hne : s.link.state ≠ .faulted ∧ s.link.state ≠ .muted := by
      rcases hl with hl | hl <;> simp [hl]
    rw [exec_frameReceived hi hs hh hne.1, hear_own hsrc hne.2, enterMuted_eq]

end Sys2Proof.Proofs

/-! PROOF. The timers of the slots and of the queue (R139, R141, R145, R148, R153, R154). -/

namespace Sys2Proof.Machine

section
variable {s : State} {i : Nat}

theorem outSlot_lt (h : (s.outSlot i).state ≠ .free) : i < s.deliv.outSlots.length := by
  by_contra hi
  exact h (by rw [State.outSlot, List.getElem?_eq_none (Nat.not_lt.1 hi)]; rfl)

theorem outTimerRuns_of {st : OutState} (h : (s.outSlot i).state = st) (ht : (s.outSlot i).timer.isSome = true) :
    s.outTimerRuns i st = true := by
  simp [State.outTimerRuns, h, ht]

/-- The SEEK of a slot whose fields but the tag have changed (R141). -/
theorem seekFrame_onOut {g : OutSlot → OutSlot} (hi : i < s.deliv.outSlots.length)
    (hg : (g (s.outSlot i)).tag = (s.outSlot i).tag) (r : SeekRec) :
    (s.onOut i g).seekFrame i r = ⟨s.cfg.node, 31, (s.outSlot i).tag, .seek r.number r.ext⟩ := by
  rw [State.seekFrame, State.outSlot_onOut_same s g hi, hg]
  rfl

/-- What a FILLING slot holds is given up (R153, R154). -/
theorem giveUpIn_eq (j : Nat) : s.giveUpIn j = ((if (s.inSlot j).reservation = true then
      (s.discardObj (s.inSlot j).object).onMb (s.inSlot j).target fun m => { m with
        reserved := m.reserved - 1, pending := m.pending - (s.inSlot j).grant }
    else s.discardObj (s.inSlot j).object).onIn j fun _ => InSlot.blank) := rfl

end

end Sys2Proof.Machine

namespace Sys2Proof.Proofs

open Sys2Proof Sys2Proof.Machine

/-- Settles O60: each timer's act is chosen by its count of sendings. -/
theorem slotTimersRun : Obligations.SlotTimersRun := by
  refine fun s i => ⟨fun r hst ht hr => ?_, fun e hst ht he => ?_, fun e x dest hst ht he hx hd => ?_,
    fun hst ht => ?_, fun hst ht => ?_, fun e x he hc hb => ?_⟩
  · have hi : i < s.deliv.outSlots.length := outSlot_lt (by simp [hst])
    have hexec : exec (.claimTimerExpiry i) s = act (s.claimTimeout i) := if_pos (outTimerRuns_of hst ht)
    rw [hexec, State.claimTimeout]
    simp only [hr]
    refine ⟨fun hlt => ⟨_, rfl, ?_⟩, fun heq => ?_⟩
    · rw [if_pos (show _ < Config.maxSendings from hlt), seekFrame_onOut hi rfl]
      rfl
    · rw [if_neg (show ¬ _ < Config.maxSendings from heq.not_lt)]
      rfl
  · have hexec : exec (.answerTimerExpiry i) s = act (s.answerTimeout i) := if_pos (outTimerRuns_of hst ht)
    rw [hexec, State.answerTimeout]
    simp only [he]
    refine ⟨fun hlt => ⟨_, rfl, ?_⟩, fun heq => ?_⟩
    · rw [if_pos (show _ < Config.maxSendings from hlt)]
      rfl
    · rw [if_neg (show ¬ _ < Config.maxSendings from heq.not_lt)]
      rfl
  · have hexec : exec (.receiptTimerExpiry i) s = act (s.receiptTimeout i) := if_pos (outTimerRuns_of hst ht)
    rw [hexec, State.receiptTimeout]
    simp only [he, Option.bind_some, hx, hd]
    refine ⟨fun hlt => ⟨_, rfl, ?_⟩, fun heq => ?_⟩
    · rw [if_pos (show _ < Config.maxSendings from hlt)]
      rfl
    · rw [if_neg (show ¬ _ < Config.maxSendings from heq.not_lt)]
      rfl
  · have hexec : exec (.idleTimerExpiry i) s = act (s.giveUpIn i) := if_pos (by simp [hst, ht])
    rw [hexec, giveUpIn_eq]
    refine ⟨fun hr => ?_, fun hr => ?_⟩
    · rw [if_pos hr]
      rfl
    · rw [if_neg (by simp [hr])]
      rfl
  · change execLingerTimerExpiry i s = _
    rw [execLingerTimerExpiry, if_pos (by simp [hst, ht])]
    rfl
  · change execNotBeforeReached i s = _
    rw [execNotBeforeReached, if_pos (by simp [State.waitsAt, he, hc, hb])]
    rfl

end Sys2Proof.Proofs

/-! PROOF. Answers to outbound transfers at the head of the buffer, and how a transfer ends (R141-R148, R155). -/

namespace Sys2Proof.Machine

/-- The node with the rest of its buffer. -/
def State.handedOff (s : State) (rest : List Frame) : State := { s with link := { s.link with buffer := rest } }

section
variable {s u : State} {i src tag : Nat} {f : Frame} {rest : List Frame}

/-! ### The head of the buffer (R127) -/

theorem popBuffer_eq (h : s.link.buffer = f :: rest) :
    s.popBuffer = s.handedOff rest := by
  rw [State.popBuffer, State.onLink, h]
  rfl

theorem handed_some {take : State → Frame → Option State} (h : s.link.buffer = f :: rest)
    (ht : take (s.handedOff rest) f = some u) : handed s take = .next u.settle := by
  simp only [handed, h, popBuffer_eq h, ht]
  rfl

section
variable {dst : Nat}

theorem exec_hailHanded {g : Nat} (h : s.link.buffer = ⟨src, dst, tag, .hail g⟩ :: rest) :
    exec .hailHanded s = .next ((s.handedOff rest).takeHail src g).settle := by
  change execHailHanded s = _
  exact handed_some h rfl

theorem exec_seekHanded {num ext : Nat} (h : s.link.buffer = ⟨src, dst, tag, .seek num ext⟩ :: rest) :
    exec .seekHanded s = .next ((s.handedOff rest).seekIn src tag num ext).settle := by
  change execSeekHanded s = _
  exact handed_some h rfl

theorem exec_claimHanded {num ext : Nat} (h : s.link.buffer = ⟨src, dst, tag, .claim num ext⟩ :: rest) :
    exec .claimHanded s = .next ((s.handedOff rest).claimIn src num ext).settle := by
  change execClaimHanded s = _
  exact handed_some h rfl

theorem exec_offerHanded {o : OfferBody} (h : s.link.buffer = ⟨src, dst, tag, .offer o⟩ :: rest) :
    exec .offerHanded s = .next ((s.handedOff rest).offerIn src tag o).settle := by
  change execOfferHanded s = _
  exact handed_some h rfl

theorem exec_carryHanded {idx : Nat} {seg : Segment} (h : s.link.buffer = ⟨src, dst, tag, .carry idx seg⟩ :: rest) :
    exec .carryHanded s = .next ((s.handedOff rest).carryIn src tag idx seg).settle := by
  change execCarryHanded s = _
  exact handed_some h rfl

theorem exec_closeHanded {count : Nat} (h : s.link.buffer = ⟨src, dst, tag, .close count⟩ :: rest) :
    exec .closeHanded s = .next ((s.handedOff rest).closeIn src tag count).settle := by
  change execCloseHanded s = _
  exact handed_some h rfl

theorem exec_takeHanded (h : s.link.buffer = ⟨src, dst, tag, .take⟩ :: rest) :
    exec .takeHanded s = .next ((s.handedOff rest).takeIn src tag).settle := by
  change execTakeHanded s = _
  exact handed_some h rfl

theorem exec_balkHanded {r : BalkReason} (h : s.link.buffer = ⟨src, dst, tag, .balk r⟩ :: rest) :
    exec .balkHanded s = .next ((s.handedOff rest).balkIn src tag r).settle := by
  change execBalkHanded s = _
  exact handed_some h rfl

theorem exec_receiptHanded {ok : Bool} (h : s.link.buffer = ⟨src, dst, tag, .receipt ok⟩ :: rest) :
    exec .receiptHanded s = .next ((s.handedOff rest).receiptIn src tag ok).settle := by
  change execReceiptHanded s = _
  exact handed_some h rfl

end

theorem next_settle {t u : State} (h : t = u) :
    (Host.Outcome.next t.settle : Host.Outcome State Fault Refusal) = .next u.settle := by rw [h]

/-! ### How a transfer ends (R155) -/

section
variable {e : QEntry} (he : s.qEntry? (s.outSlot i).pos = some e)
include he

theorem endTransfer_success :
    s.endTransfer i .success = (s.succeedEntry (s.outSlot i).pos e).finishSlot i := by
  simp only [State.endTransfer, he]

theorem endTransfer_unknown :
    s.endTransfer i .unknown = (s.failEntry (s.outSlot i).pos e .unknown).finishSlot i := by
  simp only [State.endTransfer, he]

theorem endTransfer_full : s.endTransfer i .full = (s.failEntry (s.outSlot i).pos e .full).finishSlot i := by
  simp only [State.endTransfer, he]

theorem endTransfer_hold (h : e.hold < 10) : s.endTransfer i .hold =
    (s.requeue i (s.outSlot i).pos 30000 fun q => { q with hold := q.hold + 1 }).finishSlot i := by
  simp only [State.endTransfer, he]
  exact congrArg (State.finishSlot · i) (if_pos h)

theorem endTransfer_held_out (h : 10 ≤ e.hold) :
    s.endTransfer i .hold = (s.failEntry (s.outSlot i).pos e .unreachable).finishSlot i := by
  simp only [State.endTransfer, he]
  exact congrArg (State.finishSlot · i) (if_neg (Nat.not_lt.2 h))

theorem endTransfer_retry (h : e.retry < 3) : s.endTransfer i .retry =
    (s.requeue i (s.outSlot i).pos 60000 fun q => { q with retry := q.retry + 1 }).finishSlot i := by
  simp only [State.endTransfer, he]
  exact congrArg (State.finishSlot · i) (if_pos h)

theorem endTransfer_tried_out (h : 3 ≤ e.retry) :
    s.endTransfer i .retry = (s.failEntry (s.outSlot i).pos e .unreachable).finishSlot i := by
  simp only [State.endTransfer, he]
  exact congrArg (State.finishSlot · i) (if_neg (Nat.not_lt.2 h))

end

/-! ### A CLAIM, a TAKE and a RECEIPT (R143, R145, R148) -/

section
variable {num ext : Nat} (hk : s.outBySeek num ext = some i)
include hk

theorem claimIn_of_claimed {n : Nat} (hs : (s.outSlot i).seek = some ⟨num, ext, some n⟩) (hn : n ≠ src) :
    s.claimIn src num ext = s.latch .duplicateHome := by
  simp only [State.claimIn, hk, hs, if_neg hn]

theorem claimIn_of_first (hs : (s.outSlot i).seek = some ⟨num, ext, none⟩)
    (hst : (s.outSlot i).state = .locating) (hp : s.isPresent src = true) :
    s.claimIn src num ext = (((s.onOut i fun o => { o with
      seek := some ⟨num, ext, some src⟩ }).useRoute ext src).beginOffer i src).dispatch := by
  have hslot := State.outSlot_onOut_same s (fun o => { o with seek := some ⟨num, ext, some src⟩ })
    (outSlot_lt (i := i) (by simp [hst]))
  simp only [State.claimIn, hk, hs]
  rw [hslot, if_pos hst]
  exact congrArg (fun t => (State.beginOffer t i src).dispatch) (if_pos hp)

end

section
variable (ht : s.outByTag src tag = some i)
include ht

theorem takeIn_of_offering (hst : (s.outSlot i).state = .offering) : s.takeIn src tag = ((s.onOut i fun o => { o with
    state := .carrying, nextIndex := 0, timer := none }).carryOn i).dispatch := by
  simp only [State.takeIn, ht, if_pos hst]

theorem receiptIn_of_closing (hst : (s.outSlot i).state = .closing) (ok : Bool) :
    s.receiptIn src tag ok = (s.endTransfer i (if ok then .success else .retry)).dispatch := by
  simp only [State.receiptIn, ht, if_pos hst]

end

/-! ### A BALK (R146, R155) -/

section
variable {e : QEntry} {b : BalkReason} (ht : s.outByTag src tag = some i) (hst : (s.outSlot i).state = .offering)
  (he : s.qEntry? (s.outSlot i).pos = some e)
include ht hst he

theorem balkIn_ends (h : ¬ (b = .notHome ∧ e.list = false)) :
    s.balkIn src tag b = (s.endTransfer i (balkEnd e.list b)).dispatch := by
  have hcond : (decide (b = .notHome) && !e.list) = false := by
    rw [Bool.eq_false_iff]
    intro hc
    obtain ⟨hb, hl⟩ := Bool.and_eq_true_iff.1 hc
    exact h ⟨of_decide_eq_true hb, by simpa using hl⟩
  simp only [State.balkIn, ht, if_pos hst, he, hcond]
  rfl

theorem balkIn_relocates (hl : e.list = false) (hr : e.relocated = false) :
    s.balkIn src tag .notHome = (((s.purgeRoute e.target src).onQ (s.outSlot i).pos fun q => { q with
      relocated := true }).beginLocate i e.target).dispatch := by
  simp [State.balkIn, ht, hst, he, hl, hr]
  rfl

theorem balkIn_relocated (hl : e.list = false) (hr : e.relocated = true) :
    s.balkIn src tag .notHome = ((s.purgeRoute e.target src).endTransfer i .unknown).dispatch := by
  simp [State.balkIn, ht, hst, he, hl, hr]

end

theorem purgeRoute_eq (ext n : Nat) : s.purgeRoute ext n = { s with deliv := { s.deliv with
    routes := s.deliv.routes.filter fun r => r ≠ (ext, n) } } := by
  have hfilter : s.deliv.routes.filter (fun r => !(r.1 == ext && r.2 == n)) =
      s.deliv.routes.filter fun r => r ≠ (ext, n) := List.filter_congr fun r _ => by
    obtain ⟨a, b⟩ := r
    by_cases ha : a = ext <;> by_cases hb : b = n <;> simp [ha, hb]
  rw [State.purgeRoute, State.onDeliv, hfilter]

/-! ### A locate (R141) -/

/-- Slot `i` as a locate begins (R141). -/
def OutSlot.sought (o : OutSlot) : OutSlot :=
  { o with state := .locating, dest := none, seek := none, timer := none, wants := none }

theorem beginLocate_eq (ext : Nat) : s.beginLocate i ext = match (s.onOut i .sought).routeOf ext with
    | some n => (((s.onOut i .sought).useRoute ext n).locateAt i n).beginOffer i n
    | none =>
      let t := ((s.onOut i .sought).onDeliv fun d => { d with
        seekCounter := nextSeek s.deliv.seekCounter }).onOut i fun o => { o with
          seek := some ⟨nextSeek s.deliv.seekCounter, ext, none⟩, seekCount := 1 }
      t.callFrame i (t.seekFrame i ⟨nextSeek s.deliv.seekCounter, ext, none⟩) := rfl

theorem beginLocate_hit {a b : List (Nat × Nat)} {ext n : Nat} (hi : i < s.deliv.outSlots.length)
    (h : s.deliv.routes = a ++ (ext, n) :: b) (hone : ∀ y ∈ a ++ b, y.1 ≠ ext) :
    s.beginLocate i ext = (({ s.onOut i .sought with deliv := { (s.onOut i .sought).deliv with
      routes := ((ext, n) :: (a ++ b)).take 256 } } : State).onQ (s.outSlot i).pos fun e => { e with
        location := some n }).beginOffer i n := by
  obtain ⟨hroute, hrest⟩ := routeOf_of_split (s := s.onOut i .sought) h hone
  have hused : (s.onOut i .sought).useRoute ext n = { s.onOut i .sought with
      deliv := { (s.onOut i .sought).deliv with routes := ((ext, n) :: (a ++ b)).take 256 } } := by
    rw [State.useRoute, State.onDeliv, hrest]
    rfl
  have hpos : (((s.onOut i .sought).useRoute ext n).outSlot i).pos = (s.outSlot i).pos :=
    (congrArg OutSlot.pos (State.outSlot_onOut_same s .sought hi) :)
  rw [beginLocate_eq, hroute]
  dsimp only
  rw [State.locateAt, hpos, hused]

theorem beginLocate_miss {ext q : Nat} (hi : i < s.deliv.outSlots.length)
    (hq : q = nextSeek s.deliv.seekCounter) (h : ∀ y ∈ s.deliv.routes, y.1 ≠ ext) :
    s.beginLocate i ext = (({ s.onOut i .sought with deliv := { (s.onOut i .sought).deliv with
      seekCounter := q } } : State).onOut i fun o => { o with
        seek := some ⟨q, ext, none⟩, seekCount := 1 }).callFrame i
      ⟨s.cfg.node, 31, (s.outSlot i).tag, .seek q ext⟩ := by
  subst hq
  have hroute := routeOf_of_none (s := s.onOut i .sought) h
  have htag : (((s.onOut i .sought).onDeliv fun d => { d with
      seekCounter := nextSeek s.deliv.seekCounter }).outSlot i).tag = (s.outSlot i).tag :=
    (congrArg OutSlot.tag (State.outSlot_onOut_same s .sought hi) :)
  have hseek := seekFrame_onOut (s := (s.onOut i .sought).onDeliv fun d => { d with
      seekCounter := nextSeek s.deliv.seekCounter })
    (g := fun o => { o with seek := some ⟨nextSeek s.deliv.seekCounter, ext, none⟩, seekCount := 1 })
    (i := i) (by simpa using hi) rfl ⟨nextSeek s.deliv.seekCounter, ext, none⟩
  rw [htag] at hseek
  rw [beginLocate_eq, hroute]
  exact congrArg (State.callFrame _ i) hseek

end

end Sys2Proof.Machine

namespace Sys2Proof.Proofs

open Sys2Proof Sys2Proof.Machine

/-- Settles O58: each answer is the act of its slot on the node with the buffer's rest, and the end of a transfer is
the row of its reason. -/
theorem outboundAnswersAreHanded : Obligations.OutboundAnswersAreHanded := by
  refine ⟨fun s u src tag dst i rest hu => ⟨fun num ext n hb hk hs hn => ?_, fun num ext hb hk hs hst hp => ?_,
      fun hb hk hst => ?_, fun e hb hk hst he hl => ?_, fun e b hb hor hk hst he => ?_, fun hb hk hst => ?_,
      fun e hb hk hst he => ?_, fun e b hb hk hst he => ⟨fun hl hr => ?_, fun hl hr => ?_, fun hor => ?_,
        fun v hl hr hv => ⟨fun hre => ?_, fun hre => ?_⟩⟩⟩,
    fun s v i q ext hi hq hv => ⟨fun a n b hroutes hone => hv ▸ beginLocate_hit hi hroutes hone,
      fun hnone => hv ▸ beginLocate_miss hi hq hnone⟩⟩
  all_goals
    subst hu
  · rw [exec_claimHanded hb]
    exact next_settle (claimIn_of_claimed (s := s.handedOff rest) hk hs hn)
  · rw [exec_claimHanded hb]
    exact next_settle (claimIn_of_first (s := s.handedOff rest) hk hs hst hp)
  · rw [exec_takeHanded hb]
    exact next_settle (takeIn_of_offering (s := s.handedOff rest) hk hst)
  · rw [exec_balkHanded hb]
    refine next_settle ((balkIn_ends (s := s.handedOff rest) hk hst he (by simp)).trans (congrArg _ ?_))
    rw [hl]
    exact endTransfer_full (s := s.handedOff rest) he
  · rw [exec_balkHanded hb]
    refine next_settle ((balkIn_ends (s := s.handedOff rest) hk hst he fun h => ?_).trans (congrArg _ ?_))
    · rcases hor with rfl | rfl <;> cases h.1
    · rcases hor with rfl | rfl <;> rfl
  · rw [exec_receiptHanded hb]
    exact next_settle (receiptIn_of_closing (s := s.handedOff rest) hk hst false)
  · rw [exec_receiptHanded hb]
    exact next_settle ((receiptIn_of_closing (s := s.handedOff rest) hk hst true).trans (congrArg _ (endTransfer_success (s := s.handedOff rest) he)))
  · subst hr
    rw [exec_balkHanded hb]
    refine next_settle ((balkIn_ends (s := s.handedOff rest) hk hst he (by simp)).trans (congrArg _ ?_))
    rw [hl]
    exact endTransfer_unknown (s := s.handedOff rest) he
  · subst hr
    rw [exec_balkHanded hb]
    refine next_settle ((balkIn_ends (s := s.handedOff rest) hk hst he (by simp)).trans (congrArg _ ?_))
    rw [hl]
    exact endTransfer_success (s := s.handedOff rest) he
  · rw [exec_balkHanded hb]
    refine next_settle ((balkIn_ends (s := s.handedOff rest) hk hst he fun h => ?_).trans (congrArg _ ?_))
    · rcases hor with ⟨hl, -⟩ | ⟨-, rfl⟩
      · rw [hl] at h
        cases h.2
      · cases h.1
    · rcases hor with ⟨hl, rfl | rfl | rfl⟩ | ⟨hl, rfl⟩ <;> rw [hl] <;> rfl
  · subst hr
    rw [exec_balkHanded hb, show v = _ from hv.trans (purgeRoute_eq (s := s.handedOff rest) e.target src).symm]
    exact next_settle (balkIn_relocates (s := s.handedOff rest) hk hst he hl hre)
  · subst hr
    rw [exec_balkHanded hb]
    refine next_settle ((balkIn_relocated (s := s.handedOff rest) hk hst he hl hre).trans (congrArg _ ?_))
    rw [show v = _ from hv.trans (purgeRoute_eq (s := s.handedOff rest) e.target src).symm]
    exact endTransfer_unknown (s := (s.handedOff rest).purgeRoute e.target src) he

end Sys2Proof.Proofs

/-! PROOF. How a queue entry ends, and the NOTICE that its end asks for (R47, R155-R157). -/

namespace Sys2Proof.Machine

section
variable {s t : State} {i pos k : Nat} {e : QEntry} {r : Reason}

/-! ### An entry leaves the queue (R155-R157) -/

/-- The node with the reference of an entry dropped and its position left (R155). -/
def State.left (s : State) (pos : Nat) (e : QEntry) : State := (s.dropRef e.object).leaveQueue pos

theorem left_eq : s.left pos e = { (s.dropRef e.object) with
      deliv := { (s.dropRef e.object).deliv with
        queue := (s.dropRef e.object).deliv.queue.set pos none }
      writer := { (s.dropRef e.object).writer with
        dirtyOthers := joinSet (s.dropRef e.object).writer.dirtyOthers (.queue (pos / 16)) } } := rfl

theorem left_groups : (s.left pos e).deliv.groups = s.deliv.groups :=
  (congrArg Delivery.groups (dropRef_deliv s e.object) :)

theorem succeedEntry_direct (h : e.list = false) : s.succeedEntry pos e = s.left pos e := by
  simp [State.succeedEntry, State.left, h]

theorem succeedEntry_list (h : e.list = true) : s.succeedEntry pos e = (s.left pos e).groupTold e false := by
  simp [State.succeedEntry, State.left, h]

theorem failEntry_direct (h : e.list = false) : s.failEntry pos e r = match e.mailbox with
    | none => s.left pos e
    | some k => (s.left pos e).addNotice k r e.target e.number none := by
  exact if_neg (by simp [h])

theorem failEntry_list (h : e.list = true) : s.failEntry pos e r = (s.left pos e).groupTold e true := by
  simp [State.failEntry, State.left, h]

theorem groupTold_none (h : e.group = none) (failed : Bool) : s.groupTold e failed = s := by
  simp only [State.groupTold, h]

section
variable {g : Nat} {x : Group} (hg : e.group = some g) (hx : s.deliv.groups[g]? = some (some x))
include hg hx

theorem groupTold_counts (h : 2 ≤ x.remaining) (failed : Bool) : s.groupTold e failed =
    s.onDeliv fun d => { d with groups := d.groups.set g (some { x with
      remaining := x.remaining - 1, unreached := x.unreached + (if failed then 1 else 0) }) } := by
  simp only [State.groupTold, hg, State.groupFinish, hx, Option.join_some]
  exact if_neg (by omega)

/-- The last entry of a group frees it and asks for the notice of those not reached (R157). -/
theorem groupTold_last (h : x.remaining = 1) (failed : Bool) : s.groupTold e failed =
    match x.mailbox with
    | none => s.onDeliv fun d => { d with groups := d.groups.set g none }
    | some k => if 0 < x.unreached + (if failed then 1 else 0) then
        (s.onDeliv fun d => { d with groups := d.groups.set g none }).addNotice k .listPartial x.list none
          (some (x.unreached + (if failed then 1 else 0)))
      else s.onDeliv fun d => { d with groups := d.groups.set g none } := by
  simp only [State.groupTold, hg, State.groupFinish, hx, Option.join_some]
  exact if_pos (by omega)

end

/-! ### An entry that waits again (R155) -/

theorem requeue_eq {loc : Option Nat} {delay : Nat} {f : QEntry → QEntry}
    (he : s.qEntry? pos = some e) (hl : e.list = true → loc = none)
    (hd : e.list = false → (∀ n, (s.outSlot i).dest = some n →
        loc = if s.isPresent n = true then some n else none) ∧ ((s.outSlot i).dest = none → loc = none)) :
    s.requeue i pos delay f = s.onDeliv fun d => { d with queue := d.queue.set pos (some (f { e with
      carried := false, notBefore := some delay, location := loc })) } := by
  have hloc : (if e.list then none else (s.outSlot i).dest.bind fun n => if s.isPresent n then some n else none) =
      loc := by
    cases hlist : e.list with
    | true => exact (hl hlist).symm
    | false =>
      obtain ⟨hsome, hnone⟩ := hd hlist
      cases hdest : (s.outSlot i).dest with
      | none => exact (hnone hdest).symm
      | some n => exact (hsome n hdest).symm
  rw [State.requeue, onQ_eq he, ← hloc]

/-! ### The slot that carried it (R144) -/

theorem finishSlot_waits (h : ∃ y ∈ s.link.sendList, y.req = .outSlot i) : s.finishSlot i = s.onOut i fun o => { o with
    state := .finishing, timer := none, wants := none } := by
  have hf : s.hasFrame (.outSlot i) = true := by simpa [State.hasFrame] using h
  simp only [State.finishSlot, hf]
  rfl

theorem finishSlot_free (h : ∀ y ∈ s.link.sendList, y.req ≠ .outSlot i) :
    s.finishSlot i = s.onOut i fun _ => OutSlot.blank := by
  have hf : s.hasFrame (.outSlot i) = false := hasFrame_eq_false_iff.2 h
  simp only [State.finishSlot, hf]
  rfl

/-! ### A NOTICE (R47) -/

section
variable {target : Nat} {subject unreached : Option Nat}

theorem addNotice_of_out (h : s.inService k = false) : s.addNotice k r target subject unreached = s := by
  simp [State.addNotice, h]

theorem addNotice_of_room (h : s.inService k = true) (hr : s.hasRoom k = true) :
    s.addNotice k r target subject unreached =
      s.commit k (Entry.ofNotice s.cfg.node r target subject unreached) false 0 := by
  simp [State.addNotice, h, hr]

theorem addNotice_of_none (h : s.inService k = true) (hr : s.hasRoom k = false)
    (hn : ∀ e ∈ (s.mb k).entries, e.kind ≠ .notice) : s.addNotice k r target subject unreached = s := by
  have hnone : (s.mb k).oldestNotice = none := by
    rw [Mailbox.oldestNotice, List.find?_eq_none.2 (by simpa using hn)]
    rfl
  simp [State.addNotice, h, hr, hnone]

theorem addNotice_of_full {num : Nat} (h : s.inService k = true) (hr : s.hasRoom k = false)
    (hn : (s.mb k).oldestNotice = some num) : s.addNotice k r target subject unreached =
      ((s.dropNotice k num).commitQuiet k (Entry.ofNotice s.cfg.node r target subject unreached)).tellIfChanged k
        (s.mb k).newCount := by
  simp [State.addNotice, h, hr, hn]

end

theorem dropNotice_mb {num : Nat} {e : Entry} (hk : k < s.mailboxes.length) (he : (s.mb k).entry? num = some e) :
    (s.dropNotice k num).mb k = { s.removedFrom k e with
      erasePending := (s.removedFrom k e).erasePending.erase num } := by
  have hstart : ((s.removeQuiet k num).onMb k fun m => { m with erasePending := m.erasePending.erase num }).mb k =
      { s.removedFrom k e with erasePending := (s.removedFrom k e).erasePending.erase num } := by
    rw [removeQuiet_of_entry he, State.mb_onMb_same _ _ (by simpa using hk), State.mb_congr (markMailbox_mailboxes _ _),
      State.mb_congr (dropRefOpt_mailboxes _ _), State.mb_onMb_same _ _ hk]
  unfold State.dropNotice
  dsimp only
  split
  · exact hstart
  · exact hstart

theorem dropNotice_lengths (num : Nat) :
    (s.dropNotice k num).mailboxes.length = s.mailboxes.length := by
  have hstart : ((s.removeQuiet k num).onMb k fun m => { m with
      erasePending := m.erasePending.erase num }).mailboxes.length = s.mailboxes.length := by
    unfold State.removeQuiet
    split <;> simp [State.onMb]
  unfold State.dropNotice
  dsimp only
  split <;> exact hstart

theorem dropNotice_chans_free {num : Nat} (h : (s.mb k).lock = none) : (s.dropNotice k num).chans = s.chans := by
  simp only [State.dropNotice, h]
  exact removeQuiet_chans s k num

theorem dropNotice_chans_held {num : Nat} (h : (s.mb k).lock = some i) :
    (s.dropNotice k num).chans = (s.tellGone i num).chans := by
  simp only [State.dropNotice, h]
  simp [State.tellGone, State.onCh, State.onChans, State.onMb, State.onMailboxes]

/-- The first NOTICE of a list is its oldest, and a number no earlier entry has finds its entry. -/
theorem oldestNotice_of_split {m : Mailbox} {a b : List Entry} {old : Entry} (h : m.entries = a ++ old :: b)
    (hk : old.kind = .notice) (ha : ∀ e ∈ a, e.kind ≠ .notice ∧ e.number ≠ old.number ∧ e ≠ old) :
    m.oldestNotice = some old.number ∧ m.entry? old.number = some old ∧ m.entries.erase old = a ++ b := by
  have hfind : ∀ p : Entry → Bool, p old = true → (∀ e ∈ a, p e = false) → m.entries.find? p = some old := by
    intro p hp hnot
    rw [h, List.find?_append, List.find?_eq_none.2 (fun e he => by simp [hnot e he]), List.find?_cons_of_pos hp]
    rfl
  refine ⟨?_, hfind _ (by simp) fun e he => by simpa using (ha e he).2.1, ?_⟩
  · rw [Mailbox.oldestNotice, hfind _ (by simp [hk]) fun e he => by simpa using (ha e he).1]
    rfl
  · rw [h, List.erase_append_right _ fun hmem => (ha old hmem).2.2 rfl, List.erase_cons_head]

theorem commitQuiet_mb {e : Entry} (hk : k < s.mailboxes.length) : (s.commitQuiet k e).mb k = { s.mb k with
    entries := (s.mb k).entries ++ [s.stampedEntry k e], nextNumber := nextNum (s.mb k).commitNumber } := by
  rw [State.commitQuiet, State.mb_congr (markMailbox_mailboxes _ _), State.mb_onMb_same _ _ hk]

/-- The mailbox as a NOTICE has taken the place of entry `old` (R47). -/
theorem addNotice_mb_full {target : Nat} {subject unreached : Option Nat} {old : Entry} (h : s.inService k = true)
    (hr : s.hasRoom k = false) (hk : k < s.mailboxes.length) (hn : (s.mb k).oldestNotice = some old.number)
    (he : (s.mb k).entry? old.number = some old) : (s.addNotice k r target subject unreached).mb k =
      { s.removedFrom k old with
        erasePending := (s.mb k).erasePending.erase old.number
        entries := (s.mb k).entries.erase old ++ [(s.dropNotice k old.number).stampedEntry k
          (Entry.ofNotice s.cfg.node r target subject unreached)]
        nextNumber := nextNum ((s.dropNotice k old.number).mb k).commitNumber } := by
  rw [addNotice_of_full h hr hn, State.mb_congr (tellIfChanged_mailboxes _ _ _),
    commitQuiet_mb ((dropNotice_lengths _).symm ▸ hk)]
  simp only [dropNotice_mb hk he]
  rfl

end

end Sys2Proof.Machine

namespace Sys2Proof.Proofs

open Sys2Proof Sys2Proof.Machine

/-- Settles O59: an entry leaves its position and its group is told, by the group's count; a waiting entry keeps its
position; and a NOTICE that finds a full list takes the place of the first one in it. -/
theorem queueEntriesEndWithNotices : Obligations.QueueEntriesEndWithNotices := by
  refine ⟨fun s b pos e r hb => ?_, fun s i e loc he hl hd => ?_, fun s k target r subject unreached =>
    ⟨addNotice_of_out, addNotice_of_room, addNotice_of_none, fun a old b hin hroom hk hentries hkind ha => ?_⟩⟩
  · rw [← left_eq] at hb
    subst hb
    refine ⟨fun hl => ⟨succeedEntry_direct hl, fun hm => ?_, fun k hm => ?_⟩, fun hl => ⟨fun hg => ?_, fun g x hg hx => ?_⟩⟩
    · rw [failEntry_direct hl, hm]
    · rw [failEntry_direct hl, hm]
    · rw [succeedEntry_list hl, failEntry_list hl, groupTold_none hg, groupTold_none hg]
      exact ⟨rfl, rfl⟩
    · rw [← left_groups (s := s) (pos := pos) (e := e)] at hx
      rw [succeedEntry_list hl, failEntry_list hl]
      refine ⟨fun h => ?_, fun f h hf => ?_⟩
      · rw [groupTold_counts hg hx h, groupTold_counts hg hx h]
        exact ⟨rfl, rfl⟩
      · rw [groupTold_last hg hx h, groupTold_last hg hx h, ← hf]
        refine ⟨fun hm => by simp [hm], fun k hm => ?_⟩
        rw [hm]
        refine ⟨?_, rfl⟩
        rcases Nat.eq_zero_or_pos x.unreached with h0 | hpos
        · simp [h0]
        · simp [hpos, hpos.ne']
  · refine ⟨fun h => ?_, endTransfer_held_out he, fun h => ?_, endTransfer_tried_out he, finishSlot_waits,
      finishSlot_free⟩
    · rw [endTransfer_hold he h, requeue_eq he hl hd]
      rfl
    · rw [endTransfer_retry he h, requeue_eq he hl hd]
      rfl
  · obtain ⟨holdest, hentry, herase⟩ := oldestNotice_of_split hentries hkind ha
    have hmb := addNotice_mb_full (r := r) (target := target) (subject := subject) (unreached := unreached)
      hin hroom hk holdest hentry
    have hchans : (s.addNotice k r target subject unreached).chans = (s.dropNotice k old.number).chans := by
      rw [addNotice_of_full hin hroom holdest]
      exact (tellIfChanged_only _ _ _).chans
    refine ⟨_, (s.dropNotice k old.number).stampedEntry k (Entry.ofNotice s.cfg.node r target subject unreached), rfl,
      ?_, rfl, rfl, rfl, rfl, rfl, rfl, ?_, ?_, fun hlock => ?_, fun i hlock hi => ⟨?_, fun j hj => ?_⟩⟩
    · rw [hmb]
      exact congrArg (· ++ _) herase
    · rw [hmb]
      rfl
    · rw [hmb]
    · exact hchans.trans (dropNotice_chans_free hlock)
    · rw [State.ch_congr (hchans.trans (dropNotice_chans_held hlock)), State.tellGone, State.ch_onCh_same s _ hi]
    · rw [State.ch_congr (hchans.trans (dropNotice_chans_held hlock)), State.tellGone, State.ch_onCh_ne s _ hj]

end Sys2Proof.Proofs

/-! PROOF. Frames of inbound transfers handed from the buffer (R130, R142, R149-R153). -/

namespace Sys2Proof.Machine

section
variable {s t u : State} {src tag j k : Nat} {o : OfferBody}

/-! ### A HAIL (R130) -/

theorem takeHail_of_new {g : Nat} (h : (s.presence src).generation ≠ some g) : s.takeHail src g =
    ({ s with deliv := { s.deliv with routes := s.deliv.routes.filter fun r => r.2 != src } } : State).onPresence
      src fun p => { p with generation := some g } := by
  rw [State.takeHail, if_neg h]
  unfold State.onPresence
  split <;> rfl

/-! ### Answers through the answer queue (R142) -/

/-- The only answer of the queue is handed at once (R142). -/
theorem answer_first {f : Frame} (ha : s.deliv.answers = []) (hr : s.hasFrame .answers = false)
    (hs : s.sendingStopped = false) :
    s.answer f = (s.onDeliv fun d => { d with answers := [f] }).joined .answers f false := by
  have hone : (s.onDeliv fun d => { d with answers := d.answers ++ [f] }) =
      s.onDeliv fun d => { d with answers := [f] } := by simp only [State.onDeliv, ha, List.nil_append]
  rw [State.answer, if_pos (by rw [ha]; decide), hone]
  have hhand := hand_joins (s := s.onDeliv fun d => { d with answers := [f] }) (f := f) false hr hs
  simp only [State.pumpAnswers, State.onDeliv_deliv]
  rw [if_neg (by rw [show (s.onDeliv fun d => { d with answers := [f] }).hasFrame .answers = s.hasFrame .answers from rfl, hr]; simp),
    hhand]

theorem sendingStopped_of_active (hl : s.link.state = .active) (h1 : s.mode ≠ .stopped) (h2 : s.mode ≠ .halted) :
    s.sendingStopped = false := by
  rw [Bool.eq_false_iff, ne_eq, sendingStopped_iff]
  simp [hl, h1, h2]

/-- A SEEK for an extension that the node homes is claimed (R142). -/
theorem seekIn_of_homed {num ext : Nat} (h : s.find ext = .homed k) :
    s.seekIn src tag num ext = s.answer ⟨s.cfg.node, src, tag, .claim num ext⟩ := by
  simp only [State.seekIn, h]
  rfl

/-! ### An OFFER (R149-R151) -/

theorem offerIn_of_new (h : s.inByKey src tag = none) : s.offerIn src tag o = s.takeOffer src tag o := by
  simp only [State.offerIn, h]

theorem offerIn_of_filling (h : s.inByKey src tag = some j) (hf : (s.inSlot j).state = .filling) :
    s.offerIn src tag o = if s.hasFrame (.inSlot j) then
        s.onIn j fun x => { x with idleTimer := some Config.idleTime }
      else (s.onIn j fun x => { x with idleTimer := some Config.idleTime }).handTake j := by
  simp only [State.offerIn, h, if_pos hf]
  rfl

theorem takeOffer_of_mode (h : s.mode ≠ .serving) : s.takeOffer src tag o = s.balk src tag .busy := by
  unfold State.takeOffer State.takeList State.takeDirect
  rw [if_pos h, if_pos h, ite_self]

theorem hasMember_iff {l : Nat} : s.hasMember l = true ↔
    ∃ k, k < s.cfg.mailboxes.length ∧ s.inService k = true ∧ (s.mbCfg k).lists.getLsbD l = true := by
  simp [State.hasMember, State.member]

theorem takeOffer_of_no_member (hm : s.mode = .serving) (hl : o.list = true) (h : s.hasMember o.target = false) :
    s.takeOffer src tag o = s.balk src tag .noMembers := by
  simp [State.takeOffer, State.takeList, hl, hm, h]

section
variable (hm : s.mode = .serving) (hl : o.list = true) (hmem : s.hasMember o.target = true)
include hm hl hmem

theorem takeList_of_busy (hf : s.freeIn = none) : s.takeOffer src tag o = s.balk src tag .busy := by
  simp [State.takeOffer, State.takeList, hl, hm, hmem, hf]

theorem takeList_of_granted {obj n : Nat} (hf : s.freeIn = some j)
    (ha : s.admitList o.segments = (.granted obj n, t)) :
    s.takeOffer src tag o = t.fillSlot j src tag o o.target obj n := by
  simp [State.takeOffer, State.takeList, hl, hm, hmem, hf, ha]

theorem takeList_of_refused (hf : s.freeIn = some j) {a : Admission}
    (ha : s.admitList o.segments = (a, t)) (hn : ∀ obj n, a ≠ .granted obj n) :
    s.takeOffer src tag o = t.balk src tag .store := by
  cases a with
  | granted obj n => exact absurd rfl (hn obj n)
  | full => simp [State.takeOffer, State.takeList, hl, hm, hmem, hf, ha]
  | noRoom => simp [State.takeOffer, State.takeList, hl, hm, hmem, hf, ha]
  | noEntry => simp [State.takeOffer, State.takeList, hl, hm, hmem, hf, ha]

end

theorem admitList_of_small {segs : Nat} (h : s.freeRoom - s.cfg.guard < blocksOf segs ∨
    s.cfg.budget < s.store.sharedUse + blocksOf segs) : s.admitList segs = (.noRoom, s) :=
  if_pos (by simpa [State.guardedRoom] using h)

theorem admitList_of_room {segs : Nat} (h : blocksOf segs ≤ s.freeRoom - s.cfg.guard)
    (hb : s.store.sharedUse + blocksOf segs ≤ s.cfg.budget) :
    s.admitList segs = s.openObj .shared none (blocksOf segs) :=
  if_neg (by simpa [State.guardedRoom] using ⟨h, hb⟩)

theorem openObj_granted {use : Use} {owner : Option Nat} {b n obj : Nat}
    (h : s.openObj use owner b = (.granted obj n, t)) : n = b := by
  by_cases hfull : 8192 < lowestFree 1 s.store.objects
  · rw [openObj_of_full s hfull] at h
    cases h
  · rw [openObj_of_entry s (Nat.not_lt.1 hfull)] at h
    cases h
    rfl

theorem admitList_granted {segs obj n : Nat} (h : s.admitList segs = (.granted obj n, t)) : n = (segs + 7) / 8 := by
  unfold State.admitList at h
  dsimp only at h
  split at h
  · cases h
  · exact openObj_granted h

theorem raisePending_granted {a : Admission × State} {n obj : Nat}
    (h : raisePending k a = (.granted obj n, t)) : ∃ v, a = (.granted obj n, v) := by
  obtain ⟨a, v⟩ := a
  cases a with
  | granted obj' n' =>
    simp only [raisePending, Prod.mk.injEq] at h
    exact ⟨v, by rw [h.1]⟩
  | full | noRoom | noEntry => cases h

theorem admitDirect_of_full {segs : Nat} (h : (s.cls k).quota - (s.mb k).charged - (s.mb k).pending < blocksOf segs) :
    s.admitDirect k segs = (.full, s) := if_pos h

theorem admitDirect_of_small {segs : Nat}
    (hq : blocksOf segs ≤ (s.cls k).quota - (s.mb k).charged - (s.mb k).pending)
    (h : s.freeRoom - s.cfg.guard < blocksOf segs) : s.admitDirect k segs = (.noRoom, s) :=
  (if_neg (Nat.not_lt.2 hq)).trans (if_pos h)

theorem admitDirect_of_room {segs : Nat}
    (hq : blocksOf segs ≤ (s.cls k).quota - (s.mb k).charged - (s.mb k).pending)
    (h : blocksOf segs ≤ s.freeRoom - s.cfg.guard) :
    s.admitDirect k segs = raisePending k (s.openObj .message (some k) (blocksOf segs)) :=
  (if_neg (Nat.not_lt.2 hq)).trans (if_neg (Nat.not_lt.2 h))

theorem admitDirect_granted {segs obj n : Nat} (h : s.admitDirect k segs = (.granted obj n, t)) :
    n = (segs + 7) / 8 := by
  by_cases hq : (s.cls k).quota - (s.mb k).charged - (s.mb k).pending < blocksOf segs
  · rw [admitDirect_of_full hq] at h
    cases h
  · by_cases hroom : s.freeRoom - s.cfg.guard < blocksOf segs
    · rw [admitDirect_of_small (Nat.not_lt.1 hq) hroom] at h
      cases h
    · rw [admitDirect_of_room (Nat.not_lt.1 hq) (Nat.not_lt.1 hroom)] at h
      obtain ⟨v, hv⟩ := raisePending_granted h
      exact openObj_granted hv

/-- The node with a place reserved in mailbox `k` (R33). -/
def State.placed (s : State) (k : Nat) : State := s.onMb k fun m => { m with reserved := m.reserved + 1 }

theorem placed_mb : ((s.placed k).mb k).charged = (s.mb k).charged ∧
    ((s.placed k).mb k).pending = (s.mb k).pending := by
  by_cases hk : k < s.mailboxes.length
  · rw [State.placed, State.mb_onMb_same s _ hk]
    exact ⟨rfl, rfl⟩
  · have hnone : (s.placed k).mb k = s.mb k := by
      simp [State.placed, State.mb, State.onMb, List.getElem?_eq_none (Nat.not_lt.1 hk)]
    rw [hnone]
    exact ⟨rfl, rfl⟩

theorem reserve_of_room (hin : s.inService k = true) (hr : s.hasRoom k = true) :
    s.reserve k = (.granted, s.placed k) := by
  simp [State.reserve, hin, hr, State.placed]

/-- A place given back leaves nothing reserved (R34). -/
theorem placed_returnRes : (s.placed k).returnRes k 0 = s := by
  rw [State.placed, State.returnRes, State.onMb_onMb]
  exact congrArg (fun l => ({ s with mailboxes := l } : State)) (List.modify_id k s.mailboxes)

theorem placed_latch (a : Alarm) : ((s.placed k).latch a).returnRes k 0 = s.latch a := by
  have hcomm : (s.placed k).latch a = (s.latch a).placed k := by
    unfold State.latch
    rw [show (s.placed k).alarms = s.alarms from rfl]
    split <;> rfl
  rw [hcomm, placed_returnRes]

section
variable (hm : s.mode = .serving) (hl : o.list = false)
include hm hl

theorem takeDirect_of_foreign (h : s.find o.target = .inRange ∨ s.find o.target = .foreign) :
    s.takeOffer src tag o = s.balk src tag .notHome := by
  rcases h with h | h <;> simp [State.takeOffer, State.takeDirect, hm, hl, h]

theorem takeDirect_of_disabled (h : s.find o.target = .disabled k) :
    s.takeOffer src tag o = s.balk src tag .noBox := by
  simp [State.takeOffer, State.takeDirect, hm, hl, h]

variable (hf : s.find o.target = .homed k)
include hf

theorem takeDirect_of_busy (hfree : s.freeIn = none) : s.takeOffer src tag o = s.balk src tag .busy := by
  simp [State.takeOffer, State.takeDirect, hm, hl, hf, hfree]

variable (hfree : s.freeIn = some j)
include hfree

theorem takeDirect_of_no_place (hr : s.hasRoom k = false) :
    s.takeOffer src tag o = s.balk src tag .full := by
  simp [State.takeOffer, State.takeDirect, hm, hl, hf, hfree, State.reserve, inService_of_homed hf, hr]

variable (hr : s.hasRoom k = true)
include hr

theorem takeDirect_of_granted {obj n : Nat} (ha : (s.placed k).admitDirect k o.segments = (.granted obj n, t)) :
    s.takeOffer src tag o = t.fillSlot j src tag o k obj n := by
  simp [State.takeOffer, State.takeDirect, hm, hl, hf, hfree, reserve_of_room (inService_of_homed hf) hr, ha]

theorem takeDirect_of_no_quota (hq : (s.cls k).quota - (s.mb k).charged - (s.mb k).pending < blocksOf o.segments) :
    s.takeOffer src tag o = s.balk src tag .full := by
  obtain ⟨hcharged, hpending⟩ := placed_mb (s := s) (k := k)
  have hadmit := admitDirect_of_full (s := s.placed k) (k := k) (segs := o.segments)
    (by rw [hcharged, hpending]; exact hq)
  simp [State.takeOffer, State.takeDirect, hm, hl, hf, hfree, reserve_of_room (inService_of_homed hf) hr, hadmit,
    placed_returnRes]

variable (hq : blocksOf o.segments ≤ (s.cls k).quota - (s.mb k).charged - (s.mb k).pending)
include hq

theorem takeDirect_of_no_store (hs : s.freeRoom - s.cfg.guard < blocksOf o.segments) :
    s.takeOffer src tag o = s.balk src tag .store := by
  obtain ⟨hcharged, hpending⟩ := placed_mb (s := s) (k := k)
  have hadmit := admitDirect_of_small (s := s.placed k) (k := k) (segs := o.segments)
    (by rw [hcharged, hpending]; exact hq) hs
  simp [State.takeOffer, State.takeDirect, hm, hl, hf, hfree, reserve_of_room (inService_of_homed hf) hr, hadmit,
    placed_returnRes]

theorem takeDirect_of_no_entry (hs : blocksOf o.segments ≤ s.freeRoom - s.cfg.guard)
    (he : 8192 < lowestFree 1 s.store.objects) :
    s.takeOffer src tag o = (s.latch .objectsFull).balk src tag .store := by
  obtain ⟨hcharged, hpending⟩ := placed_mb (s := s) (k := k)
  have hadmit := admitDirect_of_room (s := s.placed k) (k := k) (segs := o.segments)
    (by rw [hcharged, hpending]; exact hq) hs
  rw [openObj_of_full (s.placed k) he] at hadmit
  simp [State.takeOffer, State.takeDirect, hm, hl, hf, hfree, reserve_of_room (inService_of_homed hf) hr, hadmit,
    raisePending, placed_latch]

end

theorem giveUpIn_cfg : (s.giveUpIn j).cfg = s.cfg := by
  rw [giveUpIn_eq]
  split <;> exact (discardObj_only s _).cfg

/-! ### A CARRY and a CLOSE (R152, R153) -/

theorem carryIn_of_next {idx : Nat} {seg : Segment} (h : s.inByKey src tag = some j)
    (hf : (s.inSlot j).state = .filling) (hi : (s.inSlot j).received = idx)
    (ha : s.append (s.inSlot j).object seg = some t) :
    s.carryIn src tag idx seg = t.onIn j fun x => { x with received := x.received + 1 } := by
  simp [State.carryIn, h, hf, hi, ha]

/-- The slot of an inbound transfer as it commits (R153). -/
def InSlot.lingering (x : InSlot) : InSlot :=
  { x with state := .committed, reservation := false, idleTimer := none, lingerTimer := some 5000 }

theorem closeIn_of_agreed {count : Nat} (h : s.inByKey src tag = some j)
    (hf : (s.inSlot j).state = .filling) (ho : (s.inSlot j).offered = count) (hr : (s.inSlot j).received = count)
    (hc : s.commitIn (s.inSlot j) = some t) :
    s.closeIn src tag count = (t.onIn j .lingering).handReceipt j := by
  simp [State.closeIn, h, hf, ho, hr, hc]
  rfl

theorem closeIn_of_disagreed {count : Nat} (h : s.inByKey src tag = some j)
    (hf : (s.inSlot j).state = .filling) (hd : (s.inSlot j).offered ≠ count ∨ (s.inSlot j).received ≠ count) :
    s.closeIn src tag count = (s.giveUpIn j).receiptFailed src tag := by
  have hnot : ¬ (count = (s.inSlot j).offered ∧ count = (s.inSlot j).received) := fun hc =>
    hd.elim (fun hne => hne hc.1.symm) fun hne => hne hc.2.symm
  simp [State.closeIn, h, hf, hnot]

theorem commitIn_direct {x : InSlot} (hl : x.list = false) (hc : s.closeObj x.object 0 1 = (true, t)) :
    s.commitIn x = some (t.commit x.target
      (Entry.ofObject .voice x.urgent x.origin x.identity x.object x.source) true x.grant) := by
  simp [State.commitIn, hl, hc]

theorem commitIn_nobody {x : InSlot} (hl : x.list = true) (hk : s.membersWithRoom x.target = []) :
    s.commitIn x = some (s.discardObj x.object) := by
  simp [State.commitIn, hl, hk]

theorem commitIn_members {x : InSlot} (hl : x.list = true) (hk : s.membersWithRoom x.target ≠ [])
    (hc : s.closeObj x.object 0 (s.membersWithRoom x.target).length = (true, t)) :
    s.commitIn x = some ((s.membersWithRoom x.target).foldl (fun w k =>
      w.commit k (Entry.ofObject .shared x.urgent x.origin x.identity x.object x.source) false 0) t) := by
  simp [State.commitIn, hl, hk, hc]

theorem mem_membersWithRoom {l : Nat} : k ∈ s.membersWithRoom l ↔ k < s.cfg.mailboxes.length ∧
    s.inService k = true ∧ (s.mbCfg k).lists.getLsbD l = true ∧
    (s.mb k).entries.length + (s.mb k).reserved < (s.cls k).maxEntries := by
  simp [State.membersWithRoom, State.member, hasRoom_iff, and_assoc]

theorem membersWithRoom_sorted (l : Nat) : (s.membersWithRoom l).Pairwise (· < ·) :=
  List.pairwise_lt_range.sublist List.filter_sublist

end

end Sys2Proof.Machine

namespace Sys2Proof.Proofs

open Sys2Proof Sys2Proof.Machine

/-- Settles O57: each frame is its act on the node with the buffer's rest; an OFFER meets the checks of R150 and R151
in their order, and each refusal leaves the node as it was, but for the answer and OBJECTS_FULL. -/
theorem inboundFramesAreHanded : Obligations.InboundFramesAreHanded := by
  refine ⟨fun s src tag rest => ⟨fun g dst hb hg _ _ _ => ?_, fun num ext dst k hb hf ha hl hm hr => ?_,
      fun o dst b hb hk hor ha hl hr => ?_, fun o dst j t hb hk hf ht => ⟨fun hy => ?_, fun hy => ?_⟩,
      fun idx seg dst j t hb hk hf hi ha => ?_, fun count dst j t hb hk hf hl ho hr hc => ?_,
      fun count dst j ks t u hb hk hf hl ho hr hu hks hc => ⟨?_, ?_, fun k => ?_⟩,
      fun count dst j t hb hk hf hd ht => ?_⟩,
    fun s src tag dst j n obj o rest t hb hk hm hl hf hmem ha => ⟨admitList_granted ha, ?_⟩,
    fun s src tag dst j k n obj o rest t hb hk hm hl hf hfree hroom ha => ⟨admitDirect_granted ha, ?_⟩,
    fun s u src tag dst n o rest b hb hk hm hu hn => ⟨fun hor => ?_, fun hf hfull hroom hor => ?_⟩⟩
  · rw [exec_hailHanded hb]
    exact next_settle (takeHail_of_new (s := s.handedOff rest) hg)
  · rw [exec_seekHanded hb]
    refine next_settle ((seekIn_of_homed (s := s.handedOff rest) hf).trans ?_)
    rw [answer_first (s := s.handedOff rest) ha (hasFrame_eq_false_iff.2 hr)
      (sendingStopped_of_active hl (by simp [State.handedOff, hm]) (by simp [State.handedOff, hm]))]
    rfl
  · have hmode : s.mode ≠ .stopped ∧ s.mode ≠ .halted := by
      rcases hor with ⟨h | h, -⟩ | ⟨h, -⟩ <;> simp [h]
    have hbalk : (s.handedOff rest).takeOffer src tag o = (s.handedOff rest).balk src tag b := by
      rcases hor with ⟨h, rfl⟩ | ⟨hm, hl, rfl, hnone⟩
      · exact takeOffer_of_mode (s := s.handedOff rest) (by rcases h with h | h <;> simp [State.handedOff, h])
      · refine takeOffer_of_no_member (s := s.handedOff rest) hm hl (Bool.eq_false_iff.2 fun h => ?_)
        obtain ⟨k, hk, hin, hlist⟩ := hasMember_iff.1 h
        rcases hnone k hk with hno | hno
        · exact absurd (hin.symm.trans hno) (by simp)
        · exact absurd (hlist.symm.trans hno) (by simp)
    rw [exec_offerHanded hb]
    refine next_settle ((offerIn_of_new (s := s.handedOff rest) hk).trans (hbalk.trans ?_))
    rw [State.balk, answer_first (s := s.handedOff rest) ha (hasFrame_eq_false_iff.2 hr)
      (sendingStopped_of_active hl hmode.1 hmode.2)]
    rfl
  · rw [exec_offerHanded hb]
    have hframe : (s.handedOff rest).hasFrame (.inSlot j) = true :=
      (by simpa [State.hasFrame] using hy : s.hasFrame (.inSlot j) = true)
    refine next_settle ((offerIn_of_filling (s := s.handedOff rest) hk hf).trans ?_)
    rw [if_pos hframe, ht]
    rfl
  · rw [exec_offerHanded hb]
    have hframe : (s.handedOff rest).hasFrame (.inSlot j) = false := hasFrame_eq_false_iff.2 hy
    refine next_settle ((offerIn_of_filling (s := s.handedOff rest) hk hf).trans ?_)
    rw [if_neg (by simp [hframe]), ht]
    rfl
  · rw [exec_carryHanded hb]
    exact next_settle (carryIn_of_next (s := s.handedOff rest) hk hf hi ha)
  · rw [exec_closeHanded hb]
    exact next_settle (closeIn_of_agreed (s := s.handedOff rest) hk hf ho hr
      (commitIn_direct (s := s.handedOff rest) hl hc))
  · rw [exec_closeHanded hb]
    subst hks hu
    refine next_settle (closeIn_of_agreed (s := s.handedOff rest) hk hf ho hr ?_)
    rcases hc with ⟨hnone, rfl⟩ | ⟨hsome, v, hv, rfl⟩
    · exact commitIn_nobody (s := s.handedOff rest) hl hnone
    · exact commitIn_members (s := s.handedOff rest) hl hsome hv
  · exact hks ▸ membersWithRoom_sorted _
  · exact hks ▸ mem_membersWithRoom
  · rw [exec_closeHanded hb]
    refine next_settle ((closeIn_of_disagreed (s := s.handedOff rest) hk hf hd).trans ?_)
    rw [State.receiptFailed, State.frameTo, giveUpIn_cfg, giveUpIn_eq, ht]
    rfl
  · rw [exec_offerHanded hb]
    refine next_settle ((offerIn_of_new (s := s.handedOff rest) hk).trans ?_)
    rw [takeList_of_granted (s := s.handedOff rest) hm hl (hasMember_iff.2 hmem) hf ha, State.fillSlot, hl]
    rfl
  · rw [exec_offerHanded hb]
    refine next_settle ((offerIn_of_new (s := s.handedOff rest) hk).trans ?_)
    rw [takeDirect_of_granted (s := s.handedOff rest) hm hl hf hfree (hasRoom_iff.2 hroom) ha, State.fillSlot, hl]
    rfl
  · subst hu hn
    rw [exec_offerHanded hb]
    refine next_settle ((offerIn_of_new (s := s.handedOff rest) hk).trans ?_)
    change (s.handedOff rest).takeOffer src tag o = (s.handedOff rest).balk src tag b
    rcases hor with ⟨hl, ⟨hf, rfl⟩ | ⟨⟨k, hf⟩, rfl⟩ | ⟨k, hf, ⟨hfree, rfl⟩ | ⟨hfree, rfl, hfull⟩ |
      ⟨hfree, rfl, hroom, hq, hs⟩⟩⟩ | ⟨hl, hmem, ⟨hfree, rfl⟩ | ⟨hfree, rfl, hs⟩⟩
    · exact takeDirect_of_foreign (s := s.handedOff rest) hm hl hf
    · exact takeDirect_of_disabled (s := s.handedOff rest) hm hl hf
    · exact takeDirect_of_busy (s := s.handedOff rest) hm hl hf hfree
    · obtain ⟨j, hj⟩ := Option.isSome_iff_exists.1 hfree
      cases hr : s.hasRoom k with
      | false => exact takeDirect_of_no_place (s := s.handedOff rest) hm hl hf hj hr
      | true =>
        exact takeDirect_of_no_quota (s := s.handedOff rest) hm hl hf hj hr
          (hfull.resolve_left (Nat.not_le.2 (hasRoom_iff.1 hr)))
    · obtain ⟨j, hj⟩ := Option.isSome_iff_exists.1 hfree
      exact takeDirect_of_no_store (s := s.handedOff rest) hm hl hf hj (hasRoom_iff.2 hroom) hq hs
    · exact takeList_of_busy (s := s.handedOff rest) hm hl (hasMember_iff.2 hmem) hfree
    · obtain ⟨j, hj⟩ := Option.isSome_iff_exists.1 hfree
      exact takeList_of_refused (s := s.handedOff rest) hm hl (hasMember_iff.2 hmem) hj
        (admitList_of_small (s := s.handedOff rest) hs) (by simp)
  · subst hu hn
    obtain ⟨j, hj⟩ := Option.isSome_iff_exists.1 hf
    rw [exec_offerHanded hb]
    refine next_settle ((offerIn_of_new (s := s.handedOff rest) hk).trans ?_)
    have hbalk : (s.handedOff rest).takeOffer src tag o =
        ((s.handedOff rest).latch .objectsFull).balk src tag .store := by
      rcases hor with ⟨hl, k, hhome, hplace, hq⟩ | ⟨hl, hb, hmem⟩
      · exact takeDirect_of_no_entry (s := s.handedOff rest) hm hl hhome hj (hasRoom_iff.2 hplace) hq hroom hfull
      · have hadmit := admitList_of_room (s := s.handedOff rest) hroom hb
        rw [openObj_of_full (s.handedOff rest) hfull] at hadmit
        exact takeList_of_refused (s := s.handedOff rest) hm hl (hasMember_iff.2 hmem) hj hadmit (by simp)
    rw [hbalk, State.balk, State.frameTo, latch_cfg]
    rfl

end Sys2Proof.Proofs

/-! PROOF. A broadcast to no node asks for no reference, so no count of references refuses it (R138). -/

namespace Sys2Proof.Machine

theorem offerLists_nobody {s : State} {l o k g : Nat} {urgent : Bool} (h : s.freeGroup = some g) :
    (s.offerLists l o k urgent []).1 = true := by
  simp [State.offerLists, h, State.addRefs]

/-- An object with more references than the store ever counts. -/
def overcounted : Obj :=
  { complete := true, use := .shared, chain := [], segments := 16, refs := 65536, owner := none,
    earmark := 0, silentTail := 0 }

/-- A node whose object 1 is counted beyond 65,535. -/
def overcountedNode : State :=
  State.reset.onStore fun st => { st with objects := [(1, overcounted)] }

theorem overcountedNode_obj : overcountedNode.obj? 1 = some overcounted := rfl

theorem overcountedNode_group : overcountedNode.freeGroup = some 0 := rfl

end Sys2Proof.Machine

namespace Sys2Proof.Proofs

open Sys2Proof Sys2Proof.Machine

/-- Refutes O22: an object whose count stands at 65,536, which no rule of R20 gives but the statement's premises
allow, and a broadcast to no node: the offer asks for no reference and is taken, where the statement has it
refused because 65,535 < 65,536 + 0. -/
theorem not_forwardsAndBroadcastCopies : ¬ Obligations.ForwardsAndBroadcastCopies := by
  rintro ⟨-, -, -, -, -, hlists, -⟩
  obtain ⟨-, hgroup⟩ := hlists overcountedNode 1 0 0 false [] overcounted overcountedNode_obj rfl rfl
  obtain ⟨hrefused, -⟩ := hgroup 0 (Nat.zero_le _) rfl (by simp)
  have htaken := offerLists_nobody (s := overcountedNode) (l := 0) (o := 1) (k := 0) (urgent := false)
    overcountedNode_group
  rw [hrefused (by decide)] at htaken
  cases htaken

end Sys2Proof.Proofs

/-! PROOF. The warm rebuild completes the start: what the blocks hold after it (R24, R51, R117, R159, R173, R180). -/

namespace Sys2Proof.Machine

/-! ### The parts of a rebuild (R180) -/

section
variable (a : IndexArea) (c : Settings) (f : Nat → ClassRec)

/-- The objects of all object pages, by ascending number. -/
def readObjects : List (Nat × ObjImage) := (List.range Config.objectPages).flatMap fun j => a.objectsOn j

/-- The objects that pass R24's tests. -/
def acceptedObjects : List (Nat × Obj) := acceptObjects c.pool c.mailboxes.length (readObjects a) []

/-- The mailboxes as their pages and the accepted objects give them, each with its report of damage (R51). -/
def readBoxes : List (Bool × Mailbox) :=
  (List.range c.mailboxes.length).map fun k => restoreMailbox (acceptedObjects a c) (f k) (a.mailboxOn k)

/-- The queue as its pages and the accepted objects give it (R159). -/
def readQueue : List (Option QEntry) :=
  (List.range Config.queuePositions).map fun p => restoredAt a (acceptedObjects a c) c.mailboxes.length p

/-- The objects with their counts set, those without a reference freed (R24). -/
def countedObjects : List (Nat × Obj) :=
  setCounts (acceptedObjects a c) (holdings ((readBoxes a c f).map (·.2)) (readQueue a c))

/-- The SHARED objects dropped for the budget (R24). -/
def droppedObjects : List Nat := overBudget c.budget (countedObjects a c f).reverse

theorem rebuildIndex_objects_eq : (rebuildIndex a c f).objects =
    (countedObjects a c f).filter fun p => decide (p.1 ∉ droppedObjects a c f) := by
  delta rebuildIndex droppedObjects countedObjects readQueue readBoxes acceptedObjects readObjects
  with_reducible rfl

theorem rebuildIndex_mailboxes : (rebuildIndex a c f).mailboxes =
    (readBoxes a c f).map fun b => b.2.without (rebuildIndex a c f).objects (droppedObjects a c f) := by
  delta rebuildIndex droppedObjects countedObjects readQueue readBoxes acceptedObjects readObjects
  with_reducible rfl

theorem rebuildIndex_queue :
    (rebuildIndex a c f).queue = queueWithout (readQueue a c) (droppedObjects a c f) := by
  delta rebuildIndex droppedObjects countedObjects readQueue readBoxes acceptedObjects readObjects
  with_reducible rfl

variable {a c f}

/-- A rebuilt mailbox holds nothing for a session, and its charge is counted anew (R51). -/
theorem rebuilt_mailbox {m : Mailbox} (h : m ∈ (rebuildIndex a c f).mailboxes) :
    m.pending = 0 ∧ m.reserved = 0 ∧ m.lock = none ∧ m.erasePending = [] ∧
      m.charged = chargedOf (rebuildIndex a c f).objects m.entries := by
  rw [rebuildIndex_mailboxes] at h
  obtain ⟨b, hb, rfl⟩ := List.mem_map.1 h
  obtain ⟨k, -, rfl⟩ := List.mem_map.1 hb
  exact ⟨rfl, rfl, rfl, rfl, rfl⟩

theorem rebuilt_mailboxes_length : (rebuildIndex a c f).mailboxes.length = c.mailboxes.length := by
  simp [rebuildIndex_mailboxes, readBoxes]

theorem mem_queueWithout {qs : List (Option QEntry)} {dropped : List Nat} {e : QEntry} :
    some e ∈ queueWithout qs dropped ↔ some e ∈ qs ∧ e.object ∉ dropped := by
  simp only [queueWithout, List.mem_map, Option.bind_eq_some_iff]
  constructor
  · rintro ⟨q, hq, x, rfl, hx⟩
    split at hx
    · cases hx
    · cases hx
      exact ⟨hq, ‹_›⟩
  · rintro ⟨hq, hn⟩
    exact ⟨some e, hq, e, rfl, if_neg hn⟩

/-- A rebuilt queue entry waits, its counts 0, unlocated (R159). -/
theorem rebuilt_entry {e : QEntry} (h : some e ∈ (rebuildIndex a c f).queue) :
    ∃ q : QImage, e = q.restored c.mailboxes.length := by
  rw [rebuildIndex_queue, mem_queueWithout, readQueue, List.mem_map] at h
  obtain ⟨⟨p, -, hp⟩, -⟩ := h
  obtain ⟨q, -, hq⟩ := Option.bind_eq_some_iff.1 hp
  split at hq
  · exact ⟨q, (Option.some.inj hq).symm⟩
  · cases hq

end

/-! ### Groups and the counter (R159) -/

/-- The entries of group `g` in the order of their positions. -/
def groupEntries (qs : List (Option QEntry)) (g : Nat) : List QEntry :=
  qs.filterMap fun q => q.bind fun e => if e.group = some g then some e else none

section
variable {qs : List (Option QEntry)} {g : Nat}

theorem restoredGroup_eq (qs : List (Option QEntry)) (g : Nat) : restoredGroup qs g =
    (groupEntries qs g).head?.map fun e => ⟨e.mailbox, e.target, (groupEntries qs g).length, 0⟩ := by
  unfold restoredGroup
  rw [show (qs.filterMap fun q => q.bind fun e => if e.group = some g then some e else none) = groupEntries qs g from rfl]
  cases groupEntries qs g <;> rfl

theorem mem_groupEntries {e : QEntry} : e ∈ groupEntries qs g ↔ some e ∈ qs ∧ e.group = some g := by
  simp only [groupEntries, List.mem_filterMap, Option.bind_eq_some_iff, Option.ite_none_right_eq_some,
    Option.some.injEq]
  constructor
  · rintro ⟨q, hq, x, rfl, hg, rfl⟩
    exact ⟨hq, hg⟩
  · rintro ⟨hq, hg⟩
    exact ⟨some e, hq, e, rfl, hg, rfl⟩

theorem groupEntries_eq_nil : groupEntries qs g = [] ↔ ∀ e, some e ∈ qs → e.group ≠ some g := by
  rw [List.eq_nil_iff_forall_not_mem]
  simp only [mem_groupEntries, not_and, ne_eq]

theorem groupEntries_length : (groupEntries qs g).length =
    (qs.filter fun q => q.bind (·.group) == some g).length := by
  induction qs with
  | nil => rfl
  | cons q qs ih =>
    unfold groupEntries at ih ⊢
    rw [List.filterMap_cons, List.filter_cons]
    cases q with
    | none => simpa using ih
    | some e =>
      by_cases hg : e.group = some g
      · simp [hg, ih]
      · simp [hg, ih]

theorem groupEntries_head {a b : List (Option QEntry)} {e : QEntry} (h : qs = a ++ some e :: b)
    (he : e.group = some g) (ha : ∀ f, some f ∈ a → f.group ≠ some g) : (groupEntries qs g).head? = some e := by
  have hnone : groupEntries a g = [] := groupEntries_eq_nil.2 ha
  have hsplit : groupEntries qs g = groupEntries a g ++ groupEntries (some e :: b) g := by
    rw [h]
    exact List.filterMap_append
  rw [hsplit, hnone]
  simp [groupEntries, he]

theorem highestSeq_foldl (qs : List (Option QEntry)) (n : Nat) :
    let top := qs.foldl (fun n q => match q with
      | none => n
      | some e => max n e.seq) n
    n ≤ top ∧ (∀ e, some e ∈ qs → e.seq ≤ top) ∧ (top = n ∨ ∃ e, some e ∈ qs ∧ e.seq = top) := by
  induction qs generalizing n with
  | nil => simp
  | cons q qs ih =>
    cases q with
    | none =>
      obtain ⟨hle, hall, htop⟩ := ih n
      exact ⟨hle, fun e he => hall e (by simpa using he), htop.imp id fun ⟨e, he, heq⟩ => ⟨e, by simp [he], heq⟩⟩
    | some x =>
      obtain ⟨hle, hall, htop⟩ := ih (max n x.seq)
      refine ⟨(le_max_left _ _).trans hle, fun e he => ?_, ?_⟩
      · rcases List.mem_cons.1 he with he | he
        · cases he
          exact (le_max_right _ _).trans hle
        · exact hall e he
      · rcases htop with htop | ⟨e, he, heq⟩
        · rcases max_choice n x.seq with hmax | hmax
          · exact .inl (htop.trans hmax)
          · exact .inr ⟨x, by simp, (htop.trans hmax).symm⟩
        · exact .inr ⟨e, by simp [he], heq⟩

/-- The counter is the highest sequence of the queue, and 0 for an empty one (R159). -/
theorem highestSeq_spec (qs : List (Option QEntry)) : (∀ e, some e ∈ qs → e.seq ≤ highestSeq qs) ∧
    (highestSeq qs = 0 ∨ ∃ e, some e ∈ qs ∧ e.seq = highestSeq qs) := (highestSeq_foldl qs 0).2

end

/-! ### The pages marked (R180 step 6) -/

theorem objectNumbers_changed (p : PageId → Bool) (m : Nat) :
    objectNumbers ((indexPages m).filter p) = (List.range 512).filter fun j => p (.object j) := by
  change _ = (List.range Config.objectPages).filter fun j => p (.object j)
  unfold objectNumbers indexPages
  generalize List.range Config.objectPages = objects
  generalize List.range Config.queuePages = queues
  simp [List.filterMap_map, List.filter_map, Function.comp_def]

theorem otherPages_changed (p : PageId → Bool) (m : Nat) : otherPages ((indexPages m).filter p) =
    ((List.range m).map PageId.mailbox ++ (List.range 4).map PageId.queue).filter p := by
  change _ = ((List.range m).map PageId.mailbox ++ (List.range Config.queuePages).map PageId.queue).filter p
  unfold otherPages indexPages
  generalize List.range Config.objectPages = objects
  generalize List.range Config.queuePages = queues
  simp [List.filter_map, Function.comp_def]

/-! ### The node after the rebuild -/

section
variable {s : State} {r : Rebuilt}

theorem mem_alarms_evalLow (a : Alarm) :
    a ∈ s.evalLow.alarms ↔ (a = .storeLow ∧ s.storeLow = true) ∨ a ∈ s.alarms := by
  unfold State.evalLow
  split
  · rename_i h
    rw [mem_alarms_latch]
    simp [h]
  · rename_i h
    simp [h]

theorem lampSetup_frame : s.lampSetup.index = s.index ∧ s.lampSetup.cfg = s.cfg ∧ s.lampSetup.writer = s.writer ∧
    s.lampSetup.alarms = s.alarms := ⟨rfl, rfl, rfl, rfl⟩

theorem markChanged_frame : s.markChanged.lamp = s.lamp ∧ s.markChanged.alarms = s.alarms := by
  simp [State.markChanged]

theorem rebuild_marked (h : r = rebuildIndex s.index s.cfg s.cls) :
    s.rebuild = (s.restore r).lampSetup.markChanged := by rw [h, State.rebuild]

theorem rebuild_eq (h : r = rebuildIndex s.index s.cfg s.cls) :
    s.rebuild = { s.restore r with lamp := s.rebuild.lamp, writer := s.rebuild.writer } := by
  subst h
  rfl

/-- The node with damage reported and the rebuilt store, before STORE_LOW is evaluated (R22, R24). -/
def State.restored (s : State) (r : Rebuilt) : State :=
  (if r.damaged then s.latch .indexDamaged else s).onStore fun _ =>
    { free := freeBlocks s.cfg.pool r.objects, objects := r.objects, earmark := 0
      sharedUse := sharedBlocks r.objects, ready := true }

theorem restored_eq : s.restored r = { s with
    alarms := (s.restored r).alarms, lineOut := (s.restored r).lineOut
    store := { free := freeBlocks s.cfg.pool r.objects, objects := r.objects, earmark := 0
               sharedUse := sharedBlocks r.objects, ready := true } } := by
  unfold State.restored
  split
  · rw [latch_eq]
    rfl
  · rfl

theorem restore_alarms : (s.restore r).alarms = (s.restored r).evalLow.alarms := by
  have hcfg : (if r.damaged then s.latch .indexDamaged else s).cfg = s.cfg := by
    split
    · exact latch_cfg s _
    · rfl
  unfold State.restore State.restored
  dsimp only
  rw [hcfg]
  rfl

theorem rebuild_alarms (h : r = rebuildIndex s.index s.cfg s.cls) :
    (r.damaged = true → .indexDamaged ∈ s.rebuild.alarms) ∧
      (.storeLow ∈ s.rebuild.alarms ↔ .storeLow ∈ s.alarms ∨ s.rebuild.storeLow = true) := by
  have hstore : s.rebuild.store = (s.restored r).store := by
    rw [rebuild_eq h]
    exact (congrArg State.store (restore_eq s r)).trans (by rw [restored_eq])
  have hcfg : s.rebuild.cfg = (s.restored r).cfg := by
    rw [rebuild_eq h]
    exact (by rw [restore_eq] : (s.restore r).cfg = s.cfg).trans (by rw [restored_eq])
  have halarms : s.rebuild.alarms = (s.restored r).evalLow.alarms := by
    rw [rebuild_marked h, markChanged_frame.2, lampSetup_frame.2.2.2, restore_alarms]
  have hlow : s.rebuild.storeLow = (s.restored r).storeLow := by
    rw [State.storeLow, State.storeLow, State.lowThreshold, State.lowThreshold, hstore, hcfg]
  rw [halarms, hlow, mem_alarms_evalLow, mem_alarms_evalLow]
  refine ⟨fun hd => .inr ?_, ?_⟩
  · rw [State.restored, if_pos hd]
    exact (mem_alarms_latch _ _ _).2 (.inl rfl)
  · have hkept : Alarm.storeLow ∈ (s.restored r).alarms ↔ Alarm.storeLow ∈ s.alarms := by
      unfold State.restored
      split
      · exact (mem_alarms_latch _ _ _).trans (by simp)
      · exact Iff.rfl
    rw [hkept]
    simp [or_comm]

theorem rebuild_lamp (h : r = rebuildIndex s.index s.cfg s.cls) :
    s.rebuild.lamp.recs.length = s.cfg.mailboxes.length ∧
      (∀ (k : Nat) (m : Mailbox), r.mailboxes[k]? = some m → s.rebuild.lamp.recs[k]? = some
        ⟨(s.mbCfg k).usable && (s.cls k).lampEnabled && decide (1 ≤ m.newCount), .unknown, false⟩) ∧
      s.rebuild.lamp.queue = [] ∧ s.rebuild.lamp.outstanding = [] := by
  have hmb : (s.restore r).mailboxes = r.mailboxes := by rw [restore_eq]
  have hcfg : (s.restore r).cfg = s.cfg := by rw [restore_eq]
  have hlamp : s.rebuild.lamp = (s.restore r).lampSetup.lamp := by rw [h]; rfl
  rw [hlamp]
  refine ⟨?_, fun k m hm => ?_, rfl, rfl⟩
  · rw [lampSetup_recs, List.length_map, List.length_range, hmb, h, rebuilt_mailboxes_length]
  · obtain ⟨hk, -⟩ := List.getElem?_eq_some_iff.1 hm
    rw [lampSetup_recs, hmb, List.getElem?_map, List.getElem?_range hk]
    simp only [Option.map_some, State.desiredOf, State.mb, State.cls, State.mbCfg, hcfg, hmb, hm, Option.getD_some]

theorem markChanged_pageImage (p : PageId) : s.markChanged.pageImage p = s.pageImage p := by
  obtain ⟨hstore, hmailboxes, hdeliv⟩ : s.markChanged.store = s.store ∧ s.markChanged.mailboxes = s.mailboxes ∧
      s.markChanged.deliv = s.deliv := by simp [State.markChanged]
  cases p with
  | mailbox k => rw [State.pageImage, State.pageImage, State.mb_congr hmailboxes]
  | object j => rw [State.pageImage, State.pageImage, State.objectPageImage, State.objectPageImage, hstore]
  | queue q => simp only [State.pageImage, State.queuePageImage, State.qEntry?, hdeliv]

theorem rebuild_writer (h : r = rebuildIndex s.index s.cfg s.cls) : s.rebuild.writer = {
    dirtyObjects := (List.range 512).filter fun j =>
      s.index.checked (.object j) != some (s.rebuild.pageImage (.object j))
    dirtyOthers := ((List.range s.cfg.mailboxes.length).map PageId.mailbox ++
      (List.range 4).map PageId.queue).filter fun p => s.index.checked p != some (s.rebuild.pageImage p)
    writing := s.writer.writing } := by
  have hindex : (s.restore r).index = s.index := by rw [restore_eq]
  have hcfg : (s.restore r).cfg = s.cfg := by rw [restore_eq]
  have hwriting : (s.restore r).writer = s.writer := by rw [restore_eq]
  obtain ⟨hlampIndex, hlampCfg, hlampWriter, -⟩ := lampSetup_frame (s := s.restore r)
  rw [hindex] at hlampIndex
  rw [hcfg] at hlampCfg
  rw [hwriting] at hlampWriter
  rw [rebuild_marked h]
  simp only [markChanged_pageImage]
  simp only [State.markChanged, State.changedPages, State.onWriter_writer, hlampIndex, hlampCfg, hlampWriter,
    objectNumbers_changed, otherPages_changed]

end

end Sys2Proof.Machine

namespace Sys2Proof.Proofs

open Sys2Proof Sys2Proof.Machine

/-- Settles O30: the rebuilt node is read off its parts, the groups and the counter by induction on the queue. -/
theorem rebuildEntersServing : Obligations.RebuildEntersServing := by
  refine ⟨fun s r hs hr => ⟨s.rebuild, ?_⟩, fun s r hs hr hq hc => ?_⟩
  all_goals
    have hexec : exec .rebuildDone s = .next (s.rebuild.enterServing).settle := by
      change execRebuildDone s = _
      rw [execRebuildDone, if_pos hs]
      rfl
    have hu := rebuild_eq hr
    have hrestore := restore_eq s r
    obtain ⟨hlength, hrecs, hqueue, hout⟩ := rebuild_lamp hr
    obtain ⟨hdamaged, hlow⟩ := rebuild_alarms hr
    have hcfg : s.rebuild.cfg = s.cfg := by rw [hu, hrestore]
    have hstore : s.rebuild.store = {
        free := freeBlocks s.cfg.pool r.objects, objects := r.objects, earmark := 0
        sharedUse := sharedBlocks r.objects, ready := true } := by rw [hu, hrestore]
    have hmailboxes : s.rebuild.mailboxes = r.mailboxes := by rw [hu, hrestore]
    have hdeliv : s.rebuild.deliv = { s.deliv with
        queue := r.queue, groups := (List.range 8).map (restoredGroup r.queue)
        enqCounter := highestSeq r.queue } := by rw [hu, hrestore]
  · have hseq := highestSeq_spec r.queue
    have hgroup : ∀ g, g < 8 → s.rebuild.deliv.groups[g]? = some (restoredGroup r.queue g) := fun g hg => by
      rw [hdeliv, List.getElem?_map, List.getElem?_range hg]
      rfl
    have hlt : ∀ {g : Nat} {x : Option Group}, s.rebuild.deliv.groups[g]? = some x → g < 8 := fun hx => by
      obtain ⟨hg, -⟩ := List.getElem?_eq_some_iff.1 hx
      simpa [hdeliv] using hg
    refine ⟨?_, by rw [hstore], by rw [hstore], by rw [hstore], by rw [hstore]; rfl, by rw [hstore]; rfl, hmailboxes,
      fun m hm => ?_, by rw [hdeliv], by rw [hdeliv]; exact hseq.1, by rw [hdeliv]; exact hseq.2, fun e he => ?_,
      fun g hg => ?_, fun g x hx => ?_, fun g a e b hg hsplit he ha => ?_, hlength, hrecs, hqueue, hout,
      rebuild_writer hr, hdamaged, hlow, by rw [hu, hrestore], hcfg, by rw [hu, hrestore], by rw [hu, hrestore],
      by rw [hu, hrestore], by rw [hu, hrestore], by rw [hu, hrestore], by rw [hu, hrestore]⟩
    · rw [hexec, ← hcfg]
      rfl
    · subst hr
      obtain ⟨h1, h2, h3, h4, h5⟩ := rebuilt_mailbox hm
      exact ⟨h1, h2, h3, h4, h5⟩
    · subst hr
      obtain ⟨q, rfl⟩ := rebuilt_entry he
      exact ⟨rfl, rfl, rfl, rfl, rfl, rfl⟩
    · rw [hgroup g hg, restoredGroup_eq, Option.some.injEq, Option.map_eq_none_iff, List.head?_eq_none_iff,
        groupEntries_eq_nil]
    · have hx' := (hgroup g (hlt hx)).symm.trans hx
      rw [restoredGroup_eq, Option.some.injEq, Option.map_eq_some_iff] at hx'
      obtain ⟨e, -, rfl⟩ := hx'
      exact ⟨rfl, groupEntries_length⟩
    · have hrestored : restoredGroup r.queue g = some ⟨e.mailbox, e.target, (groupEntries r.queue g).length, 0⟩ := by
        rw [restoredGroup_eq, groupEntries_head hsplit he ha]
        rfl
      exact ⟨_, (hgroup g hg).trans (congrArg some hrestored), rfl, rfl⟩
  · have hclock : s.rebuild.house.clock = none := by
      rw [hu, hrestore]
      exact hc
    have hstill := enterServing_still s.rebuild hqueue (by rw [hdeliv]; exact hq) hclock
    have hmode : s.rebuild.enterServing.mode ≠ .draining := by
      rw [hstill]
      exact Mode.noConfusion
    have hcounter : highestSeq r.queue = 0 :=
      (highestSeq_spec r.queue).2.resolve_right fun ⟨e, he, _⟩ => absurd (hq _ he) (by simp)
    refine ⟨_, hexec, ?_⟩
    rw [settle_eq _ hmode, hstill]
    refine ⟨rfl, rfl, ?_, ?_, ?_, ?_, hmailboxes, ?_, ?_, hqueue, hout, hdamaged, by simp, ?_, hcfg, ?_⟩
    · exact congrArg Store.objects hstore
    · exact congrArg Store.earmark hstore
    · exact congrArg Store.ready hstore
    · exact congrArg Store.free hstore
    · exact congrArg Delivery.queue hdeliv
    · exact (congrArg Delivery.enqCounter hdeliv).trans hcounter
    · rw [hu, hrestore]
    · rw [hu, hrestore]

end Sys2Proof.Proofs

/-! PROOF. What the rebuild restores and what it keeps (R24, R51, R65, R159). -/

namespace Sys2Proof.Machine

/-! ### The accepted objects (R24) -/

section
variable {p m n : Nat} {l : List (Nat × ObjImage)} {used : List Nat}

theorem mem_acceptObjects {x : Obj} (h : (n, x) ∈ acceptObjects p m l used) :
    ∃ o, (n, o) ∈ l ∧ o.acceptable p m = true ∧ x = o.restored := by
  induction l generalizing used with
  | nil => cases h
  | cons y l ih =>
    obtain ⟨k, o⟩ := y
    unfold acceptObjects at h
    split at h
    · rename_i hacc
      rcases List.mem_cons.1 h with h | h
      · cases h
        exact ⟨o, List.mem_cons_self, (Bool.and_eq_true_iff.1 hacc).1, rfl⟩
      · obtain ⟨o', ho', hrest⟩ := ih h
        exact ⟨o', List.mem_cons_of_mem _ ho', hrest⟩
    · obtain ⟨o', ho', hrest⟩ := ih h
      exact ⟨o', List.mem_cons_of_mem _ ho', hrest⟩

/-- An acceptable object that no acceptable object of a lower number overlaps is accepted (R24). -/
theorem acceptObjects_of_apart {o : ObjImage} (hl : (l.map (·.1)).Pairwise (· < ·)) (ho : (n, o) ∈ l)
    (hacc : o.acceptable p m = true) (hused : ∀ b ∈ o.chain, b ∉ used)
    (hapart : ∀ x ∈ l, x.1 < n → x.2.acceptable p m = true → ∀ b ∈ x.2.chain, b ∉ o.chain) :
    (n, o.restored) ∈ acceptObjects p m l used := by
  induction l generalizing used with
  | nil => cases ho
  | cons y l ih =>
    obtain ⟨k, q⟩ := y
    rw [List.map_cons, List.pairwise_cons] at hl
    have hrest : ∀ x ∈ l, x.1 < n → x.2.acceptable p m = true → ∀ b ∈ x.2.chain, b ∉ o.chain :=
      fun x hx => hapart x (List.mem_cons_of_mem _ hx)
    unfold acceptObjects
    rcases List.mem_cons.1 ho with heq | ho
    · cases heq
      have hcond : (o.acceptable p m && o.chain.all fun b => decide (b ∉ used)) = true := by
        simpa [hacc] using hused
      rw [if_pos hcond]
      exact List.mem_cons_self
    · have hlt : k < n := hl.1 n (List.mem_map_of_mem (f := (·.1)) ho)
      split
      · rename_i hcond
        have hq : q.acceptable p m = true := (Bool.and_eq_true_iff.1 hcond).1
        refine List.mem_cons_of_mem _ (ih hl.2 ho (fun b hb hmem => ?_) hrest)
        rcases List.mem_append.1 hmem with hmem | hmem
        · exact hapart (k, q) List.mem_cons_self hlt hq b hmem hb
        · exact hused b hb hmem
      · exact ih hl.2 ho hused hrest

/-- The blocks of the SHARED objects among the accepted ones with some numbers are among those read. -/
theorem sharedBlocks_accepted (q : Nat → Bool) :
    sharedBlocks ((acceptObjects p m l used).filter fun x => q x.1) ≤
      ((l.filter fun x => q x.1 && x.2.use == .shared).map fun x => x.2.chain.length).sum := by
  induction l generalizing used with
  | nil => exact Nat.le_refl _
  | cons y l ih =>
    obtain ⟨k, o⟩ := y
    unfold acceptObjects
    split
    · have hih := ih (used := o.chain ++ used)
      unfold sharedBlocks at hih ⊢
      by_cases hk : q k = true <;> by_cases hu : o.use = .shared <;>
        simp [hk, hu, ObjImage.restored] at hih ⊢ <;> omega
    · refine (ih (used := used)).trans ?_
      rw [List.filter_cons]
      split
      · simp
      · exact Nat.le_refl _

theorem acceptable_spec {o : ObjImage} (h : o.acceptable p m = true) : 16 ≤ o.segments ∧ o.segments ≤ 9600 ∧
    o.chain.length = (o.segments + 7) / 8 ∧ ∀ b ∈ o.chain, b < p := by
  simp only [ObjImage.acceptable, Bool.and_eq_true, List.all_eq_true, decide_eq_true_eq, beq_iff_eq] at h
  obtain ⟨⟨⟨⟨⟨⟨-, hmin⟩, hmax⟩, hlen⟩, hpool⟩, -⟩, -⟩ := h
  exact ⟨hmin, hmax, hlen, hpool⟩

end

/-! ### Counts and the budget (R24) -/

theorem mem_setCounts {l : List (Nat × Obj)} {held : List Nat} {n : Nat} {x : Obj} :
    (n, x) ∈ setCounts l held ↔ ∃ y, (n, y) ∈ l ∧ held.count n ≠ 0 ∧ x = { y with refs := held.count n } := by
  rw [setCounts_eq, List.mem_map]
  constructor
  · rintro ⟨⟨k, y⟩, hy, heq⟩
    obtain ⟨hmem, hcount⟩ := List.mem_filter.1 hy
    cases heq
    exact ⟨y, hmem, of_decide_eq_true hcount, rfl⟩
  · rintro ⟨y, hy, hcount, rfl⟩
    exact ⟨(n, y), List.mem_filter.2 ⟨hy, decide_eq_true hcount⟩, rfl⟩

theorem sharedBlocks_counted (l : List (Nat × Obj)) (held : List Nat) (q : Nat → Bool) :
    sharedBlocks ((setCounts l held).filter fun x => q x.1) ≤ sharedBlocks (l.filter fun x => q x.1) := by
  induction l with
  | nil => exact Nat.le_refl _
  | cons y l ih =>
    unfold setCounts sharedBlocks at ih ⊢
    rw [List.filterMap_cons]
    by_cases hc : held.count y.1 = 0 <;> by_cases hk : q y.1 = true <;> by_cases hu : y.2.use = .shared <;>
      simp [hc, hk, hu] at ih ⊢ <;> omega

/-- A dropped object is a SHARED one that overruns the budget with those after it in the list (R24). -/
theorem mem_overBudget {budget n : Nat} {l : List (Nat × Obj)} (h : n ∈ overBudget budget l) :
    ∃ front x rest, l = front ++ (n, x) :: rest ∧ x.use = .shared ∧ budget < sharedBlocks ((n, x) :: rest) := by
  induction l with
  | nil => cases h
  | cons y l ih =>
    unfold overBudget at h
    split at h
    · cases h
    · rename_i hover
      split at h
      · rename_i hu
        rcases List.mem_cons.1 h with rfl | h
        · exact ⟨[], y.2, l, rfl, hu, Nat.not_le.1 hover⟩
        · obtain ⟨front, x, rest, rfl, hx⟩ := ih h
          exact ⟨y :: front, x, rest, rfl, hx⟩
      · obtain ⟨front, x, rest, rfl, hx⟩ := ih h
        exact ⟨y :: front, x, rest, rfl, hx⟩

/-! ### Mailboxes (R51, R65) -/

theorem firstOfNumber_sublist (es : List Entry) (seen : List Nat) : (firstOfNumber es seen).Sublist es := by
  induction es generalizing seen with
  | nil => exact .slnil
  | cons e es ih =>
    unfold firstOfNumber
    split
    · exact (ih seen).cons _
    · exact (ih _).cons_cons _

theorem firstOfNumber_of_nodup {es : List Entry} {seen : List Nat} (h : (es.map (·.number)).Nodup)
    (hs : ∀ e ∈ es, e.number ∉ seen) : firstOfNumber es seen = es := by
  induction es generalizing seen with
  | nil => rfl
  | cons e es ih =>
    rw [List.map_cons, List.nodup_cons] at h
    unfold firstOfNumber
    rw [if_neg (hs e List.mem_cons_self), ih h.2]
    intro x hx hmem
    rcases List.mem_cons.1 hmem with heq | hmem
    · exact h.1 (heq ▸ List.mem_map_of_mem (f := (·.number)) hx)
    · exact hs x (List.mem_cons_of_mem _ hx) hmem

theorem trimQuota_sublist (objs : List (Nat × Obj)) (quota : Nat) (es : List Entry) :
    (trimQuota objs quota es).Sublist es := by
  induction es with
  | nil => exact .slnil
  | cons e es ih =>
    unfold trimQuota
    split
    · exact List.Sublist.refl _
    · split
      · exact ih.cons _
      · exact ih.cons_cons _

theorem trimQuota_of_room {objs : List (Nat × Obj)} {quota : Nat} {es : List Entry}
    (h : chargedOf objs es ≤ quota) : trimQuota objs quota es = es := by
  cases es with
  | nil => rfl
  | cons e es => exact if_pos h

theorem chargedOf_reverse (objs : List (Nat × Obj)) (es : List Entry) :
    chargedOf objs es.reverse = chargedOf objs es := by
  unfold chargedOf
  rw [List.filter_reverse, List.map_reverse, List.sum_reverse]

section
variable {objs : List (Nat × Obj)} {c : ClassRec} {g : MailboxImage}

/-- The entries of a page with their fields in range and an object where they need one (R51 steps 1 and 2). -/
def soundEntries (objs : List (Nat × Obj)) (g : MailboxImage) : List Entry :=
  (g.entries.filter fun e => e.inRange && e.agrees objs).filter fun e => e.present objs

theorem restoreMailbox_entries_sublist : (restoreMailbox objs c g).2.entries.Sublist (soundEntries objs g) := by
  have htrim := (trimQuota_sublist objs c.quota
    ((firstOfNumber (soundEntries objs g) []).take c.maxEntries).reverse).reverse
  rw [List.reverse_reverse] at htrim
  exact (htrim.trans (List.take_sublist _ _)).trans (firstOfNumber_sublist _ _)

/-- A page that repeats no number and holds no more than the class allows keeps its sound entries (R51). -/
theorem restoreMailbox_entries (hn : (g.entries.map (·.number)).Nodup) (hlen : g.entries.length ≤ c.maxEntries)
    (hq : chargedOf objs (soundEntries objs g) ≤ c.quota) :
    (restoreMailbox objs c g).2.entries = soundEntries objs g := by
  have hsub : (soundEntries objs g).Sublist g.entries := List.filter_sublist.trans List.filter_sublist
  have hfirst : firstOfNumber (soundEntries objs g) [] = soundEntries objs g :=
    firstOfNumber_of_nodup (hn.sublist (hsub.map _)) fun _ _ => List.not_mem_nil
  have htake : (soundEntries objs g).take c.maxEntries = soundEntries objs g :=
    List.take_of_length_le (hsub.length_le.trans hlen)
  change (trimQuota objs c.quota ((firstOfNumber (soundEntries objs g) []).take c.maxEntries).reverse).reverse = _
  rw [hfirst, htake, trimQuota_of_room ((chargedOf_reverse _ _).trans_le hq), List.reverse_reverse]

theorem restoredSlot_eq_some {use : Use} {o : Option Nat} {n : Nat} :
    restoredSlot objs use o = some n ↔ o = some n ∧ ∃ x, tblGet n objs = some x ∧ x.use = use := by
  simp only [restoredSlot, Option.bind_eq_some_iff, Option.ite_none_right_eq_some]
  constructor
  · rintro ⟨k, rfl, x, hx, hu, hk⟩
    cases hk
    exact ⟨rfl, x, hx, hu⟩
  · rintro ⟨rfl, x, hx, hu⟩
    exact ⟨n, rfl, x, hx, hu, rfl⟩

end

/-- The holders of object `n` in a mailbox, entries and slots (R24). -/
theorem count_holds (m : Mailbox) (n : Nat) : m.holds.count n =
    (m.entries.filter fun e => e.object == some n).length +
      [m.standard, m.busy, m.absence, m.name].count (some n) := by
  have hentries : ∀ es : List Entry, (es.filterMap (·.object)).count n =
      (es.filter fun e => e.object == some n).length := by
    intro es
    induction es with
    | nil => rfl
    | cons e es ih =>
      rw [List.filterMap_cons, List.filter_cons]
      cases he : e.object with
      | none => simpa using ih
      | some k => by_cases hk : k = n <;> simp [hk, ih]
  have hslot : ∀ o : Option Nat, o.toList.count n = [o].count (some n) := by
    intro o
    cases o with
    | none => rfl
    | some k => by_cases hk : k = n <;> simp [hk]
  unfold Mailbox.holds
  rw [List.count_append, List.count_append, List.count_append, List.count_append, hentries, hslot, hslot, hslot, hslot]
  simp only [List.count_cons, List.count_nil]
  omega

section
variable {n : Nat} {dropped : List Nat}

/-- Leaving dropped objects out takes no entry of another object away. -/
theorem without_entries_of {m : Mailbox} {objs : List (Nat × Obj)} (hd : n ∉ dropped) :
    ((m.without objs dropped).entries.filter fun e => e.object == some n).length =
      (m.entries.filter fun e => e.object == some n).length := by
  unfold Mailbox.without
  rw [List.filter_filter]
  refine congrArg List.length (List.filter_congr fun e _ => ?_)
  by_cases he : e.object = some n
  · simp [he, hd]
  · simp [he]

theorem count_queueWithout {qs : List (Option QEntry)} (hd : n ∉ dropped) :
    (qs.filterMap (Option.map (·.object))).count n =
      ((queueWithout qs dropped).filter fun q => q.map (·.object) == some n).length := by
  induction qs with
  | nil => rfl
  | cons q qs ih =>
    unfold queueWithout at ih ⊢
    rw [List.map_cons, List.filter_cons]
    cases q with
    | none => simpa using ih
    | some e =>
      by_cases he : e.object = n
      · simp [he, hd, ih]
      · by_cases hmem : e.object ∈ dropped <;> simp [he, hmem, ih]

end

theorem mem_holds {m : Mailbox} {n : Nat} : n ∈ m.holds ↔ (∃ e ∈ m.entries, e.object = some n) ∨
    m.standard = some n ∨ m.busy = some n ∨ m.absence = some n ∨ m.name = some n := by
  simp [Mailbox.holds]

/-! ### What is left of the objects (R24) -/

theorem readObjects_eq (a : IndexArea) : readObjects a = (List.range 512).flatMap a.objectsOn := by
  have hpages : Config.objectPages = 512 := rfl
  rw [readObjects, hpages]

section
variable {a : IndexArea} {c : Settings} {f : Nat → ClassRec} {n : Nat}

theorem acceptedObjects_restorable : Restorable (acceptedObjects a c) c.pool :=
  accept_restorable _ _ (allObjects_keys a _).1 (allObjects_keys a _).2

theorem tblGet_accepted {x : Obj} : tblGet n (acceptedObjects a c) = some x ↔ (n, x) ∈ acceptedObjects a c :=
  ⟨mem_of_tblGet, tblGet_of_mem (rising_iff.2 acceptedObjects_restorable.numbers)⟩

/-- What refers to an object before any is dropped. -/
def holders (a : IndexArea) (c : Settings) (f : Nat → ClassRec) : List Nat :=
  holdings ((readBoxes a c f).map (·.2)) (readQueue a c)

theorem mem_countedObjects {x : Obj} : (n, x) ∈ countedObjects a c f ↔ ∃ y, (n, y) ∈ acceptedObjects a c ∧
    (holders a c f).count n ≠ 0 ∧ x = { y with refs := (holders a c f).count n } := mem_setCounts

theorem countedObjects_numbers : ((countedObjects a c f).map (·.1)).Pairwise (· < ·) :=
  (acceptedObjects_restorable.counted _).numbers

theorem mem_rebuilt_objects {x : Obj} : (n, x) ∈ (rebuildIndex a c f).objects ↔
    (∃ y, (n, y) ∈ acceptedObjects a c ∧ (holders a c f).count n ≠ 0 ∧
      x = { y with refs := (holders a c f).count n }) ∧ n ∉ droppedObjects a c f := by
  rw [rebuildIndex_objects_eq, List.mem_filter, mem_countedObjects, decide_eq_true_iff]

/-- A dropped object is an accepted SHARED one (R24). -/
theorem droppedObjects_shared {x : Obj} (h : n ∈ droppedObjects a c f) (hx : (n, x) ∈ acceptedObjects a c) :
    x.use = .shared := by
  obtain ⟨front, y, rest, hl, hu, -⟩ := mem_overBudget h
  have hmem : (n, y) ∈ countedObjects a c f := List.mem_reverse.1 (by rw [hl]; simp)
  obtain ⟨z, hz, -, rfl⟩ := mem_countedObjects.1 hmem
  have heq : x = z := Option.some.inj ((tblGet_accepted.2 hx).symm.trans (tblGet_accepted.2 hz))
  exact heq ▸ hu

/-- An object that passes every test of R24 (R24, R180). -/
structure SoundObject (a : IndexArea) (c : Settings) (n : Nat) (o : ObjImage) : Prop where
  read : (n, o) ∈ readObjects a
  acceptable : o.acceptable c.pool c.mailboxes.length = true
  apart : ∀ x ∈ readObjects a, x.1 < n → x.2.acceptable c.pool c.mailboxes.length = true →
    ∀ b ∈ x.2.chain, b ∉ o.chain
  budget : o.use = .shared → (((readObjects a).filter fun x => decide (x.1 ≤ n) && x.2.use == .shared).map fun x =>
    x.2.chain.length).sum ≤ c.budget

theorem SoundObject.accepted {o : ObjImage} (h : SoundObject a c n o) : (n, o.restored) ∈ acceptedObjects a c :=
  acceptObjects_of_apart (allObjects_keys a _).1 h.read h.acceptable (fun _ _ => List.not_mem_nil) h.apart

theorem SoundObject.get {o : ObjImage} (h : SoundObject a c n o) :
    tblGet n (acceptedObjects a c) = some o.restored := tblGet_accepted.2 h.accepted

/-- The budget has room for a sound object, so it is not dropped (R24). -/
theorem SoundObject.kept {o : ObjImage} (h : SoundObject a c n o) : n ∉ droppedObjects a c f := by
  intro hn
  have hu : o.use = .shared := droppedObjects_shared hn h.accepted
  obtain ⟨front, y, rest, hl, -, hover⟩ := mem_overBudget hn
  have hdown : ((countedObjects a c f).reverse.map (·.1)).Pairwise (fun x y => y < x) := by
    rw [List.map_reverse, List.pairwise_reverse]
    exact countedObjects_numbers
  rw [hl, List.map_append, List.pairwise_append, List.map_cons, List.pairwise_cons] at hdown
  have hbelow : ∀ x ∈ (n, y) :: rest, decide (x.1 ≤ n) = true := by
    intro x hx
    rcases List.mem_cons.1 hx with rfl | hx
    · simp
    · exact decide_eq_true (hdown.2.1.1 x.1 (List.mem_map_of_mem (f := (·.1)) hx)).le
  have hsub : ((n, y) :: rest).Sublist ((countedObjects a c f).reverse.filter fun x => decide (x.1 ≤ n)) := by
    have htail : ((n, y) :: rest).Sublist (countedObjects a c f).reverse := hl ▸ List.sublist_append_right _ _
    have hfiltered := htail.filter fun x => decide (x.1 ≤ n)
    rwa [List.filter_eq_self.2 hbelow] at hfiltered
  refine absurd hover (Nat.not_lt.2 ?_)
  calc sharedBlocks ((n, y) :: rest)
      ≤ sharedBlocks ((countedObjects a c f).reverse.filter fun x => decide (x.1 ≤ n)) := sharedBlocks_sublist hsub
    _ = sharedBlocks ((countedObjects a c f).filter fun x => decide (x.1 ≤ n)) :=
        sharedBlocks_perm ((List.reverse_perm _).filter _)
    _ ≤ sharedBlocks ((acceptedObjects a c).filter fun x => decide (x.1 ≤ n)) :=
        sharedBlocks_counted _ _ fun k => decide (k ≤ n)
    _ ≤ _ := sharedBlocks_accepted fun k => decide (k ≤ n)
    _ ≤ c.budget := h.budget hu

/-! ### What refers to them -/

/-- A restored slot names an accepted object of its use (R51 step 6). -/
theorem read_slot {objs : List (Nat × Obj)} {use : Use} {o : Option Nat} (h : restoredSlot objs use o = some n) :
    ∃ x, tblGet n objs = some x ∧ x.use = use := (restoredSlot_eq_some.1 h).2

theorem readBox_holds {b : Bool × Mailbox} (hb : b ∈ readBoxes a c f) (hn : n ∈ b.2.holds) :
    ∃ x, (n, x) ∈ acceptedObjects a c := by
  obtain ⟨k, -, rfl⟩ := List.mem_map.1 hb
  rcases mem_holds.1 hn with ⟨e, he, hobj⟩ | h | h | h | h
  · have hsound := restoreMailbox_entries_sublist.subset he
    have hpresent : e.present (acceptedObjects a c) = true := (List.mem_filter.1 hsound).2
    rw [Entry.present, hobj] at hpresent
    obtain ⟨x, hx⟩ := Option.isSome_iff_exists.1 hpresent
    exact ⟨x, tblGet_accepted.1 hx⟩
  all_goals
    obtain ⟨x, hx, -⟩ := read_slot h
    exact ⟨x, tblGet_accepted.1 hx⟩

/-- A slot's object is never dropped: only SHARED ones are (R24). -/
theorem slot_kept {use : Use} {o : Option Nat} (hu : use ≠ .shared)
    (h : restoredSlot (acceptedObjects a c) use o = some n) : n ∉ droppedObjects a c f := by
  obtain ⟨x, hx, rfl⟩ := read_slot h
  exact fun hn => hu (droppedObjects_shared hn (tblGet_accepted.1 hx))

theorem mem_without {m : Mailbox} {objs : List (Nat × Obj)} {dropped : List Nat} {e : Entry} :
    e ∈ (m.without objs dropped).entries ↔ e ∈ m.entries ∧ ∀ n, e.object = some n → n ∉ dropped := by
  have hentries : (m.without objs dropped).entries = m.entries.filter fun e => match e.object with
    | none => true
    | some n => decide (n ∉ dropped) := rfl
  rw [hentries, List.mem_filter]
  refine and_congr_right fun _ => ?_
  cases e.object <;> simp

/-- Whatever a rebuilt mailbox refers to was read, and is not dropped (R24, R51). -/
theorem rebuilt_holds {m : Mailbox} (hm : m ∈ (rebuildIndex a c f).mailboxes) (hn : n ∈ m.holds) :
    (∃ b ∈ readBoxes a c f, n ∈ b.2.holds) ∧ n ∉ droppedObjects a c f := by
  rw [rebuildIndex_mailboxes] at hm
  obtain ⟨b, hb, rfl⟩ := List.mem_map.1 hm
  have hb' := hb
  obtain ⟨k, -, rfl⟩ := List.mem_map.1 hb
  rcases mem_holds.1 hn with ⟨e, he, hobj⟩ | h | h | h | h
  · obtain ⟨hmem, hkept⟩ := mem_without.1 he
    exact ⟨⟨_, hb', mem_holds.2 (.inl ⟨e, hmem, hobj⟩)⟩, hkept n hobj⟩
  · exact ⟨⟨_, hb', mem_holds.2 (.inr (.inl h))⟩, slot_kept (by decide) h⟩
  · exact ⟨⟨_, hb', mem_holds.2 (.inr (.inr (.inl h)))⟩, slot_kept (by decide) h⟩
  · exact ⟨⟨_, hb', mem_holds.2 (.inr (.inr (.inr (.inl h))))⟩, slot_kept (by decide) h⟩
  · exact ⟨⟨_, hb', mem_holds.2 (.inr (.inr (.inr (.inr h))))⟩, slot_kept (by decide) h⟩

theorem readQueue_object {e : QEntry} (h : some e ∈ readQueue a c) : ∃ x, (e.object, x) ∈ acceptedObjects a c := by
  obtain ⟨p, -, hp⟩ := List.mem_map.1 h
  obtain ⟨q, -, hq⟩ := Option.bind_eq_some_iff.1 hp
  split at hq
  · rename_i hcond
    cases hq
    obtain ⟨x, hx⟩ := Option.isSome_iff_exists.1 (Bool.and_eq_true_iff.1 hcond).2
    exact ⟨x, tblGet_accepted.1 hx⟩
  · cases hq

theorem mem_holders : n ∈ holders a c f ↔ (∃ b ∈ readBoxes a c f, n ∈ b.2.holds) ∨
    ∃ e, some e ∈ readQueue a c ∧ e.object = n := by
  simp only [holders, holdings, List.mem_append, List.mem_flatMap, List.mem_map, List.mem_filterMap,
    Option.map_eq_some_iff]
  refine or_congr ⟨?_, ?_⟩ ⟨?_, ?_⟩
  · rintro ⟨m, ⟨b, hb, rfl⟩, hn⟩
    exact ⟨b, hb, hn⟩
  · rintro ⟨b, hb, hn⟩
    exact ⟨b.2, ⟨b, hb, rfl⟩, hn⟩
  · rintro ⟨q, hq, e, rfl, rfl⟩
    exact ⟨e, hq, rfl⟩
  · rintro ⟨e, he, rfl⟩
    exact ⟨some e, he, e, rfl, rfl⟩

/-- An accepted object that something refers to, and that is not dropped, is restored (R24). -/
theorem rebuilt_of_held {y : Obj} (hy : (n, y) ∈ acceptedObjects a c) (hh : n ∈ holders a c f)
    (hd : n ∉ droppedObjects a c f) :
    (n, { y with refs := (holders a c f).count n }) ∈ (rebuildIndex a c f).objects :=
  mem_rebuilt_objects.2 ⟨⟨y, hy, Nat.ne_of_gt (List.count_pos_iff.2 hh), rfl⟩, hd⟩

theorem holders_of_rebuilt (h : (∃ m ∈ (rebuildIndex a c f).mailboxes, n ∈ m.holds) ∨
    ∃ e, some e ∈ (rebuildIndex a c f).queue ∧ e.object = n) :
    n ∈ holders a c f ∧ n ∉ droppedObjects a c f := by
  rcases h with ⟨m, hm, hn⟩ | ⟨e, he, rfl⟩
  · obtain ⟨hb, hd⟩ := rebuilt_holds hm hn
    exact ⟨mem_holders.2 (.inl hb), hd⟩
  · rw [rebuildIndex_queue, mem_queueWithout] at he
    exact ⟨mem_holders.2 (.inr ⟨e, he.1, rfl⟩), he.2⟩

theorem holders_accepted (h : n ∈ holders a c f) : ∃ x, (n, x) ∈ acceptedObjects a c := by
  rcases mem_holders.1 h with ⟨b, hb, hn⟩ | ⟨e, he, rfl⟩
  · exact readBox_holds hb hn
  · exact readQueue_object he

/-- Of what is not dropped, the rebuilt mailboxes and queue refer to it as often as what was read (R24). -/
theorem holders_count (hd : n ∉ droppedObjects a c f) : (holders a c f).count n =
    ((rebuildIndex a c f).mailboxes.map fun m => (m.entries.filter fun e => e.object == some n).length +
      [m.standard, m.busy, m.absence, m.name].count (some n)).sum +
    ((rebuildIndex a c f).queue.filter fun q => q.map (·.object) == some n).length := by
  rw [rebuildIndex_mailboxes, rebuildIndex_queue, holders, holdings, List.count_append, List.count_flatMap,
    List.map_map, List.map_map]
  refine congrArg₂ (· + ·) (congrArg List.sum (List.map_congr_left fun b _ => ?_)) (count_queueWithout hd)
  exact (count_holds b.2 n).trans (congrArg (· + _) (without_entries_of hd).symm)

/-! ### Each rebuilt object (R24) -/

theorem rebuilt_object {x : Nat × Obj} (h : x ∈ (rebuildIndex a c f).objects) :
    1 ≤ x.1 ∧ x.1 ≤ 8192 ∧ x.2.complete = true ∧ x.2.earmark = 0 ∧ 16 ≤ x.2.segments ∧ x.2.segments ≤ 9600 ∧
      x.2.chain.length = (x.2.segments + 7) / 8 ∧ ∀ b ∈ x.2.chain, b < c.pool := by
  obtain ⟨⟨y, hy, -, hx⟩, -⟩ := mem_rebuilt_objects.1 h
  obtain ⟨o, -, hacc, rfl⟩ := mem_acceptObjects hy
  obtain ⟨hmin, hmax, hlen, hpool⟩ := acceptable_spec hacc
  obtain ⟨hone, htop⟩ := acceptedObjects_restorable.within _ hy
  rw [hx]
  exact ⟨hone, htop, rfl, rfl, hmin, hmax, hlen, hpool⟩

/-! ### The pages read -/

theorem checked_fits {p : PageId} {x : PageImage} (h : a.checked p = some x) : PageImage.fits p x = true := by
  obtain ⟨y, -, hy⟩ := Option.bind_eq_some_iff.1 h
  split at hy
  · cases hy
    assumption
  · cases hy

theorem tblGet_queueOn {p j : Nat} {e : QImage} :
    tblGet p (a.queueOn j) = some e ↔ ∃ es, a.checked (.queue j) = some (.queue es) ∧ (p, e) ∈ es := by
  unfold IndexArea.queueOn
  constructor
  · intro h
    split at h
    · rename_i es hes
      exact ⟨es, hes, mem_of_tblGet h⟩
    · cases h
  · rintro ⟨es, hes, he⟩
    rw [hes]
    have hrising : rising es = true := (Bool.and_eq_true_iff.1 (checked_fits hes)).1
    exact tblGet_of_mem hrising he

theorem rebuilt_queue_at {p : Nat} {q : QEntry} : (rebuildIndex a c f).queue[p]? = some (some q) ↔
    p < 64 ∧ restoredAt a (acceptedObjects a c) c.mailboxes.length p = some q ∧ q.object ∉ droppedObjects a c f := by
  have hpositions : Config.queuePositions = 64 := rfl
  rw [rebuildIndex_queue, queueWithout, readQueue, List.getElem?_map, List.getElem?_map]
  by_cases hp : p < 64
  · rw [List.getElem?_range (hpositions ▸ hp)]
    simp only [Option.map_some, Option.some.injEq, Option.bind_eq_some_iff, hp, true_and]
    constructor
    · rintro ⟨e, he, hq⟩
      split at hq
      · cases hq
      · cases hq
        exact ⟨he, ‹_›⟩
    · rintro ⟨hq, hd⟩
      exact ⟨q, hq, if_neg hd⟩
  · rw [List.getElem?_eq_none (by rw [List.length_range]; omega)]
    simp [hp]

theorem restoredAt_eq_some {objs : List (Nat × Obj)} {m p : Nat} {q : QEntry} :
    restoredAt a objs m p = some q ↔ ∃ es e, a.checked (.queue (p / 16)) = some (.queue es) ∧ (p, e) ∈ es ∧
      e.inRange = true ∧ (∃ x, tblGet e.object objs = some x) ∧ q = e.restored m := by
  have hpage : Config.perPage = 16 := rfl
  rw [restoredAt, hpage, Option.bind_eq_some_iff]
  constructor
  · rintro ⟨e, he, hq⟩
    obtain ⟨es, hes, hmem⟩ := tblGet_queueOn.1 he
    split at hq
    · rename_i hcond
      obtain ⟨hrange, hobj⟩ := Bool.and_eq_true_iff.1 hcond
      exact ⟨es, e, hes, hmem, hrange, Option.isSome_iff_exists.1 hobj, (Option.some.inj hq).symm⟩
    · cases hq
  · rintro ⟨es, e, hes, hmem, hrange, hobj, rfl⟩
    exact ⟨e, tblGet_queueOn.2 ⟨es, hes, hmem⟩,
      if_pos (Bool.and_eq_true_iff.2 ⟨hrange, Option.isSome_iff_exists.2 hobj⟩)⟩

theorem rebuilt_mailbox_at {k : Nat} {m : Mailbox} : (rebuildIndex a c f).mailboxes[k]? = some m ↔
    k < c.mailboxes.length ∧ m = (restoreMailbox (acceptedObjects a c) (f k) (a.mailboxOn k)).2.without
      (rebuildIndex a c f).objects (droppedObjects a c f) := by
  rw [rebuildIndex_mailboxes, readBoxes, List.getElem?_map, List.getElem?_map]
  by_cases hk : k < c.mailboxes.length
  · rw [List.getElem?_range hk]
    simp [hk, eq_comm]
  · rw [List.getElem?_eq_none (by rw [List.length_range]; omega)]
    simp [hk]

theorem mailboxOn_of_checked {k : Nat} {g : MailboxImage} (h : a.checked (.mailbox k) = some (.mailbox g)) :
    a.mailboxOn k = g := by
  rw [IndexArea.mailboxOn, h]

theorem mailboxOn_of_none {k : Nat} (h : a.checked (.mailbox k) = none) :
    a.mailboxOn k = Mailbox.blank.image := by
  rw [IndexArea.mailboxOn, h]

theorem rebuilt_damaged {k : Nat} (hk : k < c.mailboxes.length) (h : a.checked (.mailbox k) = none) :
    (rebuildIndex a c f).damaged = true := by
  have hdamaged : (rebuildIndex a c f).damaged = (((indexPages c.mailboxes.length).any fun p =>
      (a.checked p).isNone) || (readBoxes a c f).any (·.1)) := by
    delta rebuildIndex readBoxes acceptedObjects readObjects
    with_reducible rfl
  rw [hdamaged, Bool.or_eq_true]
  refine .inl (List.any_eq_true.2 ⟨.mailbox k, ?_, by rw [h]; rfl⟩)
  exact List.mem_append_left _ (List.mem_append_right _ (List.mem_map_of_mem (List.mem_range.2 hk)))

/-! ### What a mailbox keeps (R51, R65) -/

/-- The blocks of the VOICE entries' objects, as the object pages give them (R39). -/
def pageCharge (tbl : List (Nat × ObjImage)) (es : List Entry) : Nat :=
  ((es.filter fun e => e.kind == .voice).map fun e =>
    ((e.object.bind fun n => tblGet n tbl).map fun o => o.chain.length).getD 0).sum

theorem charge_accepted_le (o : Option Nat) :
    ((o.bind fun n => tblGet n (acceptedObjects a c)).map fun x => x.chain.length).getD 0 ≤
      ((o.bind fun n => tblGet n (readObjects a)).map fun x => x.chain.length).getD 0 := by
  cases o with
  | none => exact Nat.le_refl _
  | some n =>
    cases hx : tblGet n (acceptedObjects a c) with
    | none => simp [hx]
    | some x =>
      obtain ⟨y, hy, -, rfl⟩ := mem_acceptObjects (tblGet_accepted.1 hx)
      have hget : tblGet n (readObjects a) = some y := tblGet_of_mem (rising_iff.2 (allObjects_keys a _).1) hy
      simp [hx, hget, ObjImage.restored]

theorem charged_le_pageCharge {es es' : List Entry} (h : es.Sublist es') :
    chargedOf (acceptedObjects a c) es ≤ pageCharge (readObjects a) es' := by
  have heach : chargedOf (acceptedObjects a c) es ≤ pageCharge (readObjects a) es := by
    refine List.sum_le_sum fun e _ => ?_
    refine le_trans (le_of_eq ?_) (charge_accepted_le (c := c) e.object)
    cases e.object.bind fun n => tblGet n (acceptedObjects a c) <;> rfl
  exact heach.trans (List.Sublist.sum_le_sum ((h.filter _).map _) fun _ _ => Nat.zero_le _)

/-- A sound object's slot keeps it, where the use is right (R51 step 6). -/
theorem SoundObject.slot {o : ObjImage} (h : SoundObject a c n o) :
    restoredSlot (acceptedObjects a c) o.use (some n) = some n :=
  restoredSlot_eq_some.2 ⟨rfl, _, h.get, rfl⟩

/-- An entry in range that agrees with its kind, its object sound, is kept (R51). -/
theorem sound_entry {g : MailboxImage} {e : Entry} (he : e ∈ g.entries) (hr : e.inRange = true)
    (ho : (e.kind = .notice ∧ e.object = none) ∨ ∃ n o, e.object = some n ∧ SoundObject a c n o ∧
      ((e.kind = .voice ∧ (o.use = .message ∨ o.use = .shared)) ∨ (e.kind = .shared ∧ o.use = .shared))) :
    e ∈ soundEntries (acceptedObjects a c) g := by
  have hsound : e.agrees (acceptedObjects a c) = true ∧ e.present (acceptedObjects a c) = true := by
    rcases ho with ⟨hk, hobj⟩ | ⟨n, o, hobj, hgood, hkind⟩
    · exact ⟨by rw [Entry.agrees, hk, hobj], by rw [Entry.present, hobj]⟩
    · refine ⟨?_, by rw [Entry.present, hobj]; simp [hgood.get]⟩
      rcases hkind with ⟨hk, hu⟩ | ⟨hk, hu⟩
      · rw [Entry.agrees, hk, hobj]
        rcases hu with hu | hu <;> simp [hgood.get, ObjImage.restored, hu]
      · rw [Entry.agrees, hk, hobj]
        simp [hgood.get, ObjImage.restored, hu]
  exact List.mem_filter.2 ⟨List.mem_filter.2 ⟨he, by rw [hr, hsound.1]; rfl⟩, hsound.2⟩

/-- What a mailbox whose page fails its check comes up with (R51). -/
theorem rebuilt_blank {k : Nat} {m : Mailbox} (hm : (rebuildIndex a c f).mailboxes[k]? = some m)
    (h : a.checked (.mailbox k) = none) : m.entries = [] ∧ m.nextNumber = 1 ∧ m.standard = none ∧
      m.busy = none ∧ m.absence = none ∧ m.name = none ∧ (rebuildIndex a c f).damaged = true := by
  obtain ⟨hk, rfl⟩ := rebuilt_mailbox_at.1 hm
  rw [mailboxOn_of_none h]
  have hentries : (restoreMailbox (acceptedObjects a c) (f k) Mailbox.blank.image).2.entries = [] :=
    List.sublist_nil.1 restoreMailbox_entries_sublist
  exact ⟨List.sublist_nil.1 (hentries ▸ List.filter_sublist), rfl, rfl, rfl, rfl, rfl, rebuilt_damaged hk h⟩

section
variable {k : Nat} {m : Mailbox} {g : MailboxImage}

/-- A rebuilt mailbox is its page's, less the entries of dropped objects (R24, R51). -/
theorem rebuilt_of_page (hm : (rebuildIndex a c f).mailboxes[k]? = some m)
    (hg : a.checked (.mailbox k) = some (.mailbox g)) :
    m = (restoreMailbox (acceptedObjects a c) (f k) g).2.without (rebuildIndex a c f).objects
      (droppedObjects a c f) := by
  rw [(rebuilt_mailbox_at.1 hm).2, mailboxOn_of_checked hg]

theorem rebuilt_entries_sublist (hm : (rebuildIndex a c f).mailboxes[k]? = some m)
    (hg : a.checked (.mailbox k) = some (.mailbox g)) : m.entries.Sublist g.entries := by
  rw [rebuilt_of_page hm hg]
  exact List.filter_sublist.trans
    (restoreMailbox_entries_sublist.trans (List.filter_sublist.trans List.filter_sublist))

theorem rebuilt_slots (hm : (rebuildIndex a c f).mailboxes[k]? = some m)
    (hg : a.checked (.mailbox k) = some (.mailbox g)) :
    m.standard = restoredSlot (acceptedObjects a c) .greeting g.standard ∧
      m.busy = restoredSlot (acceptedObjects a c) .greeting g.busy ∧
      m.absence = restoredSlot (acceptedObjects a c) .greeting g.absence ∧
      m.name = restoredSlot (acceptedObjects a c) .name g.name ∧
      m.endDay = (if m.absence.isSome && dayOk g.endDay then g.endDay else none) ∧
      m.nextNumber = if 1 ≤ g.nextNumber && g.nextNumber ≤ 9999 then g.nextNumber else 1 := by
  rw [rebuilt_of_page hm hg]
  exact ⟨rfl, rfl, rfl, rfl, rfl, rfl⟩

/-- A page within the class's limits keeps its sound entries whose objects are not dropped (R24, R51). -/
theorem rebuilt_entry_kept {e : Entry} (hm : (rebuildIndex a c f).mailboxes[k]? = some m)
    (hg : a.checked (.mailbox k) = some (.mailbox g)) (he : e ∈ soundEntries (acceptedObjects a c) g)
    (hd : ∀ n, e.object = some n → n ∉ droppedObjects a c f) (hn : (g.entries.map (·.number)).Nodup)
    (hlen : g.entries.length ≤ (f k).maxEntries) (hq : pageCharge (readObjects a) g.entries ≤ (f k).quota) :
    e ∈ m.entries := by
  have hsub : (soundEntries (acceptedObjects a c) g).Sublist g.entries :=
    List.filter_sublist.trans List.filter_sublist
  rw [rebuilt_of_page hm hg]
  refine mem_without.2 ⟨?_, hd⟩
  rw [restoreMailbox_entries hn hlen ((charged_le_pageCharge hsub).trans hq)]
  exact he

end

end

end Sys2Proof.Machine

namespace Sys2Proof.Proofs

open Sys2Proof Sys2Proof.Machine

/-- Settles O31: an object restored is an accepted one with its holders counted, and what is sound passes every
step of the restoration. -/
theorem rebuildRestoresWholeObjects : Obligations.RebuildRestoresWholeObjects := by
  refine ⟨fun a c f r hr => ?_, fun a c f r tbl good hr htbl hgood => ?_⟩
  · subst hr
    obtain ⟨hrestorable, hrefs, -⟩ := rebuildIndex_objects a c f
    refine ⟨hrestorable.nodup, fun x hx => ?_⟩
    obtain ⟨hone, htop, hcomplete, hearmark, hmin, hmax, hlen, hpool⟩ := rebuilt_object hx
    obtain ⟨⟨y, -, -, hcount⟩, hd⟩ := mem_rebuilt_objects.1 hx
    have hown : x.2.refs = (holders a c f).count x.1 := by rw [hcount]
    exact ⟨hown.trans (holders_count hd), hone, htop, hcomplete, hearmark, hrefs x hx, hmin, hmax, hlen, hpool⟩
  · subst hr
    rw [← readObjects_eq] at htbl
    rw [htbl] at hgood ⊢
    clear htbl
    have hsound : ∀ {n o}, good n o → SoundObject a c n o := fun h =>
      let ⟨hmem, hacc, hapart, hbudget⟩ := (hgood _ _).1 h
      ⟨hmem, hacc, hapart, hbudget⟩
    have hrestored : ∀ {n}, ((∃ m ∈ (rebuildIndex a c f).mailboxes, n ∈ m.holds) ∨
        ∃ e, some e ∈ (rebuildIndex a c f).queue ∧ e.object = n) → ∃ x, (n, x) ∈ (rebuildIndex a c f).objects :=
      fun h =>
        let ⟨hheld, hd⟩ := holders_of_rebuilt h
        let ⟨_, hy⟩ := holders_accepted hheld
        ⟨_, rebuilt_of_held hy hheld hd⟩
    refine ⟨rebuilt_mailboxes_length, ?_, fun n o ho hheld => ?_, fun m hm n hn => hrestored (.inl ⟨m, hm, hn⟩),
      fun e he => hrestored (.inr ⟨e, he, rfl⟩), fun p q hq => ?_, fun p n es e o hp hes he hrange hobj ho => ?_,
      fun k m hm => ⟨rebuilt_blank hm, fun g hg => ?_⟩⟩
    · rw [rebuildIndex_queue, queueWithout, List.length_map, readQueue, List.length_map, List.length_range]
      rfl
    · obtain ⟨hmem, hd⟩ := holders_of_rebuilt hheld
      exact ⟨_, rebuilt_of_held (hsound ho).accepted hmem hd, rfl, rfl, rfl, rfl⟩
    · obtain ⟨es, e, hes, hmem, -, -, rfl⟩ := restoredAt_eq_some.1 (rebuilt_queue_at.1 hq).2.1
      exact ⟨es, e, hes, hmem, rfl⟩
    · subst hobj
      exact rebuilt_queue_at.2 ⟨hp, restoredAt_eq_some.2 ⟨es, e, hes, he, hrange, ⟨_, (hsound ho).get⟩, rfl⟩,
        (hsound ho).kept⟩
    · obtain ⟨hstandard, hbusy, habsence, hname, hend, hnext⟩ := rebuilt_slots hm hg
      refine ⟨rebuilt_entries_sublist hm hg, fun h1 h2 => ?_, fun n o ho hu => ⟨fun h => ?_, fun h => ?_, fun h => ?_⟩,
        fun n o ho hu h => ?_, fun e he hrange hobj hn hlen hq => ?_⟩
      · rw [hnext, decide_eq_true h1, decide_eq_true h2]
        rfl
      · rw [hstandard, h, ← hu, (hsound ho).slot]
      · rw [hbusy, h, ← hu, (hsound ho).slot]
      · have habs : m.absence = some n := by rw [habsence, h, ← hu, (hsound ho).slot]
        refine ⟨habs, fun hday => ?_⟩
        have hok : dayOk g.endDay = true := by
          cases hd : g.endDay with
          | none => rfl
          | some d => exact decide_eq_true (hday d hd)
        rw [hend, habs, hok]
        rfl
      · rw [hname, h, ← hu, (hsound ho).slot]
      · have hobj' : (e.kind = .notice ∧ e.object = none) ∨ ∃ n o, e.object = some n ∧ SoundObject a c n o ∧
            ((e.kind = .voice ∧ (o.use = .message ∨ o.use = .shared)) ∨ (e.kind = .shared ∧ o.use = .shared)) :=
          hobj.imp id fun ⟨n, o, hn, ho, hkind⟩ => ⟨n, o, hn, hsound ho, hkind⟩
        refine rebuilt_entry_kept hm hg (sound_entry he hrange hobj') (fun n hobjn => ?_) hn hlen
          (le_of_eq_of_le ?_ hq)
        · rcases hobj' with ⟨-, hnone⟩ | ⟨k', o, hk', ho, -⟩
          · rw [hnone] at hobjn
            cases hobjn
          · rw [hk'] at hobjn
            cases hobjn
            exact ho.kept
        · refine congrArg List.sum (List.map_congr_left fun x _ => ?_)
          cases x.object.bind fun n => tblGet n (readObjects a) <;> rfl

end Sys2Proof.Proofs

/-! PROOF. The invariants hold at reset, and one of them is not kept by every step. -/

namespace Sys2Proof.Machine

theorem reset_shaped : State.reset.Shaped where
  unset _ := rfl
  chans := rfl
  lines := rfl
  queue := rfl
  outSlots := rfl
  inSlots := rfl
  groups := rfl
  presence := rfl
  boxes h := absurd h Bool.noConfusion
  lamps h := absurd h Bool.noConfusion

theorem reset_settled : State.reset.Settled where
  lines := rfl
  writer _ _ := ⟨rfl, rfl⟩
  drain h := Mode.noConfusion h

theorem reset_startAgrees : State.reset.StartAgrees := ⟨fun _ => rfl, fun _ => StartStep.noConfusion⟩

/-! ### A node that holds nothing -/

theorem idle_channelSound (s : State) : s.ChannelSound Channel.idle where
  idle _ := rfl
  playing h := absurd h Bool.noConfusion
  recording := rfl
  complete _ _ h := nomatch h
  target h := absurd h Bool.noConfusion
  reservation := rfl
  served h := absurd h Bool.noConfusion
  grant _ := rfl
  covered h := absurd h Bool.noConfusion

theorem inSlotSound_of_not_filling {s : State} {x : InSlot} (h : x.state ≠ .filling) : s.InSlotSound x where
  reservation hf := absurd hf h
  served hf := absurd hf h
  covered hf := absurd hf h

/-- A start under way with nothing set up holds nothing (log 10). -/
theorem accounted_of_blank {s : State} (hstore : s.store = Store.blank) (hboxes : s.mailboxes = [])
    (hchans : s.chans = List.replicate 16 Channel.idle) (hdeliv : s.deliv = Delivery.fresh)
    (hclasses : s.cfg.classes = []) (hmode : s.mode = .starting) (hstep : s.startStep ≠ .none) : s.Accounted := by
  have hchan : ∀ c ∈ s.chans, c = Channel.idle := fun c hc => List.eq_of_mem_replicate (hchans ▸ hc)
  have hslot : ∀ x ∈ s.deliv.inSlots, x = InSlot.blank := fun x hx =>
    List.eq_of_mem_replicate (show x ∈ List.replicate 4 InSlot.blank by rwa [hdeliv] at hx)
  have hheld : s.kept ++ s.playings ++ s.recordings ++ s.fillings = [] := by
    rw [State.kept, State.playings, State.recordings, State.fillings, hboxes, hdeliv, hchans]
    rfl
  exact {
    counted := {
      counts := fun x hx => absurd (hstore ▸ hx) List.not_mem_nil
      present := fun n hn => absurd (hheld ▸ hn) List.not_mem_nil }
    chans := fun c hc => hchan c hc ▸ idle_channelSound s
    inSlots := fun x hx => hslot x hx ▸ inSlotSound_of_not_filling InState.noConfusion
    boxes := fun k m h => absurd (hboxes ▸ h) nofun
    locks := by rw [hboxes]; exact List.nodup_nil
    classes := fun c hc => absurd (hclasses ▸ hc) List.not_mem_nil
    unset := fun _ => ⟨hboxes, by rw [hstore]; rfl, .inl hmode⟩
    quiet := fun _ _ => ⟨fun c hc => by rw [hchan c hc]; rfl, fun x hx => by rw [hslot x hx]; rfl⟩
    starts := fun _ q hq => List.eq_of_mem_replicate (show q ∈ List.replicate 64 none by rwa [hdeliv] at hq)
    step := ⟨fun _ => hmode, fun _ => hstep⟩ }

/-! ### A cold start whose store was never set up -/

/-- A node at the header write of a cold start, its store not set up. No run reaches it: a cold start sets the
store up before the wipe (R179). None of the laws that the invariants state excludes it. -/
def coldUnset : State :=
  { State.reset with startStep := .headerWrite false 1, pending := [.headerWriteDone] }

theorem coldUnset_shaped : coldUnset.Shaped where
  unset _ := rfl
  chans := rfl
  lines := rfl
  queue := rfl
  outSlots := rfl
  inSlots := rfl
  groups := rfl
  presence := rfl
  boxes h := absurd h Bool.noConfusion
  lamps h := absurd h Bool.noConfusion

theorem coldUnset_accounted : coldUnset.Accounted :=
  accounted_of_blank rfl rfl rfl rfl rfl rfl StartStep.noConfusion

/-- Its step brings it into SERVING with the store not set up. -/
theorem coldUnset_serves : ∃ t, step coldUnset = .next t ∧ t.store.ready = false ∧ t.mode = .serving := by
  have hnone : ∀ q ∈ ((coldUnset.setPending []).headerWritten 1).deliv.queue, q = none :=
    fun q hq => List.eq_of_mem_replicate (show q ∈ List.replicate 64 none from hq)
  have hstill := enterServing_still ((coldUnset.setPending []).headerWritten 1) rfl hnone rfl
  refine ⟨(((coldUnset.setPending []).headerWritten 1).enterServing).settle, rfl, ?_⟩
  rw [settle_eq _ (by rw [hstill]; exact Mode.noConfusion), hstill]
  exact ⟨rfl, rfl⟩

end Sys2Proof.Machine

namespace Sys2Proof.Proofs

open Sys2Proof Sys2Proof.Machine

/-- Settles O4: nothing is set up, and nothing held, at reset. -/
theorem invariantsHoldAtReset : Obligations.InvariantsHoldAtReset :=
  ⟨storeSound_of_unready rfl rfl, reset_bounded, reset_shaped, reset_settled, reset_startAgrees,
    accounted_of_blank rfl rfl rfl rfl rfl rfl StartStep.noConfusion⟩

/-- Refutes O7: the tables keep their shape, but the laws of the Directory are not kept by a step from every node
that meets them. The header write of a cold start whose store was never set up ends in SERVING, where the laws
say that it is set up. -/
theorem not_tablesKeepTheirShape : ¬ Obligations.TablesKeepTheirShape := by
  rintro ⟨-, hkept⟩
  obtain ⟨t, ht, hready, hserving⟩ := coldUnset_serves
  have haccounted : t.Accounted :=
    hkept coldUnset t (storeSound_of_unready rfl rfl) coldUnset_shaped coldUnset_accounted ht
  obtain ⟨-, -, hstarting | hhalted⟩ := haccounted.unset hready
  · exact absurd (hserving.symm.trans hstarting) Mode.noConfusion
  · exact absurd (hserving.symm.trans hhalted) Mode.noConfusion

end Sys2Proof.Proofs
